-- ==== Sys2Proof/Word.lean ====
section
/-! DEFINITION. The word types of the device: a byte of memory, a 32-bit register or counter word.
Everything finer (bit fields, byte order, checks) is in Machine/Bits.lean. -/

namespace Sys2Proof

/-- One byte of memory or of a message (R41: multi-byte values are stored little-endian). -/
abbrev Byte := BitVec 8

/-- One 32-bit register, counter or instruction word (R257, R260). -/
abbrev Word := BitVec 32

/-- A 16-bit status or event code of R14. -/
abbrev Code := BitVec 16

end Sys2Proof
end

