-- ==== Sys2Proof/Syntax.lean ====
section
/-! DEFINITION. The commands of the block: one constructor of `Instr` for each row of spec/opcode_table.json, with
the operands the rules give it. A plan instruction's operand is the placed instruction it stands for; a Ligil
command's operand is the mailbox slot that carries it; an event's operand is what the outside supplies with it. -/

namespace Sys2Proof

/-- A placed plan instruction: its context, the step it belongs to, the stream directory index and the index
within the stream (R266, R349). -/
structure InstrRef where
  ctx : Nat
  step : Nat
  stream : Nat
  index : Nat
  deriving DecidableEq, Repr, Inhabited

/-- An engine of R370: an array, vector unit or conversion unit of a grain, or a copy engine. -/
inductive Engine where
  | forward (grain : Nat)
  | backward0 (grain : Nat)
  | backward1 (grain : Nat)
  | vector (grain : Nat)
  | conversion0 (grain : Nat)
  | conversion1 (grain : Nat)
  | copy (number : Nat)
  deriving DecidableEq, Repr

/-- The 8-byte head of a frame over TLS (R333): type, the reserved bytes 1 to 3, and body length. Over I3C there is no
frame and the head says nothing. -/
structure FrameHead where
  type : Nat
  reserved : Nat
  length : Nat
  deriving DecidableEq, Repr

/-- The 16-byte head of a bulk frame's body (R350): the handle, the offset in its range and the number of data bytes. -/
structure BulkHead where
  handle : Nat
  offset : Nat
  len : Nat
  deriving DecidableEq, Repr

/-- The first 4 bytes of a slot as the client returns it (R332, R333): the slot they name and its owner field. -/
structure SlotRelease where
  slot : Nat
  owner : BitVec 2
  deriving DecidableEq, Repr

/-- A Ligil command slot as the client hands it over (R331), in a frame over TLS (R333): word 0's owner, reserved bits and
code, word 1's session and sequence, word 2's payload length, word 3's status and detail, the argument words 4 to 15 and the
payload. `conn` is the connection that carried it; connection 0 is the tray controller's I3C. -/
structure Slot where
  conn : Nat
  head : FrameHead
  owner : BitVec 2
  reserved : BitVec 14
  code : Code
  session : BitVec 16
  seq : BitVec 16
  len : Nat
  status : BitVec 16
  detail : BitVec 16
  args : List Word
  payload : List Byte
  deriving DecidableEq, Repr

/-- How a port copy ended at the receiver (R312, R313). -/
inductive CopyEnd where
  /-- The last flit was written and made visible. -/
  | written
  /-- The receiving context is not receiving; the message was discarded. -/
  | notReceiving
  /-- The destination is not mapped writable there. -/
  | violation
  deriving DecidableEq, Repr

/-- What a collective message carries (R316, R317, R318, R320). The spec fixes no layout of it on flits. -/
inductive CollPart where
  /-- A contribution: the receiving owner's runs of the sender's S, in staging slot form. -/
  | contribution (data : List Byte)
  /-- Result runs of an ALL_REDUCE, from the owner that combined them. -/
  | result (data : List Byte)
  /-- The twelve count words of a Sieve record (cf[2]). -/
  | counts (words : List Word)
  /-- A rank's S for ALL_GATHER: element bytes and scale lines. -/
  | gather (elems scales : List Byte)
  /-- A stretch block of RING_PASS. -/
  | block (stretch : Nat) (elems scales : List Byte)
  /-- The completion of a stretch block. -/
  | blockDone
  deriving DecidableEq, Repr

/-- A collective message: group id, step, serial, sender's rank and mask tag (R315), and its content. -/
structure CollMsg where
  group : Word
  step : Nat
  serial : Nat
  rank : Nat
  maskTag : Word
  part : CollPart
  deriving DecidableEq, Repr

/-- A flit: header fields of R297, payload, and the trailer of R296 without its check. -/
structure Flit where
  vc : Nat
  type : Nat
  last : Bool
  crypt : Bool
  bind : Nat
  epoch : Nat
  seq : Nat
  fill : Nat
  reserved : Nat
  payload : List Byte
  ack : Nat
  creditVc : Nat
  credits : Nat
  deriving DecidableEq, Repr

/-- Errors a receiver counted on one lane in a 1-s interval (R305): symbol errors, symbols received, and
uncorrectable codewords attributed to the lane. -/
structure LaneErrors where
  symbolErrors : Nat
  symbols : Nat
  codewords : Nat
  deriving DecidableEq, Repr

/-- What the partner of a handshake sends (R309): its hello (nonce, last epoch, ephemeral ECDH public key `x ‖ y`, whether it
has encryption and requires it), its certificate chain, whether the chain verifies to an installation trust anchor, the unit
public key `x ‖ y` of its certificate, its signature, its port number, whether it is a switch, and its binding table of
(binding number, job tag). -/
structure LinkHello where
  nonce : List Byte
  epoch : Nat
  ecdh : List Byte
  hasCrypto : Bool
  cryptReq : Bool
  chain : List Byte
  chainOk : Bool
  unitKey : List Byte
  sig : List Byte
  port : Nat
  fabric : Bool
  table : List (Nat × Nat)
  deriving DecidableEq, Repr

/-- The partner's side of a handshake on a port (R310). -/
structure PortHello where
  port : Nat
  hello : LinkHello
  deriving DecidableEq, Repr

/-- The end of a port's width change (R301, R305): `kept` has a bit for each data lane that both sides keep. -/
structure WidthChange where
  port : Nat
  kept : Nat
  deriving DecidableEq, Repr

/-- The end of a die's training (R307, R379): `failed` has a bit for each of its ports whose loopback test failed. -/
structure DieTraining where
  die : Nat
  failed : Nat
  deriving DecidableEq, Repr

/-- The outcome of verifying a client certificate chain (R327): failed, or the role mask of the anchor that
verified it and the certificate's public key bytes. -/
inductive CertVerdict where
  | failed
  | verified (roles : BitVec 3) (pubkey : List Byte)
  deriving DecidableEq, Repr

/-- One sensor reading in 1/16 °C (R469): the sensor is a ped path of R22 (a grain, a ped-2 for its base-die
region, or 0x700 + s for stack s). -/
structure Reading where
  sensor : Nat
  temp : Int
  deriving DecidableEq, Repr

/-- What a scrub read of a page found (R237, R238, R240). -/
inductive Finding where
  | clean
  | corrected (addr : Nat)
  | uncorrectable (addr : Nat)
  deriving DecidableEq, Repr

/-- The measured values of a telemetry sample that no rule derives, and how many samples before it could not be taken
(R448, R466). -/
structure Telemetry where
  millivolts : List Nat
  amps : List Nat
  hottest : List Int
  stackTemps : List Int
  busy : List Nat
  skipped : Nat
  deriving DecidableEq, Repr

/-- The IEEE 1149.1 instructions of R477; `drive` is EXTEST or another instruction that drives a land. -/
inductive TapInstr where
  | bypass
  | idcode
  | samplePreload
  | drive (code : Nat)
  | debug (code : Nat)
  deriving DecidableEq, Repr

/-- The commands. -/
inductive Instr where
  /-- MM_FWD, R68. -/
  | mmFwd (r : InstrRef)
  /-- MM_BWD, R154. -/
  | mmBwd (r : InstrRef)
  /-- VEC_ELT, R274. -/
  | vecElt (r : InstrRef)
  /-- VEC_ROWRED, R274. -/
  | vecRowred (r : InstrRef)
  /-- ROWSTAT_FWD, R164. -/
  | rowstatFwd (r : InstrRef)
  /-- ROWSTAT_BWD, R164. -/
  | rowstatBwd (r : InstrRef)
  /-- DROPOUT, R208. -/
  | dropout (r : InstrRef)
  /-- INIT, R275. -/
  | initTensor (r : InstrRef)
  /-- SAMPLE, R287. -/
  | sample (r : InstrRef)
  /-- CLIP_SUM, R276. -/
  | clipSum (r : InstrRef)
  /-- CLIP_FINISH, R191. -/
  | clipFinish (r : InstrRef)
  /-- CONVERT, R57. -/
  | convert (r : InstrRef)
  /-- OPTIMISE, R188. -/
  | optimise (r : InstrRef)
  /-- COPY, R285. -/
  | copy (r : InstrRef)
  /-- COPY_COMPLETE, R285. -/
  | copyComplete (r : InstrRef)
  /-- PROMOTE, R231. -/
  | promote (r : InstrRef)
  /-- EVICT, R231. -/
  | evict (r : InstrRef)
  /-- SEAL, R229. -/
  | sealObject (r : InstrRef)
  /-- COMMONS_FILL_DONE, R231. -/
  | commonsFillDone (obj : Nat)
  /-- COMMONS_DRAIN_DONE, R231. -/
  | commonsDrainDone (obj : Nat)
  /-- COPY_PORT, R312. -/
  | copyPort (r : InstrRef)
  /-- PORT_COPY_COMPLETION, R312. -/
  | portCopyCompletion (r : InstrRef) (how : CopyEnd)
  /-- SYN_WAIT, R263. -/
  | synWait (r : InstrRef)
  /-- SYN_SIGNAL, R263. -/
  | synSignal (r : InstrRef)
  /-- ALL_REDUCE, R318. -/
  | allReduce (r : InstrRef)
  /-- REDUCE_SCATTER, R316. -/
  | reduceScatter (r : InstrRef)
  /-- ALL_GATHER, R320. -/
  | allGather (r : InstrRef)
  /-- RING_PASS, R320. -/
  | ringPass (r : InstrRef)
  /-- COLL_MESSAGE_RECEIVE, R317. -/
  | collMessageReceive (port bind : Nat) (m : CollMsg)
  /-- NOP, R272. -/
  | nop (r : InstrRef)
  /-- REG_WRITE, R278. -/
  | regWrite (r : InstrRef)
  /-- GRN_FPCSR_WRITE, R66. -/
  | grnFpcsrWrite (r : InstrRef)
  /-- PWR_HINT_WRITE, R478. -/
  | pwrHintWrite (r : InstrRef)
  /-- LGL_BOOT_LOCK_CLOSE, R408. -/
  | lglBootLockClose
  /-- SIEVE_COMMIT, R128. -/
  | sieveCommit (r : InstrRef)
  /-- STEP_END, R267. -/
  | stepEnd (r : InstrRef)
  /-- LOOP_END, R286. -/
  | loopEnd (r : InstrRef)
  /-- INSTRUCTION_ACCEPT, R155; `sameCycle` tells whether the accept falls in the cycle of the accept before it. -/
  | instructionAccept (grain : Nat) (r : InstrRef) (sameCycle : Bool)
  /-- ITEM_ENTER_WINDOW, R156. -/
  | itemEnterWindow (grain : Nat) (backward : Bool)
  /-- ITEM_ISSUE, R158. -/
  | itemIssue (grain array : Nat)
  /-- ITEM_COMPLETE, R161. -/
  | itemComplete (grain array : Nat)
  /-- LANE_ISSUE, R266. -/
  | laneIssue (r : InstrRef)
  /-- INSTRUCTION_COMPLETE, R259. -/
  | instructionComplete (r : InstrRef)
  /-- ITEM_RETRY, R366. -/
  | itemRetry (e : Engine) (r : InstrRef)
  /-- WAIT_TIMEOUT, R264. -/
  | waitTimeout (r : InstrRef)
  /-- ENGINE_HANG, R370. -/
  | engineHang (e : Engine)
  /-- COLL_TIMEOUT, R321. -/
  | collTimeout (r : InstrRef)
  /-- UPDATE_STALL, R181. -/
  | updateStall (r : InstrRef)
  /-- SNAPSHOT_FIRST_WRITE, R244. -/
  | snapshotFirstWrite (ctx page : Nat)
  /-- SNAPSHOT_DRAIN_PAGE, R244. -/
  | snapshotDrainPage (ctx : Nat)
  /-- HELLO, R341. -/
  | hello (sl : Slot)
  /-- ATTEST, R342. -/
  | attest (sl : Slot)
  /-- ADMIT, R343. -/
  | admitCtx (sl : Slot)
  /-- RESERVE, R345. -/
  | reserve (sl : Slot)
  /-- RELEASE, R346. -/
  | release (sl : Slot)
  /-- ATTACH_COMMONS, R347. -/
  | attachCommons (sl : Slot)
  /-- ATTACH_COMMONS_GRANT, R347. -/
  | attachCommonsGrant (sl : Slot)
  /-- DETACH_COMMONS, R348. -/
  | detachCommons (sl : Slot)
  /-- DETACH_COMMONS_REVOKE, R348. -/
  | detachCommonsRevoke (sl : Slot)
  /-- LOAD_PLAN, R253. -/
  | loadPlan (sl : Slot)
  /-- BIND_DATA_OPEN_IN, R350. -/
  | bindDataOpenIn (sl : Slot)
  /-- BIND_DATA_OPEN_OUT, R350. -/
  | bindDataOpenOut (sl : Slot)
  /-- BIND_DATA_CLOSE, R350. -/
  | bindDataClose (sl : Slot)
  /-- BULK_FRAME, R350. -/
  | bulkFrame (conn : Nat) (head : FrameHead) (bulk : BulkHead) (data : List Byte)
  /-- RUN_STEP, R351. -/
  | runStep (sl : Slot)
  /-- HOLD, R352. -/
  | hold (sl : Slot)
  /-- HOLD_COMPLETE, R352. -/
  | holdComplete (ctx : Nat)
  /-- RESUME, R353. -/
  | resume (sl : Slot)
  /-- SNAPSHOT, R354. -/
  | snapshot (sl : Slot)
  /-- RESTORE, R356. -/
  | restore (sl : Slot)
  /-- EXPORT_SNAPSHOT, R357. -/
  | exportSnapshot (sl : Slot)
  /-- QUERY_STATS, R358. -/
  | queryStats (sl : Slot)
  /-- QUERY_CAPS, R359. -/
  | queryCaps (sl : Slot)
  /-- FW_OFFER, R414. -/
  | fwOffer (sl : Slot)
  /-- FW_CHUNK, R415. -/
  | fwChunk (sl : Slot)
  /-- FW_APPLY_DONE, R416. -/
  | fwApplyDone
  /-- FW_ACTIVATE, R417. -/
  | fwActivate (sl : Slot)
  /-- FW_CONFIRM, R420. -/
  | fwConfirm (sl : Slot)
  /-- LOG_READ_RECORDS, R445. -/
  | logReadRecords (sl : Slot)
  /-- LOG_READ_CONFIG, R444. -/
  | logReadConfig (sl : Slot)
  /-- LOG_WRITE_CONFIG, R446. -/
  | logWriteConfig (sl : Slot)
  /-- LOG_READ_SET, R444. -/
  | logReadSet (sl : Slot)
  /-- LOG_WRITE_SET, R437. -/
  | logWriteSet (sl : Slot)
  /-- DUMP_READ, R447. -/
  | dumpRead (sl : Slot)
  /-- RESET_REQ, R360. -/
  | resetReq (sl : Slot)
  /-- POWER_POLICY, R459. -/
  | powerPolicy (sl : Slot)
  /-- CLIENT_CONNECT, R327. -/
  | clientConnect (conn front : Nat) (cert : CertVerdict)
  /-- SESSION_END, R330. -/
  | sessionEnd (conn : Nat)
  /-- EVENT_SLOT_RELEASE, R333. -/
  | eventSlotRelease (conn : Nat) (head : FrameHead) (slot : SlotRelease)
  /-- EVENT_DELIVER, R336. -/
  | eventDeliver (session : Nat)
  /-- FLIT_SEND, R298. -/
  | flitSend (port : Nat)
  /-- FLIT_RECEIVE, R299. -/
  | flitReceive (port : Nat) (bytes : List Byte) (clean : Bool)
  /-- RETRY_REQUEST, R299. -/
  | retryRequest (port seq : Nat)
  /-- ACK_TIMEOUT, R299. -/
  | ackTimeout (port : Nat)
  /-- LINK_DOWN, R302. -/
  | linkDown (port : Nat)
  /-- LANE_LOCK_LOSS, R302. -/
  | laneLockLoss (port lanes : Nat)
  /-- PEER_SLOW, R304. -/
  | peerSlow (port vc : Nat)
  /-- LANE_ERROR_INTERVAL, R305. -/
  | laneErrorInterval (port : Nat) (errs : List LaneErrors)
  /-- LANE_WIDTH_CHANGE_DONE, R301. -/
  | laneWidthChangeDone (w : WidthChange)
  /-- PROBE_BURST, R300. -/
  | probeBurst (port : Nat)
  /-- PORT_BURST_HEARD, R301. -/
  | portBurstHeard (port : Nat)
  /-- PORT_TRAIN_DONE, R307. -/
  | portTrainDone (port : Nat) (selfTest : Bool) (lanes : Nat)
  /-- PORT_AUTH_DONE, R309. -/
  | portAuthDone (port : Nat) (h : LinkHello)
  /-- PEER_AUTH_TIMEOUT, R310. -/
  | peerAuthTimeout (port : Nat)
  /-- QUARANTINE_EXPIRY, R306. -/
  | quarantineExpiry (port : Nat)
  /-- LINK_KEY_UPDATE, R310. -/
  | linkKeyUpdate (h : PortHello)
  /-- BINDING_TABLE_EXCHANGE, R311. -/
  | bindingTableExchange (port : Nat) (table : List (Nat × Nat))
  /-- CONTEXT_RESET, R377. -/
  | contextReset (ctx cause : Nat)
  /-- CONTEXT_RESET_STOP_DONE, R377. -/
  | contextResetStopDone (ctx : Nat)
  /-- CONTEXT_RESET_RESTORE_DONE, R377. -/
  | contextResetRestoreDone (ctx : Nat)
  /-- ENGINE_RESET, R378. -/
  | engineReset (e : Engine) (cause : Nat)
  /-- ENGINE_RESET_DONE, R378. -/
  | engineResetDone (e : Engine)
  /-- PARTITION_RESET, R379. -/
  | partitionReset (die cause : Nat)
  /-- PARTITION_STOP_DONE, R379. -/
  | partitionStopDone (die : Nat)
  /-- PARTITION_DUMP_DONE, R379. -/
  | partitionDumpDone (die : Nat)
  /-- PARTITION_RETIRE_DONE, R379. -/
  | partitionRetireDone (die : Nat)
  /-- PARTITION_TRAIN_DONE, R379. -/
  | partitionTrainDone (t : DieTraining)
  /-- PARTITION_ZERO_DONE, R379. -/
  | partitionZeroDone (die : Nat)
  /-- CHIP_RESET, R380. -/
  | chipReset (cause : Nat)
  /-- RESET_ESCALATED, R382. -/
  | resetEscalated (level part : Nat)
  /-- POWER_CYCLE_REQUEST, R381. -/
  | powerCycleRequest
  /-- CONTROLLER_HEARTBEAT_EXPIRY, R369. -/
  | controllerHeartbeatExpiry (path : Nat)
  /-- MANAGEMENT_HEARTBEAT_EXPIRY, R369. -/
  | managementHeartbeatExpiry
  /-- READY_WATCHDOG_EXPIRY, R403. -/
  | readyWatchdogExpiry
  /-- ROM_START_DONE, R403. -/
  | romStartDone
  /-- IDENTITY_DONE, R400. -/
  | identityDone (powerUps : List (List Byte))
  /-- RECORDS_DONE, R396. -/
  | recordsDone
  /-- BANK_LOAD_DONE, R405. -/
  | bankLoadDone
  /-- HANDOVER_DONE, R408. -/
  | handoverDone
  /-- FIRMWARE_READY, R403. -/
  | firmwareReady
  /-- DUMP_FLASH_COPY_DONE, R443. -/
  | dumpFlashCopyDone
  /-- PKG_RESET_ASSERT, R456. -/
  | pkgResetAssert (ns : Nat)
  /-- PKG_RESET_RELEASE, R456. -/
  | pkgResetRelease (ns : Nat)
  /-- PWR_GOOD_RISE, R454. -/
  | pwrGoodRise
  /-- PWR_GOOD_FALL, R455. -/
  | pwrGoodFall
  /-- POWER_DOWN_STOP_DONE, R455. -/
  | powerDownStopDone
  /-- POWER_BRAKE_APPLY, R461. -/
  | powerBrakeApply (ns : Nat)
  /-- POWER_BRAKE_RELEASE, R461. -/
  | powerBrakeRelease (ns : Nat)
  /-- REFCLK_LOST, R458. -/
  | refclkLost (clock : Nat)
  /-- REFCLK_RETURN, R458. -/
  | refclkReturn (clock : Nat)
  /-- ISLAND_CLOCK_TRIM, R457. -/
  | islandClockTrim (path : Nat)
  /-- THERMAL_SAMPLE, R469. -/
  | thermalSample (readings : List Reading)
  /-- THERMAL_CAP_STEP, R470. -/
  | thermalCapStep (die : Nat)
  /-- POWER_LIMIT_LOOP, R460. -/
  | powerLimitLoop (milliwatts : Nat)
  /-- POWER_STATE_ENTER, R463. -/
  | powerStateEnter (path : Nat)
  /-- POWER_WAKE, R463. -/
  | powerWake (path : Nat)
  /-- POWER_ENABLE, R464. -/
  | powerEnable (path : Nat)
  /-- PORT_POWER_OFF, R465. -/
  | portPowerOff (port : Nat)
  /-- PATROL_SCRUB, R238. -/
  | patrolScrub (page : Nat) (finding : Finding)
  /-- TOPSOIL_SCRUB, R238. -/
  | topsoilScrub (page : Nat) (finding : Finding)
  /-- EQUALISER_RECALIBRATION, R467. -/
  | equaliserRecalibration (port lane : Nat)
  /-- SUBSOIL_RETRAINING, R466. -/
  | subsoilRetraining (stack channel : Nat)
  /-- PAGE_ZERO_DONE, R239. -/
  | pageZeroDone (page : Nat)
  /-- FLASH_WEAR_LEVELLING, R466. -/
  | flashWearLevelling (block : Nat)
  /-- BG_DEADLINE_FORCED, R466. -/
  | bgDeadlineForced (task : Nat)
  /-- TELEMETRY_SAMPLE, R448. -/
  | telemetrySample (t : Telemetry)
  /-- SED_EVENT_POST, R428. -/
  | sedEventPost (src : Nat)
  /-- SED_RECORD_WRITE, R428. -/
  | sedRecordWrite
  /-- SED_RECORD_CLOSE, R431. -/
  | sedRecordClose
  /-- SED_TOKEN_REFILL, R432. -/
  | sedTokenRefill (code : Nat)
  /-- SED_FLUSH, R439. -/
  | sedFlush
  /-- COMMAND_SLOT_RELEASE, R332. -/
  | commandSlotRelease (conn : Nat) (head : FrameHead) (slot : SlotRelease)
  /-- POWER_STATE_REACHED, R464. -/
  | powerStateReached (path : Nat)
  /-- POWER_WAKE_DONE, R464. -/
  | powerWakeDone (path : Nat)
  /-- PORT_OFF_RETURN_DONE, R465. -/
  | portOffReturnDone (port : Nat)
  /-- EXPORT_END, R357. -/
  | exportEnd (ctx : Nat)
  /-- CONTROL_STATE_UE, R373. -/
  | controlStateUe (path : Nat)
  /-- TAP_INSTRUCTION, R477. -/
  | tapInstruction (i : TapInstr)
  /-- TAP_RESET, R477. -/
  | tapReset
  deriving DecidableEq, Repr

end Sys2Proof
end

