-- ==== Sys2Proof/Config.lean ====
section
/-! DEFINITION. What one package fixes and the spec does not give, and the free values: constants without a body, so
that no proof can see a value of them. -/

namespace Sys2Proof.Config

/-- A byte of data the spec calls undefined (R98, R285, R350), by the free counter of the state and the byte's
place in the range (log entry 5). -/
opaque freeByte : Nat → Nat → Byte

/-- A number the spec leaves open, by the free counter of the state (log entry 5). -/
opaque freeNat : Nat → Nat

/-- A verdict the spec leaves open, such as whether a pulse between 490 ns and 510 ns resets (log entry 5). -/
opaque freeBool : Nat → Bool

/-- The root secret U of the package's silicon, 48 bytes by index (R398, log entry 6). -/
opaque rootSecret : Nat → Byte

/-- The root secret that the PUF's power-up contents give with the helper data of a body of record kind 0x0013 (R398,
log entry 6). -/
opaque reconstruct : List Byte → List Byte → List Byte

/-- The public key in the unit certificate of a body of record kind 0x0013, 97 bytes uncompressed (R400, log entry 6). -/
opaque certKey : List Byte → List Byte

/-- The body of the record of kind 0x0013 that a package is shipped with (R396, log entry 7). -/
opaque unitRecordBody : List Byte

/-- The signature of the record of kind 0x0013 that a package is shipped with (R396, log entry 7). -/
opaque unitRecordSig : List Byte

/-- Tuinel's public keys, with which records of a Tuinel signer verify, by key index and byte (R396, log entry 147). -/
opaque tuinelKey : Nat → Nat → Byte

/-- The unit certificate chain, DER (R396, R411, log entry 6). -/
opaque unitChain : List Byte

/-- The ROM digest of the stepping (R411), 48 bytes by index (log entry 6). -/
opaque romDigest : Nat → Byte

/-- The SHA-384 digests of Tuinel's four keys that the ROM holds (R401), by key index and byte (log
entry 6). -/
opaque romKeyDigest : Nat → Nat → Byte

/-- The bytes of the image a package is shipped with (log entry 7). -/
opaque factoryImage : Nat → Byte

/-- The length of the image a package is shipped with (log entry 7). -/
opaque factoryLength : Nat

/-- The core voltage in mV that the firmware's table gives for a clock in steps of 15.625 MHz (R452, log entry
97). -/
opaque voltageTable : Nat → Nat

/-- The row of a subsoil address and the bank of a row: the spec gives no row or bank geometry (log entry 8). -/
opaque rowOf : Nat → Nat

/-- The bank that holds a row (log entry 8). -/
opaque bankOf : Nat → Nat

/-- The spare rows of the SRAM that holds a topsoil page: the spec gives no number (R241, log entry 8). -/
opaque topSpareLeft : Nat → Bool

/-- The info string of HKDF for a link key, by whether the side of the lower unit identity sends with it (R309, log
entry 9). -/
opaque linkInfo : Bool → List Byte

/-- The lines the ROM's and the firmware's crash dumps hold (R442): a byte of a dump by free counter and
place (log entry 105). -/
opaque dumpByte : Nat → Nat → Byte

/-- What a conversion unit writes for a block whose record hands it a negative finite BF16 scale: R47 says that it
never writes one and gives no other (log entry 129). -/
opaque scaleFor : Nat → Nat

/-- What a conversion unit writes for the zero point of an INT4 block whose record hands it one above 15: R47 says
that it writes 0 to 15 only and gives no other (log entry 129). -/
opaque zeroFor : Nat → Nat

/-- The token of a row of logits whose weights hold a NaN, by the argument block and the logits (log entry 21). -/
opaque sampleToken : List Nat → Nat

/-- The token that a sequence ended before its first row writes again, by the stop tokens (log entry 21). -/
opaque endedToken : List Nat → Nat

/-- Whether a grain's key store shows an uncorrectable error to the draws of an instruction, by the free counter (R202,
log entry 130). -/
opaque keyStoreUe : Nat → Bool

/-- The conversion unit of a grain that takes a share of a conversion, by the instruction's index and the unit of
division (R100, R266: the first free one; log entry 131). -/
opaque conversionUnit : Nat → Nat → Bool

end Sys2Proof.Config
end

