-- ==== Sys2Proof/Machine/Bits.lean ====
section
/-! DEFINITION. Bit fields, byte order and the CRC-32C check, on the machine's words and byte lists. -/

namespace Sys2Proof.Machine

/-- Bits [hi:lo] of `n` (R12: bit 0 is the least significant). -/
def bitsOf (n hi lo : Nat) : Nat := (n >>> lo) % 2 ^ (hi + 1 - lo)

/-- Bit `i` of `n`. -/
def bitOf (n i : Nat) : Bool := n.testBit i

/-- A field value placed at bit `lo`. -/
def placed (v lo : Nat) : Nat := v <<< lo

/-- One flag as a number. -/
def flag (b : Bool) : Nat := if b then 1 else 0

/-- The bytes of a little-endian number, `n` of them. -/
def leBytes : Nat → Nat → List Byte
  | 0, _ => []
  | n + 1, v => BitVec.ofNat 8 v :: leBytes n (v / 256)

/-- The number a little-endian byte list spells (R41). -/
def leNat : List Byte → Nat
  | [] => 0
  | b :: bs => b.toNat + 256 * leNat bs

/-- The number a big-endian byte list spells (r, s and public keys of R395, R401). -/
def beNat (bs : List Byte) : Nat := leNat bs.reverse

/-- The bytes of a big-endian number, `n` of them. -/
def beBytes (n v : Nat) : List Byte := (leBytes n v).reverse

/-- `len` bytes from offset `off` of a byte list; bytes beyond its end read as 0. -/
def sliceBytes (bs : List Byte) (off len : Nat) : List Byte :=
  (List.range len).map fun i => bs.getD (off + i) 0

/-- The little-endian field of `len` bytes at `off`. -/
def leAt (bs : List Byte) (off len : Nat) : Nat := leNat (sliceBytes bs off len)

/-- Division rounded up. -/
def ceilDiv (a b : Nat) : Nat := (a + b - 1) / b

/-- Addition that stops at `limit` and does not wrap (counts of R124, R162 and others). -/
def satAdd (limit a b : Nat) : Nat := min limit (a + b)

/-- One bit of the reflected CRC-32C (Castagnoli) shift register. -/
def crcShift (c : Nat) : Nat := if c % 2 = 1 then (c / 2) ^^^ 0x82F63B78 else c / 2

/-- One byte through the CRC-32C register. -/
def crcByte (c : Nat) (b : Byte) : Nat :=
  crcShift (crcShift (crcShift (crcShift (crcShift (crcShift (crcShift (crcShift
    (c ^^^ b.toNat))))))))

/-- CRC-32C of a byte list (R250, R296, R350, R425). The polynomial and the reflection are the
standard's, from outside the spec (PRESUMED, log entry 3). -/
def crc32c (bs : List Byte) : Nat := (bs.foldl crcByte 0xFFFFFFFF) ^^^ 0xFFFFFFFF

/-- Sets position `i` of a list, growing it with `d` where it is too short. -/
def setAt {α : Type} (d : α) : List α → Nat → α → List α
  | [], 0, v => [v]
  | [], i + 1, v => d :: setAt d [] i v
  | _ :: xs, 0, v => v :: xs
  | x :: xs, i + 1, v => x :: setAt d xs i v

/-- The lowest number below `n` that satisfies `p`. -/
def lowestBelow (n : Nat) (p : Nat → Bool) : Option Nat := (List.range n).find? p

end Sys2Proof.Machine
end

