-- ==== Sys2Proof/Machine/Crypto.lean ====
section
/-! DEFINITION. The standard cryptographic functions the spec names: SHA-384 (R200, R327, R399, R401),
HMAC and HKDF with it (R309, R399), the ChaCha8 block function (R198), ECDSA and ECDH over P-384 (R309, R395, R401)
and AES-256-GCM (R310).
The standards' own constants and rounds come from outside the spec: PRESUMED, log entry 3. -/

namespace Sys2Proof.Machine

/-- Round constants 0 to 19 of SHA-384. -/
def shaK0 : List (BitVec 64) :=
  [0x428A2F98D728AE22, 0x7137449123EF65CD, 0xB5C0FBCFEC4D3B2F, 0xE9B5DBA58189DBBC,
   0x3956C25BF348B538, 0x59F111F1B605D019, 0x923F82A4AF194F9B, 0xAB1C5ED5DA6D8118,
   0xD807AA98A3030242, 0x12835B0145706FBE, 0x243185BE4EE4B28C, 0x550C7DC3D5FFB4E2,
   0x72BE5D74F27B896F, 0x80DEB1FE3B1696B1, 0x9BDC06A725C71235, 0xC19BF174CF692694,
   0xE49B69C19EF14AD2, 0xEFBE4786384F25E3, 0x0FC19DC68B8CD5B5, 0x240CA1CC77AC9C65]

/-- Round constants 20 to 39 of SHA-384. -/
def shaK1 : List (BitVec 64) :=
  [0x2DE92C6F592B0275, 0x4A7484AA6EA6E483, 0x5CB0A9DCBD41FBD4, 0x76F988DA831153B5,
   0x983E5152EE66DFAB, 0xA831C66D2DB43210, 0xB00327C898FB213F, 0xBF597FC7BEEF0EE4,
   0xC6E00BF33DA88FC2, 0xD5A79147930AA725, 0x06CA6351E003826F, 0x142929670A0E6E70,
   0x27B70A8546D22FFC, 0x2E1B21385C26C926, 0x4D2C6DFC5AC42AED, 0x53380D139D95B3DF,
   0x650A73548BAF63DE, 0x766A0ABB3C77B2A8, 0x81C2C92E47EDAEE6, 0x92722C851482353B]

/-- Round constants 40 to 59 of SHA-384. -/
def shaK2 : List (BitVec 64) :=
  [0xA2BFE8A14CF10364, 0xA81A664BBC423001, 0xC24B8B70D0F89791, 0xC76C51A30654BE30,
   0xD192E819D6EF5218, 0xD69906245565A910, 0xF40E35855771202A, 0x106AA07032BBD1B8,
   0x19A4C116B8D2D0C8, 0x1E376C085141AB53, 0x2748774CDF8EEB99, 0x34B0BCB5E19B48A8,
   0x391C0CB3C5C95A63, 0x4ED8AA4AE3418ACB, 0x5B9CCA4F7763E373, 0x682E6FF3D6B2B8A3,
   0x748F82EE5DEFB2FC, 0x78A5636F43172F60, 0x84C87814A1F0AB72, 0x8CC702081A6439EC]

/-- Round constants 60 to 79 of SHA-384. -/
def shaK3 : List (BitVec 64) :=
  [0x90BEFFFA23631E28, 0xA4506CEBDE82BDE9, 0xBEF9A3F7B2C67915, 0xC67178F2E372532B,
   0xCA273ECEEA26619C, 0xD186B8C721C0C207, 0xEADA7DD6CDE0EB1E, 0xF57D4F7FEE6ED178,
   0x06F067AA72176FBA, 0x0A637DC5A2C898A6, 0x113F9804BEF90DAE, 0x1B710B35131C471B,
   0x28DB77F523047D84, 0x32CAAB7B40C72493, 0x3C9EBE0A15C9BEBC, 0x431D67C49C100D4C,
   0x4CC5D4BECB3E42B6, 0x597F299CFC657E2A, 0x5FCB6FAB3AD6FAEC, 0x6C44198C4A475817]

/-- The 80 round constants of SHA-384. -/
def shaK : List (BitVec 64) := shaK0 ++ shaK1 ++ shaK2 ++ shaK3

/-- The initial hash value of SHA-384. -/
def shaInit : List (BitVec 64) :=
  [0xCBBB9D5DC1059ED8, 0x629A292A367CD507, 0x9159015A3070DD17, 0x152FECD8F70E5939,
   0x67332667FFC00B31, 0x8EB44A8768581511, 0xDB0C2E0D64F98FA7, 0x47B5481DBEFA4FA4]

/-- The eight working variables of a SHA-384 compression. -/
structure ShaVars where
  a : BitVec 64
  b : BitVec 64
  c : BitVec 64
  d : BitVec 64
  e : BitVec 64
  f : BitVec 64
  g : BitVec 64
  h : BitVec 64
  deriving DecidableEq, Repr

/-- One round with round constant plus schedule word `kw`. -/
def shaRound (v : ShaVars) (kw : BitVec 64) : ShaVars :=
  let s1 := (v.e.rotateRight 14) ^^^ (v.e.rotateRight 18) ^^^ (v.e.rotateRight 41)
  let ch := (v.e &&& v.f) ^^^ (~~~v.e &&& v.g)
  let t1 := v.h + s1 + ch + kw
  let s0 := (v.a.rotateRight 28) ^^^ (v.a.rotateRight 34) ^^^ (v.a.rotateRight 39)
  let maj := (v.a &&& v.b) ^^^ (v.a &&& v.c) ^^^ (v.b &&& v.c)
  { a := t1 + s0 + maj, b := v.a, c := v.b, d := v.c, e := v.d + t1, f := v.e, g := v.f, h := v.g }

/-- The message schedule, newest word first: `n` more words after those in `ws`. -/
def shaExtend : Nat → List (BitVec 64) → List (BitVec 64)
  | 0, ws => ws
  | n + 1, ws =>
    let w15 := ws.getD 14 0
    let w2 := ws.getD 1 0
    let s0 := (w15.rotateRight 1) ^^^ (w15.rotateRight 8) ^^^ (w15 >>> 7)
    let s1 := (w2.rotateRight 19) ^^^ (w2.rotateRight 61) ^^^ (w2 >>> 6)
    shaExtend n ((ws.getD 15 0 + s0 + ws.getD 6 0 + s1) :: ws)

/-- The 16 big-endian words of a 128-byte block. -/
def shaWords (block : List Byte) : List (BitVec 64) :=
  (List.range 16).map fun i => BitVec.ofNat 64 (beNat (sliceBytes block (8 * i) 8))

/-- One SHA-384 compression of a block into the hash value `hs`. -/
def shaCompress (hs : List (BitVec 64)) (block : List Byte) : List (BitVec 64) :=
  let ws := (shaExtend 64 (shaWords block).reverse).reverse
  let g := fun i => hs.getD i 0
  let v0 : ShaVars :=
    { a := g 0, b := g 1, c := g 2, d := g 3, e := g 4, f := g 5, g := g 6, h := g 7 }
  let v := ((shaK.zip ws).map fun p => p.1 + p.2).foldl shaRound v0
  [g 0 + v.a, g 1 + v.b, g 2 + v.c, g 3 + v.d, g 4 + v.e, g 5 + v.f, g 6 + v.g, g 7 + v.h]

/-- The padded message: 0x80, zeros, and the bit length in 16 bytes. -/
def shaPad (m : List Byte) : List Byte :=
  let n := m.length
  let z := (128 - (n + 17) % 128) % 128
  m ++ [0x80] ++ List.replicate z 0 ++ beBytes 16 (8 * n)

/-- The first `n` blocks of 128 bytes through the compression. -/
def shaBlocks : Nat → List Byte → List (BitVec 64) → List (BitVec 64)
  | 0, _, hs => hs
  | n + 1, bs, hs => shaBlocks n (bs.drop 128) (shaCompress hs (bs.take 128))

/-- SHA-384, as 48 bytes. -/
def sha384 (m : List Byte) : List Byte :=
  let p := shaPad m
  ((shaBlocks (p.length / 128) p shaInit).take 6).flatMap fun w => beBytes 8 w.toNat

/-- The first 128 bits of SHA-384, the digest form of R200, R309, R327 and R399, as a big-endian number. -/
def sha384Digest128 (m : List Byte) : BitVec 128 := BitVec.ofNat 128 (beNat ((sha384 m).take 16))

/-- HMAC with SHA-384. -/
def hmac384 (key m : List Byte) : List Byte :=
  let k0 := if key.length > 128 then sha384 key else key
  let k := k0 ++ List.replicate (128 - k0.length) 0
  let pad := fun (x : Byte) => k.map fun b => b ^^^ x
  sha384 (pad 0x5C ++ sha384 (pad 0x36 ++ m))

/-- The expand blocks of HKDF: `n` blocks from counter `i`, after block `t`. -/
def hkdfExpand (prk info : List Byte) : Nat → Nat → List Byte → List Byte
  | 0, _, _ => []
  | n + 1, i, t =>
    let t' := hmac384 prk (t ++ info ++ [BitVec.ofNat 8 i])
    t' ++ hkdfExpand prk info n (i + 1) t'

/-- One ChaCha quarter round on positions `a b c d` of the 16-word state. -/
def chachaQuarter (s : List Word) (ia ib ic id : Nat) : List Word :=
  let a := s.getD ia 0
  let b := s.getD ib 0
  let c := s.getD ic 0
  let d := s.getD id 0
  let a := a + b
  let d := (d ^^^ a).rotateLeft 16
  let c := c + d
  let b := (b ^^^ c).rotateLeft 12
  let a := a + b
  let d := (d ^^^ a).rotateLeft 8
  let c := c + d
  let b := (b ^^^ c).rotateLeft 7
  (((s.set ia a).set ib b).set ic c).set id d

/-- One double round: a column round followed by a diagonal round (R198). -/
def chachaDouble (s : List Word) : List Word :=
  let s := chachaQuarter s 0 4 8 12
  let s := chachaQuarter s 1 5 9 13
  let s := chachaQuarter s 2 6 10 14
  let s := chachaQuarter s 3 7 11 15
  let s := chachaQuarter s 0 5 10 15
  let s := chachaQuarter s 1 6 11 12
  let s := chachaQuarter s 2 7 8 13
  chachaQuarter s 3 4 9 14

/-- The input state of R198: the constants, the purpose key read little-endian, the 128-bit counter. -/
def chachaInput (key : List Byte) (counter : Nat) : List Word :=
  ([0x61707865, 0x3320646E, 0x79622D32, 0x6B206574] : List Word) ++
  ((List.range 8).map fun j => (BitVec.ofNat 32 (leAt key (4 * j) 4) : Word)) ++
  ((List.range 4).map fun j => (BitVec.ofNat 32 (counter >>> (32 * j)) : Word))

/-- The ChaCha8 block function of R198: 4 double rounds, then the input state added word by word. -/
def chacha8 (key : List Byte) (counter : Nat) : List Word :=
  let s := chachaInput key counter
  (s.zip (chachaDouble (chachaDouble (chachaDouble (chachaDouble s))))).map fun p => p.1 + p.2

/-- The prime of the P-384 field. -/
def p384P : Nat := 2 ^ 384 - 2 ^ 128 - 2 ^ 96 + 2 ^ 32 - 1

/-- The P-384 group order n (R399). -/
def p384N : Nat :=
  0xFFFFFFFFFFFFFFFFFFFFFFFFFFFFFFFFFFFFFFFFFFFFFFFFC7634D81F4372DDF581A0DB248B0A77AECEC196ACCC52973

/-- The P-384 curve coefficient b. -/
def p384B : Nat :=
  0xB3312FA7E23EE7E4988E056BE3F82D19181D9C6EFE8141120314088F5013875AC656398D8A2ED19D2A85C8EDD3EC2AEF

/-- The P-384 base point. -/
def p384G : Nat × Nat :=
  (0xAA87CA22BE8B05378EB1C71EF320AD746E1D3B628BA79B9859F741E082542A385502F25DBF55296C3A545E3872760AB7,
   0x3617DE4A96262C6F5D9E98BF9292DC29F8F41DBD289A147CE9DA3113B5F0B8C00A60B1CE1D7E819D7A431D7C90EA0E5F)

/-- Power modulo `m` by squaring, over `k` bits of the exponent. -/
def powMod (m : Nat) : Nat → Nat → Nat → Nat
  | 0, _, _ => 1 % m
  | k + 1, b, e =>
    let h := powMod m k (b * b % m) (e / 2)
    if e % 2 = 1 then b * h % m else h

/-- The inverse modulo a prime of at most 384 bits. -/
def invMod (m a : Nat) : Nat := powMod m 384 (a % m) (m - 2)

/-- Addition on P-384; `none` is the point at infinity. -/
def p384Add : Option (Nat × Nat) → Option (Nat × Nat) → Option (Nat × Nat)
  | none, q => q
  | p, none => p
  | some (x1, y1), some (x2, y2) =>
    let p := p384P
    if x1 = x2 && (y1 + y2) % p = 0 then none else
    let l := if x1 = x2 && y1 = y2 then (3 * x1 * x1 + (p - 3)) * invMod p (2 * y1) % p
             else (y2 + (p - y1)) * invMod p (x2 + (p - x1)) % p
    let x3 := (l * l + (p - x1) + (p - x2)) % p
    some (x3, (l * (x1 + (p - x3)) + (p - y1)) % p)

/-- Scalar multiplication over `k` bits of the scalar. -/
def p384Mul : Nat → Nat → Option (Nat × Nat) → Option (Nat × Nat)
  | 0, _, _ => none
  | k + 1, e, q =>
    let h := p384Mul k (e / 2) (p384Add q q)
    if e % 2 = 1 then p384Add q h else h

/-- Verification of an ECDSA P-384 signature `r ‖ s` over the SHA-384 digest `h` with public key
`x ‖ y`, all big-endian (R395, R401). -/
def ecdsaVerify (pubkey h sig : List Byte) : Bool :=
  let x := beNat (sliceBytes pubkey 0 48)
  let y := beNat (sliceBytes pubkey 48 48)
  let r := beNat (sliceBytes sig 0 48)
  let s := beNat (sliceBytes sig 48 48)
  let onCurve := x < p384P && y < p384P &&
    (y * y) % p384P = (x * x * x + (p384P - 3) * x + p384B) % p384P
  if !onCurve || r = 0 || r ≥ p384N || s = 0 || s ≥ p384N then false else
  let w := invMod p384N s
  let u1 := beNat h * w % p384N
  let u2 := r * w % p384N
  match p384Add (p384Mul 384 u1 (some p384G)) (p384Mul 384 u2 (some (x, y))) with
  | none => false
  | some (px, _) => px % p384N == r

/-- HKDF with SHA-384 (R309, R399): `n` bytes for a salt, an input key and an info string. -/
def hkdf384 (salt ikm info : List Byte) (n : Nat) : List Byte :=
  (hkdfExpand (hmac384 salt ikm) info (ceilDiv n 48) 1 []).take n

/-- The bytes of an ASCII string. -/
def asciiBytes (t : String) : List Byte := t.toList.map fun c => BitVec.ofNat 8 c.toNat

/-- A P-384 public key as x then y, 48 bytes each, big-endian (R401); zeros for the point at infinity. -/
def p384Point (q : Option (Nat × Nat)) : List Byte := beBytes 48 (q.getD (0, 0)).1 ++ beBytes 48 (q.getD (0, 0)).2

/-- The public key of a P-384 private key. -/
def p384Public (d : Nat) : Option (Nat × Nat) := p384Mul 384 d (some p384G)

/-- The ECDH P-384 shared secret of a private key and a partner's public key `x ‖ y` (R309): the x coordinate. -/
def ecdhSecret (d : Nat) (pub : List Byte) : List Byte :=
  (p384Point (p384Mul 384 d (some (beNat (sliceBytes pub 0 48), beNat (sliceBytes pub 48 48))))).take 48

/-- An ECDSA P-384 signature `r ‖ s`, big-endian, over the SHA-384 digest `h` with private key `d` and nonce `k`
(R309, R395, R411). -/
def ecdsaSign (d : Nat) (h : List Byte) (k : Nat) : List Byte :=
  let r := ((p384Public k).getD (0, 0)).1 % p384N
  beBytes 48 r ++ beBytes 48 (invMod p384N k * (beNat h + r * d) % p384N)

/-! ## AES-256-GCM (R310) -/

/-- Multiplication by x in the field of AES. -/
def aesX (a : Byte) : Byte := if a.msb then (a <<< 1) ^^^ 0x1B else a <<< 1

/-- Multiplication in the field of AES, over the `k` low bits of the second factor. -/
def aesMul : Nat → Byte → Byte → Byte
  | 0, _, _ => 0
  | k + 1, a, b => (if b.getLsbD 0 then a else 0) ^^^ aesMul k (aesX a) (b >>> 1)

/-- The power of a field element; the inverse is the power 254. -/
def aesPow (a : Byte) : Nat → Byte
  | 0 => 1
  | n + 1 => aesMul 8 a (aesPow a n)

/-- The S-box of AES. -/
def aesSbox (a : Byte) : Byte :=
  let b := aesPow a 254
  b ^^^ b.rotateLeft 1 ^^^ b.rotateLeft 2 ^^^ b.rotateLeft 3 ^^^ b.rotateLeft 4 ^^^ 0x63

/-- Two byte lists added bit by bit. -/
def xorBytes (a b : List Byte) : List Byte := (a.zip b).map fun p => p.1 ^^^ p.2

/-- The key schedule, `n` more words of 4 bytes from word `i`, newest first. -/
def aesExpand : Nat → Nat → List (List Byte) → List (List Byte)
  | 0, _, ws => ws
  | n + 1, i, ws =>
    let t := ws.getD 0 []
    let t :=
      if i % 8 = 0 then xorBytes ((t.drop 1 ++ t.take 1).map aesSbox) [(BitVec.ofNat 8 (2 ^ (i / 8 - 1)) : Byte), 0, 0, 0]
      else if i % 8 = 4 then t.map aesSbox else t
    aesExpand n (i + 1) (xorBytes (ws.getD 7 []) t :: ws)

/-- The 15 round keys of a 32-byte key. -/
def aesKeys (key : List Byte) : List (List Byte) :=
  let ws := (aesExpand 52 8 ((List.range 8).map fun i => sliceBytes key (4 * i) 4).reverse).reverse
  (List.range 15).map fun r => ((ws.drop (4 * r)).take 4).flatten

/-- One column through MixColumns. -/
def aesMix (c : List Byte) : List Byte :=
  (List.range 4).map fun i =>
    let g (j : Nat) : Byte := c.getD ((i + j) % 4) 0
    aesX (g 0) ^^^ aesX (g 1) ^^^ g 1 ^^^ g 2 ^^^ g 3

/-- SubBytes and ShiftRows of a 16-byte state. -/
def aesShift (b : List Byte) : List Byte := (List.range 16).map fun i => aesSbox (b.getD ((i + 4 * (i % 4)) % 16) 0)

/-- AES-256 of a 16-byte block under round keys. -/
def aesBlock (keys : List (List Byte)) (b : List Byte) : List Byte :=
  let round (b k : List Byte) : List Byte :=
    xorBytes ((List.range 4).flatMap fun c => aesMix (sliceBytes (aesShift b) (4 * c) 4)) k
  let b := ((keys.drop 1).take 13).foldl round (xorBytes b (keys.headD []))
  xorBytes (aesShift b) (keys.getD 14 [])

/-- Multiplication in the field of GHASH over `k` bits of the first factor, its highest bit first. -/
def ghashMul : Nat → BitVec 128 → BitVec 128 → BitVec 128
  | 0, _, _ => 0
  | k + 1, x, y =>
    (if x.msb then y else 0) ^^^
      ghashMul k (x <<< 1) (if y.getLsbD 0 then (y >>> 1) ^^^ BitVec.ofNat 128 (0xE1 <<< 120) else y >>> 1)

/-- A byte list in blocks of 16 bytes, the last padded with zeros. -/
def gcmBlocks (b : List Byte) : List (List Byte) := (List.range (ceilDiv b.length 16)).map fun i => sliceBytes b (16 * i) 16

/-- GHASH of blocks under the hash key. -/
def ghash (h : BitVec 128) (bs : List (List Byte)) : BitVec 128 :=
  bs.foldl (fun y b => ghashMul 128 (y ^^^ BitVec.ofNat 128 (beNat b)) h) 0

/-- The key stream of a 12-byte nonce from block counter 2. -/
def gcmStream (keys : List (List Byte)) (nonce : List Byte) (n : Nat) : List Byte :=
  (List.range (ceilDiv n 16)).flatMap fun i => aesBlock keys (nonce ++ beBytes 4 (i + 2))

/-- The tag of GCM over additional data and ciphertext. -/
def gcmTag (keys : List (List Byte)) (nonce aad ct : List Byte) : List Byte :=
  let h := BitVec.ofNat 128 (beNat (aesBlock keys (List.replicate 16 0)))
  let g := ghash h (gcmBlocks aad ++ gcmBlocks ct ++ [beBytes 8 (8 * aad.length) ++ beBytes 8 (8 * ct.length)])
  xorBytes (beBytes 16 g.toNat) (aesBlock keys (nonce ++ beBytes 4 1))

/-- AES-256-GCM (R310): ciphertext and tag. -/
def gcmSeal (key nonce aad pt : List Byte) : List Byte × List Byte :=
  let keys := aesKeys key
  let ct := xorBytes pt (gcmStream keys nonce pt.length)
  (ct, gcmTag keys nonce aad ct)

/-- Opening of AES-256-GCM (R310); none when the tag fails. -/
def gcmOpen (key nonce aad ct tag : List Byte) : Option (List Byte) :=
  let keys := aesKeys key
  if gcmTag keys nonce aad ct = tag then some (xorBytes ct (gcmStream keys nonce ct.length)) else none

end Sys2Proof.Machine
end

