-- ==== Sys2Proof/Machine/Fp.lean ====
section
/-! DEFINITION. Floating-point codes and their exact values, and every rounded operation the spec names on
them: decoding and rounding of R43, R44, R53 and IEEE 754 arithmetic of R64 in FP32 and FP64. A code is the
element's bit pattern as a number; a value is an exact dyadic number, so nothing rounds but where a rule says so. -/

namespace Sys2Proof.Machine

/-- What the largest exponent of a floating format means (R43, R44): the IEEE infinities and NaNs, E4M3's
single NaN mantissa, or no special code at all. -/
inductive SpecialCodes where
  | ieee
  | nanOnly
  | none
  deriving DecidableEq, Repr

/-- The parameters of a floating format, one row of R43. -/
structure FloatFmt where
  ebits : Nat
  mbits : Nat
  bias : Nat
  special : SpecialCodes
  deriving DecidableEq, Repr

/-- FP64 of R43. -/
def fp64 : FloatFmt := { ebits := 11, mbits := 52, bias := 1023, special := .ieee }
/-- FP32 of R43. -/
def fp32 : FloatFmt := { ebits := 8, mbits := 23, bias := 127, special := .ieee }
/-- BF16 of R43. -/
def bf16 : FloatFmt := { ebits := 8, mbits := 7, bias := 127, special := .ieee }
/-- FP16 of R43. -/
def fp16 : FloatFmt := { ebits := 5, mbits := 10, bias := 15, special := .ieee }
/-- E5M2 of R43. -/
def e5m2 : FloatFmt := { ebits := 5, mbits := 2, bias := 15, special := .ieee }
/-- E4M3 of R43. -/
def e4m3 : FloatFmt := { ebits := 4, mbits := 3, bias := 7, special := .nanOnly }
/-- E3M2 of R43. -/
def e3m2 : FloatFmt := { ebits := 3, mbits := 2, bias := 3, special := .none }
/-- E2M1 of R43. -/
def e2m1 : FloatFmt := { ebits := 2, mbits := 1, bias := 1, special := .none }

/-- A decoded value: NaN, an infinity, or exactly `(-1)^neg × m × 2^e` (a zero keeps its sign). -/
inductive Num where
  | nan
  | inf (neg : Bool)
  | fin (neg : Bool) (m : Nat) (e : Int)
  deriving DecidableEq, Repr

/-- The element width in bits. -/
def FloatFmt.width (f : FloatFmt) : Nat := 1 + f.ebits + f.mbits

/-- The exponent of the smallest normal value, 1 − bias. -/
def FloatFmt.emin (f : FloatFmt) : Int := 1 - (f.bias : Int)

/-- The value of a code under R43 and R44. -/
def FloatFmt.decode (f : FloatFmt) (code : Nat) : Num :=
  let neg := bitOf code (f.ebits + f.mbits)
  let ex := (code >>> f.mbits) % 2 ^ f.ebits
  let man := code % 2 ^ f.mbits
  let top := 2 ^ f.ebits - 1
  let value := if ex = 0 then Num.fin neg man (f.emin - f.mbits)
    else Num.fin neg (2 ^ f.mbits + man) ((ex : Int) - f.bias - f.mbits)
  match f.special with
  | .ieee => if ex = top then (if man = 0 then .inf neg else .nan) else value
  | .nanOnly => if ex = top && man = 2 ^ f.mbits - 1 then .nan else value
  | .none => value

/-- The canonical NaN code written (R44, R45); formats without one answer 0. -/
def FloatFmt.nanCode (f : FloatFmt) : Nat :=
  match f.special with
  | .ieee => (2 ^ f.ebits - 1) * 2 ^ f.mbits + 2 ^ (f.mbits - 1)
  | .nanOnly => 2 ^ (f.ebits + f.mbits) - 1
  | .none => 0

/-- The sign bit's place in a code. -/
def FloatFmt.signBit (f : FloatFmt) (neg : Bool) : Nat := flag neg * 2 ^ (f.ebits + f.mbits)

/-- The code of an infinity (R44). -/
def FloatFmt.infCode (f : FloatFmt) (neg : Bool) : Nat :=
  f.signBit neg + (2 ^ f.ebits - 1) * 2 ^ f.mbits

/-- The magnitude code of the largest finite value (R43). -/
def FloatFmt.maxMag (f : FloatFmt) : Nat :=
  match f.special with
  | .ieee => (2 ^ f.ebits - 1) * 2 ^ f.mbits - 1
  | .nanOnly => 2 ^ (f.ebits + f.mbits) - 2
  | .none => 2 ^ (f.ebits + f.mbits) - 1

/-- The exact magnitude of a magnitude code, as mantissa and exponent. -/
def FloatFmt.magOf (f : FloatFmt) (mag : Nat) : Nat × Int :=
  match f.decode mag with
  | .fin _ m e => (m, e)
  | _ => (0, 0)

/-- The largest finite value F of a format. -/
def FloatFmt.maxValue (f : FloatFmt) : Nat × Int := f.magOf f.maxMag

/-- Comparison of `m1 × 2^e1` with `m2 × 2^e2`, exactly. -/
def cmpMag (m1 : Nat) (e1 : Int) (m2 : Nat) (e2 : Int) : Ordering :=
  let e := min e1 e2
  compare (m1 * 2 ^ (e1 - e).toNat) (m2 * 2 ^ (e2 - e).toNat)

/-- A signed value `i × 2^e` as a number; a zero is +0. -/
def numOfInt (i : Int) (e : Int) : Num := .fin (decide (i < 0)) i.natAbs e

/-- The signed integer of a finite value scaled to exponent `e` (which must not exceed its own). -/
def intAt (neg : Bool) (m : Nat) (e' e : Int) : Int :=
  let v := (m : Int) * 2 ^ (e' - e).toNat
  if neg then -v else v

/-! ### Rounding -/

/-- The rounding directions: RNE, RTZ and RTO of R53, and the other directions of R65. -/
inductive Rm where
  | rne
  | rtz
  | rto
  | rna
  | rup
  | rdn
  deriving DecidableEq, Repr

/-- A magnitude cut at weight `2^q`: the kept units, how the discarded part compares with half a unit, and
whether anything was discarded. `sticky` says that the true magnitude lies above `m × 2^e` by less than `2^e`. -/
def cutAt (m : Nat) (e : Int) (sticky : Bool) (q : Int) : Nat × Ordering × Bool :=
  if q ≤ e then (m * 2 ^ (e - q).toNat, .lt, sticky)
  else
    let d := (q - e).toNat
    let r := m % 2 ^ d
    let c := compare r (2 ^ (d - 1))
    (m / 2 ^ d, if c = .eq && sticky then .gt else c, r != 0 || sticky)

/-- Whether the kept units go up by one (RTO sets the low bit instead, in `roundUnits`). -/
def roundsUp (rm : Rm) (neg : Bool) (n : Nat) (half : Ordering) (inexact : Bool) : Bool :=
  match rm with
  | .rne => half = .gt || (half = .eq && n % 2 = 1)
  | .rna => half = .gt || half = .eq
  | .rtz => false
  | .rto => false
  | .rup => inexact && !neg
  | .rdn => inexact && neg

/-- Units after rounding in direction `rm`, with the inexact mark (R53). -/
def roundUnits (rm : Rm) (neg : Bool) (m : Nat) (e : Int) (sticky : Bool) (q : Int) : Nat × Bool :=
  let (n, half, inexact) := cutAt m e sticky q
  let n' := if roundsUp rm neg n half inexact then n + 1
    else if rm = .rto && inexact then n ||| 1 else n
  (n', inexact)

/-- The weight of the unit in the last place of `m × 2^e` in a precision of `p` bits with smallest normal
exponent `emin` (subnormal spacing kept below it, R53). -/
def ulpAt (p : Nat) (emin : Int) (m : Nat) (e : Int) : Int :=
  max ((Nat.log2 m : Int) + e) emin - ((p : Int) - 1)

/-- The magnitude code of `n` units of weight `2^q`, or none when it lies above the largest finite value. -/
def FloatFmt.magCode (f : FloatFmt) (n : Nat) (q : Int) : Option Nat :=
  if n = 0 then some 0 else
  let lead := (Nat.log2 n : Int) + q
  let mag := if lead < f.emin then (n : Int) * 2 ^ (q - (f.emin - f.mbits)).toNat
    else
      let sh := q - (lead - f.mbits)
      let sig : Nat := if 0 ≤ sh then n * 2 ^ sh.toNat else n / 2 ^ (-sh).toNat
      ((lead + f.bias) * 2 ^ f.mbits + (sig : Int) - 2 ^ f.mbits)
  if cmpMag n q f.maxValue.1 f.maxValue.2 = .gt then none else some mag.toNat

/-- The five exception flags of R65, in their register bits: invalid 16, division by zero 8, overflow 4,
underflow 2, inexact 1. -/
abbrev Flags := Nat

/-- invalid of R65. -/
def flInvalid : Flags := 16
/-- divzero of R65. -/
def flDivZero : Flags := 8
/-- overflow of R65. -/
def flOverflow : Flags := 4
/-- underflow of R65. -/
def flUnderflow : Flags := 2
/-- inexact of R65. -/
def flInexact : Flags := 1

/-- What an IEEE overflow delivers in each direction (R63, R64). -/
def FloatFmt.overflowCode (f : FloatFmt) (rm : Rm) (neg : Bool) : Nat :=
  let toInf := match rm with
    | .rne => true
    | .rna => true
    | .rtz => false
    | .rto => false
    | .rup => !neg
    | .rdn => neg
  if toInf then f.infCode neg else f.signBit neg + f.maxMag

/-- A magnitude rounded into an IEEE format with its flags: overflow under R63, tininess judged after
rounding, underflow only when inexact (R64). -/
def FloatFmt.round (f : FloatFmt) (rm : Rm) (neg : Bool) (m : Nat) (e : Int) (sticky : Bool) :
    Nat × Flags :=
  if m = 0 && !sticky then (f.signBit neg, 0) else
  let p := f.mbits + 1
  let q := ulpAt p f.emin m e
  let (n, inexact) := roundUnits rm neg m e sticky q
  match f.magCode n q with
  | none => (f.overflowCode rm neg, flOverflow + flInexact)
  | some mag =>
    let qu := (Nat.log2 m : Int) + e - f.mbits
    let tiny := cmpMag (roundUnits rm neg m e sticky qu).1 qu 1 f.emin = .lt
    (f.signBit neg + mag, if inexact then (if tiny then flUnderflow + flInexact else flInexact) else 0)

/-- An exact value rounded into an IEEE format. -/
def FloatFmt.ofNum (f : FloatFmt) (rm : Rm) : Num → Nat
  | .nan => f.nanCode
  | .inf neg => f.infCode neg
  | .fin neg m e => (f.round rm neg m e false).1

/-! ### Exact operations on values -/

/-- Sum of two finite values, exactly; an exact zero takes the sign rule of R77 in direction `rm`. -/
def addFin (rm : Rm) (n1 : Bool) (m1 : Nat) (e1 : Int) (n2 : Bool) (m2 : Nat) (e2 : Int) : Num :=
  let e := min e1 e2
  let s := intAt n1 m1 e1 e + intAt n2 m2 e2 e
  if s = 0 then
    .fin (if m1 = 0 && m2 = 0 && n1 = n2 then n1 else decide (rm = .rdn)) 0 e
  else numOfInt s e

/-- Sum of two values by the rules of R81 and IEEE 754; the flag says that it is an invalid operation. -/
def addNum (rm : Rm) : Num → Num → Num × Bool
  | .nan, _ => (.nan, false)
  | _, .nan => (.nan, false)
  | .inf a, .inf b => if a = b then (.inf a, false) else (.nan, true)
  | .inf a, .fin _ _ _ => (.inf a, false)
  | .fin _ _ _, .inf b => (.inf b, false)
  | .fin n1 m1 e1, .fin n2 m2 e2 => (addFin rm n1 m1 e1 n2 m2 e2, false)

/-- Product of two values, exactly; ∞ × 0 is invalid. -/
def mulNum : Num → Num → Num × Bool
  | .nan, _ => (.nan, false)
  | _, .nan => (.nan, false)
  | .inf a, .inf b => (.inf (a != b), false)
  | .inf a, .fin b m _ => if m = 0 then (.nan, true) else (.inf (a != b), false)
  | .fin a m _, .inf b => if m = 0 then (.nan, true) else (.inf (a != b), false)
  | .fin a m e, .fin b n f => (.fin (a != b) (m * n) (e + f), false)

/-- The value with its sign turned. -/
def negNum : Num → Num
  | .nan => .nan
  | .inf a => .inf (!a)
  | .fin a m e => .fin (!a) m e

/-- Whether a value is not finite. -/
def Num.nonfinite : Num → Bool
  | .fin _ _ _ => false
  | _ => true

/-- Order of two values that are not NaN, with −0 equal to +0. -/
def cmpNum : Num → Num → Ordering
  | .inf a, .inf b => if a = b then .eq else if a then .lt else .gt
  | .inf a, _ => if a then .lt else .gt
  | _, .inf b => if b then .gt else .lt
  | .fin n1 m1 e1, .fin n2 m2 e2 =>
    let e := min e1 e2
    compare (intAt n1 m1 e1 e) (intAt n2 m2 e2 e)
  | _, _ => .eq

/-! ### IEEE 754 operations (R64) -/

/-- A signalling NaN code of an IEEE format. -/
def FloatFmt.isSnan (f : FloatFmt) (c : Nat) : Bool :=
  match f.decode c with
  | .nan => !bitOf c (f.mbits - 1)
  | _ => false

/-- A NaN code. -/
def FloatFmt.isNan (f : FloatFmt) (c : Nat) : Bool :=
  match f.decode c with
  | .nan => true
  | _ => false

/-- The result of an operation from its exact value: canonical NaN, infinity or rounding, with flags. -/
def FloatFmt.finish (f : FloatFmt) (rm : Rm) (invalid : Bool) : Num → Nat × Flags
  | .nan => (f.nanCode, flag invalid * flInvalid)
  | .inf neg => (f.infCode neg, 0)
  | .fin neg m e => f.round rm neg m e false

/-- Addition. -/
def FloatFmt.add (f : FloatFmt) (rm : Rm) (a b : Nat) : Nat × Flags :=
  let r := addNum rm (f.decode a) (f.decode b)
  f.finish rm (r.2 || f.isSnan a || f.isSnan b) r.1

/-- Subtraction. -/
def FloatFmt.sub (f : FloatFmt) (rm : Rm) (a b : Nat) : Nat × Flags :=
  let r := addNum rm (f.decode a) (negNum (f.decode b))
  f.finish rm (r.2 || f.isSnan a || f.isSnan b) r.1

/-- Multiplication. -/
def FloatFmt.mul (f : FloatFmt) (rm : Rm) (a b : Nat) : Nat × Flags :=
  let r := mulNum (f.decode a) (f.decode b)
  f.finish rm (r.2 || f.isSnan a || f.isSnan b) r.1

/-- Fused multiply-add with one rounding; ∞ × 0 raises invalid even with a quiet NaN addend (R64). -/
def FloatFmt.fma (f : FloatFmt) (rm : Rm) (a b c : Nat) : Nat × Flags :=
  let p := mulNum (f.decode a) (f.decode b)
  let r := addNum rm p.1 (f.decode c)
  f.finish rm (p.2 || r.2 || f.isSnan a || f.isSnan b || f.isSnan c) r.1

/-- Division of finite non-zero magnitudes to `p + 3` bits or more, with a sticky remainder. -/
def divMag (p : Nat) (m1 : Nat) (e1 : Int) (m2 : Nat) (e2 : Int) : Nat × Int × Bool :=
  let s := p + 4 + Nat.log2 m2
  let n := m1 * 2 ^ s
  (n / m2, e1 - e2 - s, n % m2 != 0)

/-- Division. -/
def FloatFmt.div (f : FloatFmt) (rm : Rm) (a b : Nat) : Nat × Flags :=
  let sn := f.isSnan a || f.isSnan b
  match f.decode a, f.decode b with
  | .nan, _ => (f.nanCode, flag sn * flInvalid)
  | _, .nan => (f.nanCode, flag sn * flInvalid)
  | .inf _, .inf _ => (f.nanCode, flInvalid)
  | .inf x, .fin y _ _ => (f.infCode (x != y), 0)
  | .fin x _ _, .inf y => (f.signBit (x != y), 0)
  | .fin x m1 e1, .fin y m2 e2 =>
    if m2 = 0 then (if m1 = 0 then (f.nanCode, flInvalid) else (f.infCode (x != y), flDivZero))
    else if m1 = 0 then (f.signBit (x != y), 0)
    else
      let (q, e, st) := divMag (f.mbits + 1) m1 e1 m2 e2
      f.round rm (x != y) q e st

/-- The integer square root, by `k` binary digits from the top. -/
def isqrtBits (n : Nat) : Nat → Nat → Nat
  | 0, r => r
  | k + 1, r => if (r + 2 ^ k) * (r + 2 ^ k) ≤ n then isqrtBits n k (r + 2 ^ k) else isqrtBits n k r

/-- The integer square root. -/
def isqrt (n : Nat) : Nat := isqrtBits n (Nat.log2 n / 2 + 1) 0

/-- The square root of `m × 2^e` to `p + 3` bits or more, with a sticky remainder. -/
def sqrtMag (p : Nat) (m : Nat) (e : Int) : Nat × Int × Bool :=
  let odd := e % 2 != 0
  let m' := (if odd then 2 * m else m) * 2 ^ (2 * (p + 4))
  let r := isqrt m'
  (r, (if odd then e - 1 else e) / 2 - (p + 4), r * r != m')

/-- Square root. -/
def FloatFmt.sqrt (f : FloatFmt) (rm : Rm) (a : Nat) : Nat × Flags :=
  match f.decode a with
  | .nan => (f.nanCode, flag (f.isSnan a) * flInvalid)
  | .inf neg => if neg then (f.nanCode, flInvalid) else (f.infCode false, 0)
  | .fin neg m e =>
    if m = 0 then (f.signBit neg, 0)
    else if neg then (f.nanCode, flInvalid)
    else
      let (r, e', st) := sqrtMag (f.mbits + 1) m e
      f.round rm false r e' st

/-- The IEEE 754-2019 maximum: NaN dominates and −0 counts as less than +0 (R64). -/
def FloatFmt.maximum (f : FloatFmt) (a b : Nat) : Nat × Flags :=
  let fl := flag (f.isSnan a || f.isSnan b) * flInvalid
  if f.isNan a || f.isNan b then (f.nanCode, fl) else
  match cmpNum (f.decode a) (f.decode b) with
  | .gt => (a, fl)
  | .lt => (b, fl)
  | .eq => (if bitOf a (f.ebits + f.mbits) then b else a, fl)

/-- The IEEE 754-2019 minimum. -/
def FloatFmt.minimum (f : FloatFmt) (a b : Nat) : Nat × Flags :=
  let fl := flag (f.isSnan a || f.isSnan b) * flInvalid
  if f.isNan a || f.isNan b then (f.nanCode, fl) else
  match cmpNum (f.decode a) (f.decode b) with
  | .gt => (b, fl)
  | .lt => (a, fl)
  | .eq => (if bitOf a (f.ebits + f.mbits) then a else b, fl)

/-- FP32 addition by RNE: the chain step of R68 and R77. -/
def add32 (a b : Nat) : Nat := (fp32.add .rne a b).1
/-- FP32 subtraction by RNE. -/
def sub32 (a b : Nat) : Nat := (fp32.sub .rne a b).1
/-- FP32 multiplication by RNE. -/
def mul32 (a b : Nat) : Nat := (fp32.mul .rne a b).1
/-- FP32 division by RNE. -/
def div32 (a b : Nat) : Nat := (fp32.div .rne a b).1
/-- FP32 fused multiply-add by RNE. -/
def fma32 (a b c : Nat) : Nat := (fp32.fma .rne a b c).1
/-- FP64 addition by RNE. -/
def add64 (a b : Nat) : Nat := (fp64.add .rne a b).1
/-- FP64 multiplication by RNE. -/
def mul64 (a b : Nat) : Nat := (fp64.mul .rne a b).1
/-- An unsigned integer rounded to FP32 by RNE. -/
def nat32 (n : Nat) : Nat := (fp32.round .rne false n 0 false).1
/-- An unsigned integer rounded to FP64 by RNE. -/
def nat64 (n : Nat) : Nat := (fp64.round .rne false n 0 false).1
/-- The FP32 code with its sign turned. -/
def neg32 (a : Nat) : Nat := a ^^^ 0x80000000

/-! ### Elementary functions (R163)

Each is computed in integer fixed point with 320 fraction bits, far more than FP32 needs, and then rounded once
with a sticky bit: PRESUMED, log entry 4, that no FP32 argument lies so near a rounding boundary that the 320
bits decide it wrongly. -/

/-- ⌊ln 2 × 2^320⌋. -/
def ln2Fix : Nat :=
  0xB17217F7D1CF79ABC9E3B39803F2F6AF40F343267298B62D8A0D175B8BAAFA2BE7B876206DEBAC98

/-- Terms `r^i / i!` summed in fixed point: `n` more terms from index `i`, after term `t`. -/
def expTerms (r : Nat) : Nat → Nat → Nat → Nat → Nat
  | 0, _, _, acc => acc
  | n + 1, i, t, acc =>
    let t' := t * r / 2 ^ 320 / i
    expTerms r n (i + 1) t' (acc + t')

/-- exp of `x × 2^-320`, as a mantissa with 320 fraction bits in [1, 2) and a binary exponent. -/
def expFix (x : Int) : Nat × Int :=
  let k := x / (ln2Fix : Int)
  let r := (x % (ln2Fix : Int)).toNat
  (expTerms r 90 1 (2 ^ 320) (2 ^ 320), k)

/-- A finite FP32 value in 320-bit fixed point, exactly (FP32 holds no bit below 2^-149). -/
def fix320 (neg : Bool) (m : Nat) (e : Int) : Int :=
  let v := (m : Int) * 2 ^ (e + 320).toNat
  if neg then -v else v

/-- The FP32 code of 1. -/
def one32 : Nat := 0x3F800000

/-- exp, correctly rounded. -/
def exp32 (a : Nat) : Nat :=
  match fp32.decode a with
  | .nan => fp32.nanCode
  | .inf neg => if neg then 0 else fp32.infCode false
  | .fin neg m e =>
    if m = 0 then one32
    else if cmpMag m e 104 0 = .gt then (if neg then 0 else fp32.infCode false)
    else
      let (y, k) := expFix (fix320 neg m e)
      (fp32.round .rne false y (k - 320) true).1

/-- Terms of the inverse hyperbolic tangent series: `n` more from odd index `i`, after power `p`. -/
def atanhTerms (t2 : Nat) : Nat → Nat → Nat → Nat → Nat
  | 0, _, _, acc => acc
  | n + 1, i, p, acc =>
    let p' := p * t2 / 2 ^ 320
    atanhTerms t2 n (i + 2) p' (acc + p' / i)

/-- 2 × atanh(num / den) in fixed point, for num < den / 4. -/
def twoAtanh (num den : Nat) : Nat :=
  let t := num * 2 ^ 320 / den
  2 * atanhTerms (t * t / 2 ^ 320) 80 3 t t

/-- log, correctly rounded. -/
def log32 (a : Nat) : Nat :=
  match fp32.decode a with
  | .nan => fp32.nanCode
  | .inf neg => if neg then fp32.nanCode else fp32.infCode false
  | .fin neg m e =>
    if m = 0 then fp32.infCode true
    else if neg then fp32.nanCode
    else if a = one32 then 0
    else
      let l := Nat.log2 m
      let up := 4 * 2 ^ l < 3 * m
      let d := if up then 2 ^ (l + 1) else 2 ^ l
      let ex : Int := e + l + (if up then 1 else 0)
      let lnv : Int := if up then -(twoAtanh (d - m) (d + m) : Int) else (twoAtanh (m - d) (m + d) : Int)
      let s := lnv + ex * (ln2Fix : Int)
      (fp32.round .rne (decide (s < 0)) s.natAbs (-320) true).1

/-- rsqrt, correctly rounded; rsqrt(±0) = ±∞ and a negative argument gives NaN. -/
def rsqrt32 (a : Nat) : Nat :=
  match fp32.decode a with
  | .nan => fp32.nanCode
  | .inf neg => if neg then fp32.nanCode else 0
  | .fin neg m e =>
    if m = 0 then fp32.infCode neg
    else if neg then fp32.nanCode
    else
      let odd := e % 2 != 0
      let m' := if odd then 2 * m else m
      let e' := if odd then e - 1 else e
      let n := 2 ^ 200 / m'
      let r := isqrt n
      (fp32.round .rne false r (-(e' / 2) - 100) (r * r * m' != 2 ^ 200)).1

/-- recip, correctly rounded. -/
def recip32 (a : Nat) : Nat := div32 one32 a

/-- sigmoid, correctly rounded. -/
def sigmoid32 (a : Nat) : Nat :=
  match fp32.decode a with
  | .nan => fp32.nanCode
  | .inf neg => if neg then 0 else one32
  | .fin neg m e =>
    if m = 0 then 0x3F000000
    else if cmpMag m e 104 0 = .gt then (if neg then 0 else one32)
    else
      let (y, k) := expFix (fix320 (!neg) m e)
      let den := 2 ^ 320 + (if 0 ≤ k then y * 2 ^ k.toNat else y / 2 ^ (-k).toNat)
      (fp32.round .rne false (2 ^ 720 / den) (-400) true).1

end Sys2Proof.Machine
end

