-- ==== Sys2Proof/Machine/Format.lean ====
section
/-! DEFINITION. The ten tensor formats (R40), block scales (R89, R90), and what a conversion unit does to one
block of 32 elements: rounding (R52 to R58), range (R59 to R63), scale choice (R101 to R106), the error report
(R107) and the block class (R108). Everything here is a function of the block's own values. -/

namespace Sys2Proof.Machine

/-- The ten format codes of R40. -/
inductive ElemFmt where
  | fp64
  | fp32
  | bf16
  | fp16
  | e5m2
  | e4m3
  | e3m2
  | e2m1
  | int8
  | int4
  deriving DecidableEq, Repr

/-- The 4-bit format code of R40. -/
def ElemFmt.code : ElemFmt → Nat
  | .fp64 => 0
  | .fp32 => 1
  | .bf16 => 2
  | .fp16 => 3
  | .e5m2 => 4
  | .e4m3 => 5
  | .e3m2 => 6
  | .e2m1 => 7
  | .int8 => 8
  | .int4 => 9

/-- The format of a code; codes 0xA to 0xF are reserved (R40). -/
def ElemFmt.ofCode? (c : Nat) : Option ElemFmt :=
  match c with
  | 0 => some .fp64
  | 1 => some .fp32
  | 2 => some .bf16
  | 3 => some .fp16
  | 4 => some .e5m2
  | 5 => some .e4m3
  | 6 => some .e3m2
  | 7 => some .e2m1
  | 8 => some .int8
  | 9 => some .int4
  | _ => none

/-- Element width in bits (R40). -/
def ElemFmt.width : ElemFmt → Nat
  | .fp64 => 64
  | .fp32 => 32
  | .bf16 => 16
  | .fp16 => 16
  | .e5m2 => 8
  | .e4m3 => 8
  | .e3m2 => 6
  | .e2m1 => 4
  | .int8 => 8
  | .int4 => 4

/-- The four wide formats carry no block scales (R40). -/
def ElemFmt.isWide : ElemFmt → Bool
  | .fp64 => true
  | .fp32 => true
  | .bf16 => true
  | .fp16 => true
  | _ => false

/-- INT8 and INT4 (R47). -/
def ElemFmt.isInt : ElemFmt → Bool
  | .int8 => true
  | .int4 => true
  | _ => false

/-- The floating layout of a format; the integer formats have none and answer E4M3's, which nothing reads. -/
def ElemFmt.layout : ElemFmt → FloatFmt
  | .fp64 => Machine.fp64
  | .fp32 => Machine.fp32
  | .bf16 => Machine.bf16
  | .fp16 => Machine.fp16
  | .e5m2 => Machine.e5m2
  | .e4m3 => Machine.e4m3
  | .e3m2 => Machine.e3m2
  | .e2m1 => Machine.e2m1
  | .int8 => Machine.e4m3
  | .int4 => Machine.e4m3

/-- The largest code of an integer format (R47, R105). -/
def ElemFmt.qmax : ElemFmt → Nat
  | .int4 => 15
  | _ => 255

/-- A block's scale: an E8M0 field (R89) or a BF16 scale with a zero point (R90); wide tensors have none (R42). -/
inductive Scale where
  | unit
  | e8m0 (e : Nat)
  | asym (s : Nat) (z : Nat)
  deriving DecidableEq, Repr

/-- A scale that decodes its whole block to NaN, or that makes a written block NaN (R47, R62, R80). -/
def Scale.unusable (f : ElemFmt) : Scale → Bool
  | .unit => false
  | .e8m0 e => e = 255
  | .asym s z => (bf16.decode s).nonfinite || (f = .int4 && z > 15)

/-- The scale a conversion unit works with when a block's record hands it `sc`: it writes no negative scale and no
INT4 zero point above 15 (R47); what it takes in their place is free (log entry 129). -/
def Scale.handed (f : ElemFmt) : Scale → Scale
  | .asym s z =>
    .asym (if 0x8000 < s % 0x10000 && !(bf16.decode s).nonfinite then Config.scaleFor s % 0x7F80 else s)
      (if f = .int4 && z > 15 then Config.zeroFor z % 16 else z)
  | sc => sc

/-- A scale of +0 or −0 (R47, R57). -/
def Scale.zero : Scale → Bool
  | .asym s _ => s % 0x8000 == 0
  | _ => false

/-- The value of an element of a tensor under its block's scale (R42, R47). -/
def decodeElem (f : ElemFmt) (sc : Scale) (code : Nat) : Num :=
  match sc with
  | .unit => f.layout.decode code
  | .e8m0 e =>
    if e = 255 then .nan else
    match f.layout.decode code with
    | .fin neg m ex => .fin neg m (ex + ((e : Int) - 127))
    | v => v
  | .asym s z =>
    if sc.unusable f then .nan else
    match bf16.decode s with
    | .fin sneg m ex =>
      let d : Int := (code : Int) - z
      if d = 0 || m = 0 then .fin false 0 0
      else .fin (sneg != decide (d < 0)) (m * d.natAbs) ex
    | _ => .nan

/-! ### Rounding modes of conversions -/

/-- The rounding modes of R52. -/
inductive Rnd where
  | rne
  | rtz
  | sr
  | rto
  deriving DecidableEq, Repr

/-- The mode of an rnd field (R52). -/
def Rnd.ofCode (c : Nat) : Rnd :=
  match c % 4 with
  | 0 => .rne
  | 1 => .rtz
  | 2 => .sr
  | _ => .rto

/-- The direction of a mode that draws no random bits. -/
def Rnd.dir : Rnd → Rm
  | .rne => .rne
  | .rtz => .rtz
  | .sr => .rtz
  | .rto => .rto

/-- Units of weight `2^q` after stochastic rounding with random word `word` (R54): `d` discarded source
significand bits, of which the top `k` are compared. -/
def srUnits (m : Nat) (e q : Int) (word : Nat) : Nat :=
  if q ≤ e then m * 2 ^ (e - q).toNat else
  let d := (q - e).toNat
  let k := min d 32
  let f := (m % 2 ^ d) / 2 ^ (d - k)
  m / 2 ^ d + (if 2 ^ k ≤ f + word % 2 ^ k then 1 else 0)

/-- Units after a conversion's rounding in mode `rnd`, exponent range unbounded above (R53). -/
def convUnits (rnd : Rnd) (neg : Bool) (m : Nat) (e q : Int) (word : Nat) : Nat :=
  match rnd with
  | .sr => srUnits m e q word
  | _ => (roundUnits rnd.dir neg m e false q).1

/-- The round-to-odd step of R57 for FP64 sources: the value named there rounded to FP32 by RTO (R58). -/
def rtoStep (neg : Bool) (m : Nat) (e : Int) (sticky : Bool) : Num :=
  fp32.decode (fp32.round .rto neg m e sticky).1

/-- The conversions R56 marks X: exact, whatever rnd holds. -/
def convExact (src dst : ElemFmt) : Bool :=
  dst = .fp64 || (dst = .fp32 && src != .fp64) || (dst = .bf16 && src = .bf16) || (dst = .fp16 && src = .fp16)

/-- Conversion to a wide format (R57, R58, R63); those R56 marks X ignore rnd. -/
def convWide (src dst : ElemFmt) (rnd : Rnd) (word : Nat) (x : Num) : Nat :=
  let f := dst.layout
  let step := fun (mode : Rnd) (neg : Bool) (m : Nat) (e : Int) =>
    if m = 0 then f.signBit neg else
    let q := ulpAt (f.mbits + 1) f.emin m e
    match f.magCode (convUnits mode neg m e q word) q with
    | some mag => f.signBit neg + mag
    | none => if mode = .sr then f.infCode neg else f.overflowCode mode.dir neg
  match x with
  | .nan => f.nanCode
  | .inf neg => f.infCode neg
  | .fin neg m e =>
    if src = .fp64 && (dst = .bf16 || dst = .fp16) then
      match rtoStep neg m e false with
      | .fin neg' m' e' => step rnd neg' m' e'
      | _ => f.infCode neg
    else step (if convExact src dst then .rne else rnd) neg m e

/-- What one element became in a narrow block, with its count of R61. -/
structure ElemOut where
  code : Nat
  /-- R61: counted as one saturation. -/
  sat : Bool
  /-- R61: counted as one non-finite value. -/
  nonfin : Bool
  /-- A finite source that overflowed under R59, in either mode (R123). -/
  finOver : Bool
  deriving DecidableEq, Repr

/-- An overflow or an infinity in a narrow floating format (R60). -/
def narrowOver (f : ElemFmt) (nanm neg finite : Bool) : ElemOut :=
  let l := f.layout
  if nanm then { code := l.nanCode, sat := false, nonfin := true, finOver := finite }
  else { code := l.signBit neg + l.maxMag, sat := true, nonfin := false, finOver := finite }

/-- Conversion of one element to a narrow floating format with E8M0 field `ed` (R57 to R60). A NaN source
answers the format's NaN code; formats without one are handled by the block (R62). -/
def convNarrow (src dst : ElemFmt) (rnd : Rnd) (nanm : Bool) (ed word : Nat) (x : Num) : ElemOut :=
  let l := dst.layout
  match x with
  | .nan => { code := l.nanCode, sat := false, nonfin := true, finOver := false }
  | .inf neg => narrowOver dst nanm neg false
  | .fin neg m e =>
    let e' := e + (127 - (ed : Int))
    let fin := fun (m : Nat) (e : Int) =>
      if m = 0 then { code := l.signBit neg, sat := false, nonfin := false, finOver := false } else
      let q := ulpAt (l.mbits + 1) l.emin m e
      match l.magCode (convUnits rnd neg m e q word) q with
      | some mag => { code := l.signBit neg + mag, sat := false, nonfin := false, finOver := false }
      | none => narrowOver dst nanm neg true
    if src = .fp64 then
      match rtoStep neg m e' false with
      | .fin _ m2 e2 => fin m2 e2
      | _ => narrowOver dst nanm neg true
    else fin m e'

/-- An exact non-negative quotient rounded to an integer in mode `rnd`; SR compares the first 32 fraction bits
(R54). -/
def intUnits (rnd : Rnd) (neg : Bool) (num den word : Nat) : Nat :=
  let n := num / den
  let r := num % den
  match rnd with
  | .sr => n + (if 2 ^ 32 ≤ r * 2 ^ 32 / den + word % 2 ^ 32 then 1 else 0)
  | _ =>
    let half := compare (2 * r) den
    if roundsUp rnd.dir neg n half (r != 0) then n + 1
    else if rnd = .rto && r != 0 then n ||| 1 else n

/-- `m × 2^e` as a numerator and a denominator. -/
def ratOf (m : Nat) (e : Int) : Nat × Nat :=
  if 0 ≤ e then (m * 2 ^ e.toNat, 1) else (m, 2 ^ (-e).toNat)

/-- Conversion of one element to an integer format with scale `s` (BF16) and zero point `z` (R57, R59, R60).
NaN sources are handled by the block. -/
def convInt (src dst : ElemFmt) (rnd : Rnd) (s z word : Nat) (x : Num) : ElemOut :=
  let lim := fun (neg finite : Bool) =>
    { code := if neg then 0 else dst.qmax, sat := true, nonfin := false, finOver := finite }
  match x, bf16.decode s with
  | .nan, _ => { code := z, sat := false, nonfin := true, finOver := false }
  | .inf neg, .fin _ _ _ => lim neg false
  | .fin neg m e, .fin sneg sm se =>
    if m = 0 then { code := z, sat := false, nonfin := false, finOver := false }
    else if sm = 0 then lim (neg != sneg) true
    else
      let tneg := neg != sneg
      let units :=
        if src = .fp64 then
          let (q, qe, st) := divMag 24 m e sm se
          match rtoStep tneg q qe st with
          | .fin _ m2 e2 => let (a, b) := ratOf m2 e2; intUnits rnd tneg a b word
          | _ => 2 ^ 128
        else
          let (a, b) := ratOf m (e - se)
          intUnits rnd tneg a (b * sm) word
      let q : Int := (if tneg then -(units : Int) else units) + z
      if q < 0 then lim true true
      else if (dst.qmax : Int) < q then lim false true
      else { code := q.toNat, sat := false, nonfin := false, finOver := false }
  | _, _ => { code := z, sat := false, nonfin := true, finOver := false }

/-! ### Choosing scales -/

/-- The fitting function e_fit of R101 for a non-zero magnitude `m × 2^e`. -/
def eFit (m : Nat) (e : Int) (dst : ElemFmt) (h : Nat) : Nat :=
  let (fm, fe) := dst.layout.maxValue
  let a := (Nat.log2 m : Int) + e - ((Nat.log2 fm : Int) + fe)
  let c := if cmpMag m e fm (fe + a) = .gt then a + 1 else a
  (min (max (127 + h + c) 0) 254).toNat

/-- The smaller of two finite values, the first when equal. -/
def minFin (a b : Num) : Num := if cmpNum b a = .lt then b else a

/-- The larger of two finite values, the first when equal. -/
def maxFin (a b : Num) : Num := if cmpNum b a = .gt then b else a

/-- The finite values of a block. -/
def finites (xs : List Num) : List Num := xs.filter fun x => !x.nonfinite

/-- The largest finite non-zero magnitude of a block, if it has one. -/
def maxMagOf (xs : List Num) : Option (Nat × Int) :=
  xs.foldl (fun acc x =>
    match x with
    | .fin _ m e =>
      if m = 0 then acc else
      match acc with
      | none => some (m, e)
      | some (m', e') => if cmpMag m e m' e' = .gt then some (m, e) else acc
    | _ => acc) none

/-- Whether a block holds a NaN source. -/
def hasNan (xs : List Num) : Bool := xs.any fun x => x = .nan

/-- derive_asym of R105 over the block's smallest and largest finite values. -/
def deriveAsym (lo hi : Num) (qmax : Nat) : Nat × Nat :=
  let zero := Num.fin false 0 0
  let lo := minFin zero lo
  let hi := maxFin zero hi
  match lo, hi with
  | .fin _ lm le, .fin _ hm he =>
    if lm = 0 && hm = 0 then (0x3F80, 0) else
    let e := min le he
    let span := lm * 2 ^ (le - e).toNat + hm * 2 ^ (he - e).toNat
    let (q, qe, st) := divMag 8 span e (qmax - 1) 0
    let s := (bf16.round .rup false q qe st).1
    match bf16.decode s with
    | .fin _ sm se =>
      let (a, b) := ratOf lm (le - se)
      (s, if sm = 0 then 0 else ceilDiv a (b * sm))
    | _ => (s, 0)
  | _, _ => (0x3F80, 0)

/-- The streaming scale of a block's own values (R102, R106). -/
def streamScale (dst : ElemFmt) (xs : List Num) : Scale :=
  if dst.isInt then
    let fs := finites xs
    let zero := Num.fin false 0 0
    let (s, z) := deriveAsym (fs.foldl minFin zero) (fs.foldl maxFin zero) dst.qmax
    .asym s z
  else
    match maxMagOf xs with
    | some (m, e) => .e8m0 (eFit m e dst 0)
    | none => .e8m0 127

/-! ### One block through the conversion unit -/

/-- What the Sieve receives for one written block (R61, R83, R107, R108, R122, R123). -/
structure BlockReport where
  elems : Nat
  zeros : Nat
  sats : Nat
  nonfin : Nat
  leached : Bool
  satBlock : Bool
  trig : Bool
  scaleNan : Bool
  /-- Observation flag nonfinite of R123. -/
  obsNonfin : Bool
  /-- The fit exponent's magnitude m of R123, empty without a finite non-zero element. -/
  top : Option (Nat × Int)
  /-- Smallest and largest finite source values. -/
  lo : Option Num
  hi : Option Num
  deriving DecidableEq, Repr

/-- A written block: its codes, its scale entry and its report. -/
structure BlockOut where
  codes : List Nat
  scale : Scale
  report : BlockReport
  deriving DecidableEq, Repr

/-- Sum of FP32 codes in the order of R86 within one block of at most 32 terms. -/
def sum32 : List Nat → Nat
  | [] => 0
  | t :: ts => ts.foldl add32 t

/-- Sum of squares of FP32 codes as a dot product under R86. -/
def sumSq32 : List Nat → Nat
  | [] => 0
  | t :: ts => ts.foldl (fun p x => fma32 x x p) (mul32 t t)

/-- The INT error trigger of R107 with threshold 2^−t: pairs of finite source value and decoded written value. -/
def errorTrigger (t : Nat) (pairs : List (Num × Num)) : Bool :=
  if pairs.isEmpty then false else
  let n := nat32 pairs.length
  let xs := pairs.map fun p => fp32.ofNum .rne p.1
  let ds := pairs.map fun p => sub32 (fp32.ofNum .rne p.1) (fp32.ofNum .rne p.2)
  let mu := div32 (sum32 xs) n
  let mse := div32 (sumSq32 ds) n
  let var := div32 (sumSq32 (xs.map fun x => sub32 x mu)) n
  let thr := (fp32.round .rne false 1 (-(t : Int)) false).1
  cmpNum (fp32.decode mse) (fp32.decode (mul32 thr var)) = .gt && !fp32.isNan mse && !fp32.isNan var

/-- Whether a written code is a zero code (R108). -/
def isZeroCode (f : ElemFmt) (sc : Scale) (code : Nat) : Bool :=
  match sc with
  | .asym _ z => code = z
  | _ => code % 2 ^ (f.width - 1) = 0

/-- A block written as NaN in a format without a NaN code, or with an unusable scale (R60, R62); an INT4 zero point is
one the unit writes. -/
def nanBlock (dst : ElemFmt) (n : Nat) (sc : Scale) : List Nat × Scale :=
  match sc with
  | .asym _ z => (List.replicate n z, .asym 0x7FC0 z)
  | .e8m0 e =>
    if dst = .e3m2 || dst = .e2m1 then (List.replicate n 0, .e8m0 255)
    else (List.replicate n dst.layout.nanCode, .e8m0 e)
  | .unit => (List.replicate n dst.layout.nanCode, .unit)

/-- One narrow block of real elements written with the scale `given` that its record hands the unit (R57 to R62, R107,
R108). `t` is the tensor's error exponent, and the trigger is formed only where `positional`; with a zero scale it fires
for any non-zero finite element (R57). In a block written as NaN for a NaN source each other element still counts under
R61. -/
def convBlock (src dst : ElemFmt) (rnd : Rnd) (nanm positional : Bool) (t : Nat) (given : Scale)
    (xs : List Num) (words : List Nat) : BlockOut :=
  let n := xs.length
  let bad := given.unusable dst
  let sc := given.handed dst
  let anyNan := hasNan xs
  let outs := (xs.zip (words ++ List.replicate n 0)).map fun p =>
    match sc with
    | .asym s z => convInt src dst rnd s z p.2 p.1
    | .e8m0 ed => convNarrow src dst rnd nanm ed p.2 p.1
    | .unit => { code := 0, sat := false, nonfin := false, finOver := false }
  let fs := finites xs
  let base : BlockReport :=
    { elems := n, zeros := 0, sats := 0, nonfin := 0, leached := false, satBlock := false, trig := false,
      scaleNan := bad, obsNonfin := bad || xs.any Num.nonfinite, top := maxMagOf xs,
      lo := fs.head?.map (fun h => fs.foldl minFin h), hi := fs.head?.map (fun h => fs.foldl maxFin h) }
  let noNanCode := dst.isInt || dst = .e3m2 || dst = .e2m1
  if bad || (anyNan && noNanCode) then
    let (codes, sc') := nanBlock dst n sc
    { codes := codes, scale := sc',
      report := if bad then { base with nonfin := n }
        else { base with
          sats := (outs.filter (·.sat)).length
          nonfin := (outs.filter (·.nonfin)).length
          satBlock := outs.any (·.finOver) } }
  else
    let codes := outs.map (·.code)
    let zc := (codes.filter fun c => isZeroCode dst sc c).length
    let pairs := (xs.zip codes).filterMap fun p =>
      if p.1.nonfinite then none else some (p.1, decodeElem dst sc p.2)
    { codes := codes, scale := sc,
      report := { base with
        zeros := if anyNan then 0 else zc
        sats := (outs.filter (·.sat)).length
        nonfin := (outs.filter (·.nonfin)).length
        leached := !anyNan && zc = n && (maxMagOf xs).isSome
        satBlock := outs.any (·.finOver)
        trig := dst.isInt && positional && !anyNan &&
          (if sc.zero then (maxMagOf xs).isSome else errorTrigger t pairs) } }

/-! ### Rotation (R111) -/

/-- The rotation constant c_n of R111. -/
def rotConst (n : Nat) : Nat := if n = 128 then 0x3DB504F3 else 0x3E3504F3

/-- One butterfly stage at distance `2^s` over a group of FP32 codes. -/
def rotStage (s : Nat) (z : List Nat) : List Nat :=
  (List.range z.length).map fun i =>
    if bitOf i s then sub32 (z.getD (i - 2 ^ s) 0) (z.getD i 0)
    else add32 (z.getD i 0) (z.getD (i + 2 ^ s) 0)

/-- The rotator on one group of `n` FP32 codes with its signs (true: −1). -/
def rotGroup (n : Nat) (signs : List Bool) (x : List Nat) : List Nat :=
  let z := (x.zip signs).map fun p => if p.2 then neg32 p.1 else p.1
  let y := (List.range (Nat.log2 n)).foldl (fun acc s => rotStage s acc) z
  y.map fun v => mul32 v (rotConst n)

/-! ### Which conversions are permitted (R56) -/

/-- Whether the table of R56 permits `rnd` from `src` to `dst`. -/
def convPermitted (src dst : ElemFmt) (rnd : Rnd) : Bool :=
  let nz := rnd = .rne || rnd = .rtz
  match src, dst with
  | .fp64, .fp64 => true
  | .fp64, .fp32 => nz || rnd = .rto
  | .fp64, _ => nz
  | .fp32, .fp64 => true
  | .fp32, .fp32 => true
  | .fp32, .bf16 => true
  | .fp32, .fp16 => true
  | .fp32, _ => nz || rnd = .sr
  | .bf16, .fp64 => true
  | .bf16, .fp32 => true
  | .bf16, .bf16 => true
  | .bf16, _ => nz || rnd = .sr
  | .fp16, .fp64 => true
  | .fp16, .fp32 => true
  | .fp16, .bf16 => nz || rnd = .rto
  | .fp16, .fp16 => true
  | .fp16, _ => nz
  | _, .fp64 => true
  | _, .fp32 => true
  | _, _ => nz

end Sys2Proof.Machine
end

