-- ==== Sys2Proof/Machine/CtxState.lean ====
section
/-! DEFINITION. What the device holds for one context: its configuration and reservation (R225, R343, R344), its
loaded plan (R250 to R252, R269), its steps in flight (R266 to R268), its register groups and its snapshot. -/

namespace Sys2Proof.Machine

/-- The six context states of R337. -/
inductive CtxPhase where
  | admitted
  | reserved
  | ready
  | running
  | held
  | resetting
  deriving DecidableEq, Repr

/-- The state code of R337, as LGL_CTX shows it. -/
def CtxPhase.code : CtxPhase → Nat
  | .admitted => 0
  | .reserved => 1
  | .ready => 2
  | .running => 3
  | .held => 4
  | .resetting => 5

/-- The policies after a degraded step (R136), in the encoding of SIEVE_FB_CFG. -/
inductive Policy where
  | cont
  | replayWide
  | hold
  deriving DecidableEq, Repr

/-- The code of SIEVE_FB_CFG.policy (R141). -/
def Policy.code : Policy → Nat
  | .cont => 0
  | .replayWide => 1
  | .hold => 2

/-- What ADMIT fixes for good (R343): class, policy, commons owner flag, HANG_TIMEOUT in ms, job seed, owner. -/
structure CtxConfig where
  reference : Bool
  policy : Policy
  commonsOwner : Bool
  hangMs : Nat
  seed : List Byte
  owner : BitVec 128
  deriving DecidableEq, Repr

/-- The counts of a reservation (R225, R344): per grain, per stack, per die and per copy engine. -/
structure Resv where
  top : List Nat
  sub : List Nat
  headroom : List Nat
  snap : List Nat
  poolSub : List Nat
  poolTop : List Nat
  counters : List Nat
  shares : List Nat
  snapSet : Nat
  deriving DecidableEq, Repr

/-- A binding of the context on a port (R311). -/
structure Binding where
  port : Nat
  number : Nat
  tag : Nat
  arrival : Nat
  deriving DecidableEq, Repr

/-- A window page mapped to a device page (R222). Pages of both are numbered as R252 numbers them: topsoil 0 to
16,383, subsoil from 16,384. -/
structure PageMap where
  win : Nat
  dev : Nat
  deriving DecidableEq, Repr

/-- The pages a reservation was given: window pages, fall-back headroom, snapshot area in order, the commons pool's
subsoil pages as window pages and its topsoil pages, and the fall-back window's pages mapped in this step (R134). -/
structure CtxPages where
  window : List PageMap
  headroom : List Nat
  area : List Nat
  poolTop : List Nat
  fallback : List PageMap
  deriving DecidableEq, Repr

/-- A scale descriptor (R92). -/
structure ScaleDesc where
  rotId : Nat
  rot : Nat
  track : Bool
  intErr : Nat
  fmt : Nat
  axis : Nat
  reserved : Nat
  base : Nat
  deriving DecidableEq, Repr

/-- A tensor descriptor (R269); `reservedOk` tells whether its reserved fields are 0, `scaleRaw` its 128 bits. -/
structure Tensor where
  base : Nat
  fmt : Nat
  low : Bool
  grow : Nat
  wvr : Bool
  d0 : Nat
  d1 : Nat
  d2 : Nat
  d3 : Nat
  stream : Nat
  wide : Nat
  sieve : Nat
  version : Nat
  len0 : Nat
  reservedOk : Bool
  scaleRaw : Nat
  scale : ScaleDesc
  deriving DecidableEq, Repr

/-- A stream directory entry with its instructions, eight words each (R251, R257). -/
structure PlanStream where
  path : Nat
  instrs : List (List Nat)
  deriving DecidableEq, Repr

/-- A commons table entry (R252). -/
structure CommonsEntry where
  id : Nat
  size : Nat
  home : Nat
  view : Nat
  places : List Nat
  counter : Nat
  deriving DecidableEq, Repr

/-- A plan as LOAD_PLAN accepted it: the image's place in the subsoil window, header fields and tables. -/
structure Plan where
  offset : Nat
  length : Nat
  kind : Nat
  depth : Nat
  overlap : Bool
  nFirst : Nat
  formats : Nat
  units : Nat
  streams : List PlanStream
  tensors : List Tensor
  args : List (List Byte)
  commons : List CommonsEntry
  marks : List Nat
  deriving DecidableEq, Repr

/-- How far a placed instruction has come: placed on its ped's queue, issued to its lane or accepted by its grains,
its effect done but not yet complete (R259), or retired. -/
inductive Phase where
  | placed
  | issued
  | executed
  | retired
  deriving DecidableEq, Repr

/-- One placed instruction (R266): stream directory index and index within the stream, its phase, the grains that
have accepted their share, the rdir of each grain sampled at issue (R66), when it was issued, the moment its wait timer started, and the
moment its gate wait will have lasted the stall threshold with whether UPDATE_STALL was logged for it (R181, R195). `upd` holds what a completing OPTIMISE reports: its contributor
count and three flags, [0] no contributor, [1] non-finite norm, [2] non-finite g (R195). `flags` are the IEEE flags its
elements raise on their grains, set when it retires (R66), and `masks` the mask word of each panel as it was read when the
panel's item entered a window (R169). -/
structure Placed where
  stream : Nat
  index : Nat
  phase : Phase
  accepted : List Nat
  rdir : List (Nat × Nat)
  issuedAt : Nat
  since : Option Nat
  gateDue : Option Nat
  stalled : Bool
  upd : Option (Nat × Nat)
  flags : List (Nat × Nat)
  masks : List (Nat × Nat)
  deriving DecidableEq, Repr

/-- A collective of a step in progress (R314 to R321): the contributions and result runs received by rank, the
stretch block and completion of RING_PASS, and when its timer started. -/
structure Coll where
  stream : Nat
  index : Nat
  maskTag : Word
  contribs : List (Nat × List Byte)
  counts : List (Nat × List Word)
  results : List Nat
  gathered : List Nat
  blockIn : Bool
  blockOut : Bool
  nonfinite : Bool
  since : Nat
  deriving DecidableEq, Repr

/-- The decision for a boundary (R268, R389): no snapshot, one that nobody is told of, one a SNAPSHOT asked for, or
one of the cadence. -/
inductive SnapMark where
  | no
  | silent
  | requested
  | cadence
  deriving DecidableEq, Repr

/-- A step in flight (R266, R319, R351): number, position tag, when RUN_STEP placed it, iteration of the loop, the run's
first iteration and its maximum token count in a generation run, the placed instructions, the contributor mask, the snapshot decision for its boundary (R268), the tensors that
have raised NONFINITE_SEEN in it (R83) and its collectives. -/
structure StepRun where
  step : Nat
  tag : Nat
  at_ : Nat
  iter : Nat
  first : Nat
  maxTokens : Nat
  placed : List Placed
  mask : BitVec 256
  snapDecided : Option SnapMark
  nonfinite : List Nat
  colls : List Coll
  deriving DecidableEq, Repr

/-- The Sieve's internal counters of one tensor's epoch (R122, R124): the twelve counts in the order of bytes 16 to
63 of its record. -/
structure SieveCounts where
  tensor : Nat
  step : Nat
  counts : List Nat
  deriving DecidableEq, Repr

/-- The Sieve's context state (R131 to R141): SIEVE_FB_CFG's RW fields, products granted and denied in the current
step, lent pages, status bits, and the step the grant was formed for. `jit` holds the steps in flight whose
instructions have used just-in-time scales (R140). -/
structure SieveRegs where
  satExp : Nat
  leachExp : Nat
  lent : Nat
  granted : List (Nat × Nat)
  denied : Nat
  grantStep : Option Nat
  jit : List Nat
  replay : Bool
  degraded : Bool
  fbSat : Bool
  marks : Bool
  counts : List SieveCounts
  deriving DecidableEq, Repr

/-- PED_UPD_CFG, PED_UPD_STATUS, PED_UPD_NORM and PED_UPD_CONTRIB (R195). -/
structure UpdRegs where
  stallMs : Nat
  stalls : Nat
  noContrib : Bool
  gradNonfinite : Bool
  normNonfinite : Bool
  norm : Nat
  contrib : Nat
  deriving DecidableEq, Repr

/-- Step and tag last completed, pos_wait, keys and block evaluations (R213, R215). -/
structure SprRegs where
  step : Nat
  tag : Nat
  posWait : Bool
  keys : Bool
  blocks : Nat
  deriving DecidableEq, Repr

/-- SYN_CFG and SYN_STATUS (R265) with the moment of the last WAIT_TIMEOUT (R264), RIN_COLL_CFG, RIN_COLL_STATUS, RIN_DROP and RIN_COLL_NONFIN (R323). -/
structure SynRegs where
  waitMs : Nat
  timedOut : Bool
  timedOutAt : Option Nat
  ref : Nat
  collMs : Nat
  collTimedOut : Bool
  restarted : Bool
  serial : Nat
  drop : Nat
  nonfin : Nat
  deriving DecidableEq, Repr

/-- LGL_HELD_CAUSE and LGL_NEXT_STEP (R361), TOP_ECC_CNT and SUB_SNAP_TOUCH (R247). -/
structure LglRegs where
  heldCode : Nat
  heldDetail : Nat
  nextStep : Nat
  topCe : Nat
  subCe : Nat
  touches : Nat
  deriving DecidableEq, Repr

/-- PED_RESET_STATUS, PED_CKPT_CFG, PED_CKPT_STATUS and PED_CKPT_MTBF (R391), with the last eight completion times
in ms and the reference point of the cadence (R389, R390). -/
structure ResetRegs where
  code : Nat
  count : Nat
  level : Nat
  ckptEnable : Bool
  mtbfMin : Nat
  intervalS : Nat
  costS : Nat
  mMin : Nat
  costs : List Nat
  reference : Option Nat
  faultTimes : List Nat
  deriving DecidableEq, Repr

/-- A context's registers on one grain (R65, R100, R162). -/
structure GrainRegs where
  rdir : Nat
  flags : Nat
  preferFwd : Bool
  skewExpect : Word
  skewFound : Word
  skewReader : Nat
  skewValid : Bool
  busy : List Nat
  starve : List Nat
  deriving DecidableEq, Repr

/-- A context's registers on one ped (R256, R478): the last fault's code, PWR_HINT and when the hint was written. -/
structure PathRegs where
  fault : Nat
  hintValid : Bool
  hintNext : Nat
  hintAt : Nat
  deriving DecidableEq, Repr

/-- The current snapshot of a context (R242 to R246): the slots' window pages in order, the area page that holds its
record, the pages still pending, those written since, the boundary's step and moment, whether it is complete, what
SNAPSHOT_DONE is to announce, and whether the plan now loaded is the one it was taken under (R137). -/
structure Snapshot where
  slots : List Nat
  area : Nat
  pending : List Nat
  dirty : List Nat
  step : Nat
  at_ : Nat
  complete : Bool
  announce : Option Nat
  ofPlan : Bool
  deriving DecidableEq, Repr

/-- How a context reset in progress began (R377, R384): its cause, its start, whether its stop phase has ended, the
boundary it will return to, whether it is part of a RELEASE (R346) and the partition resets it waits for (R383). -/
structure CtxReset where
  cause : Nat
  start : Nat
  stopped : Bool
  release : Bool
  dies : List Nat
  lost : Bool
  deriving DecidableEq, Repr

/-- An event for a session (R336): code, detail, context id or 0xFF, step, data words 8 to 15. -/
structure Notice where
  code : Nat
  detail : Nat
  ctx : Nat
  step : Nat
  data : List Nat
  deriving DecidableEq, Repr

/-- One context. `waits` keeps the wait each instruction showed last (R463), `early` the collective messages staged
before their collective starts here (R313, R316), `owed` the objects of a recorded residency set that it does not hold yet
(R234), and `recCfg` the window and headroom of each tracked tensor record
as the loaded plan found it (R139). -/
structure Ctx where
  id : Nat
  config : CtxConfig
  phase : CtxPhase
  session : Option Nat
  resv : Resv
  bindings : List Binding
  pages : CtxPages
  plan : Option Plan
  steps : List StepRun
  counters : List (Nat × Nat)
  attached : List Nat
  residency : List Nat
  owed : List Nat
  sieve : SieveRegs
  upd : UpdRegs
  spr : SprRegs
  syn : SynRegs
  lgl : LglRegs
  rst : ResetRegs
  grains : List (Nat × GrainRegs)
  paths : List (Nat × PathRegs)
  snap : Option Snapshot
  snapAsked : Bool
  holdAsked : Bool
  heldDegraded : Bool
  exporting : Bool
  reset : Option CtxReset
  waits : List (Nat × Nat × Nat)
  early : List CollMsg
  recCfg : List (Nat × Nat)
  events : List Notice
  eventsLost : Nat
  deriving DecidableEq, Repr

/-- A grain's registers when a context is admitted (R65, R100, R162). -/
def GrainRegs.init : GrainRegs :=
  { rdir := 0, flags := 0, preferFwd := false, skewExpect := 0, skewFound := 0, skewReader := 0,
    skewValid := false, busy := [0, 0, 0], starve := [0, 0, 0] }

/-- A ped's registers when a context is admitted (R256, R478). -/
def PathRegs.init : PathRegs := { fault := 0, hintValid := false, hintNext := 0, hintAt := 0 }

/-- An empty reservation. -/
def Resv.empty : Resv :=
  { top := [], sub := [], headroom := [], snap := [], poolSub := [], poolTop := [], counters := [], shares := [],
    snapSet := 0 }

/-- No page granted. -/
def CtxPages.empty : CtxPages := { window := [], headroom := [], area := [], poolTop := [], fallback := [] }

/-- The registers' values when a context is admitted: SIEVE (R141). -/
def SieveRegs.init : SieveRegs :=
  { satExp := 0, leachExp := 0, lent := 0, granted := [], denied := 0, grantStep := none, jit := [],
    replay := false, degraded := false, fbSat := false, marks := false, counts := [] }

/-- PED_UPD registers at admission (R195). -/
def UpdRegs.init : UpdRegs :=
  { stallMs := 0, stalls := 0, noContrib := false, gradNonfinite := false, normNonfinite := false, norm := 0,
    contrib := 0 }

/-- SPR registers at admission, the keys derived (R201, R215). -/
def SprRegs.init : SprRegs := { step := 0, tag := 0, posWait := false, keys := true, blocks := 0 }

/-- SYN and RIN_COLL registers at admission (R265, R323). -/
def SynRegs.init : SynRegs :=
  { waitMs := 0, timedOut := false, timedOutAt := none, ref := 0, collMs := 0, collTimedOut := false, restarted := false, serial := 0,
    drop := 0, nonfin := 0 }

/-- LGL and memory counts at admission (R247, R361). -/
def LglRegs.init : LglRegs :=
  { heldCode := 0, heldDetail := 0, nextStep := 0, topCe := 0, subCe := 0, touches := 0 }

/-- Reset registers at admission (R391): T 300 s, C 30 s, M 1,440 min. -/
def ResetRegs.init : ResetRegs :=
  { code := 0, count := 0, level := 0, ckptEnable := true, mtbfMin := 0, intervalS := 0x12C, costS := 0x1E,
    mMin := 0x5A0, costs := [], reference := none, faultTimes := [] }

/-- A context as ADMIT makes it (R343). -/
def Ctx.admitted (id : Nat) (config : CtxConfig) (session : Nat) : Ctx :=
  { id, config, phase := .admitted, session := some session, resv := .empty, bindings := [], pages := .empty,
    plan := none, steps := [], counters := [], attached := [], residency := [], owed := [], sieve := .init, upd := .init,
    spr := .init, syn := .init, lgl := .init, rst := .init, grains := [], paths := [], snap := none,
    snapAsked := false, holdAsked := false, heldDegraded := false, exporting := false, reset := none, waits := [], early := [],
    recCfg := [], events := [], eventsLost := 0 }

end Sys2Proof.Machine
end

