-- ==== Sys2Proof/Machine/DevState.lean ====
section
/-! DEFINITION. What the device holds beside its contexts: grain schedulers, commons objects, engines, links,
sessions, resets, boot and firmware, the Sediment log, power, background work and the test port. -/

namespace Sys2Proof.Machine

/-- A work item of an array product (R153): its instruction, item number, accept stamp (R155), whether it runs on
the backward path, whether it is a wide forward product, bsel, and GRN_SCHED.prefer_fwd when it entered a window. -/
structure Item where
  ref : InstrRef
  number : Nat
  stamp : Nat
  backward : Bool
  wide : Bool
  bsel : Nat
  preferFwd : Bool
  deriving DecidableEq, Repr

/-- A grain's operand-ready scheduler (R155 to R161): the accept count, the handshake queues (context, backward)
that have handed over an instruction in the present cycle, items waiting for a window, the forward
window (8 slots), the backward window (16 slots), what the three arrays run with the moment each started, and the
context that last entered each window. -/
structure Sched where
  accepts : Nat
  cycle : List (Nat × Bool)
  queue : List Item
  fwd : List Item
  bwd : List Item
  running : List (Nat × Item × Nat)
  turnFwd : Nat
  turnBwd : Nat
  deriving DecidableEq, Repr

/-- What is kept of one engine (R366 to R371): parity failures and engine resets by operating time, items run since
the last reset, the reset in progress with its start, the moment of its last retirement, and for a copy engine the bytes
it has moved since the chip reset (R448). -/
structure EngineRec where
  engine : Engine
  parity : List Nat
  resets : List Nat
  itemsSince : Option Nat
  resetting : Option (Nat × Nat)
  lastRetire : Nat
  moved : Nat
  deriving DecidableEq, Repr

/-- The residency states of R231. -/
inductive ObjPhase where
  | home
  | filling
  | resident
  | draining
  deriving DecidableEq, Repr

/-- A commons object (R229 to R233): owner context, its entry, home pages, resident pages, the contexts that hold
residency, the promotes waiting on the fill, granted identities, the fill's engine, and whether it is sealed. -/
structure CommonsObj where
  entry : CommonsEntry
  owner : Nat
  home : List Nat
  resident : List Nat
  phase : ObjPhase
  holders : List Nat
  waiters : List InstrRef
  grants : List (BitVec 128)
  engine : Nat
  deriving DecidableEq, Repr

/-- The commons arbiter (R231, R232): objects and the queue of promotes that wait for pool pages. -/
structure Arbiter where
  objects : List CommonsObj
  queue : List InstrRef
  deriving DecidableEq, Repr

/-- The port states of R300. -/
inductive PortPhase where
  | off
  | probe
  | train
  | auth
  | up
  | quarantine
  | retired
  deriving DecidableEq, Repr

/-- The state code of R300. -/
def PortPhase.code : PortPhase → Nat
  | .off => 0
  | .probe => 1
  | .train => 2
  | .auth => 3
  | .up => 4
  | .quarantine => 5
  | .retired => 6

/-- RIN_CFG and RIN_TIMERS (R322). -/
structure PortCfg where
  cryptReq : Bool
  serExp : Nat
  ucw : Nat
  malThr : Nat
  quarS : Nat
  starveMs : Nat
  deriving DecidableEq, Repr

/-- A message being received on a VC for a binding: destination, length in bytes, bytes written (R312). -/
structure RxMsg where
  vc : Nat
  bind : Nat
  dest : Nat
  total : Nat
  done : Nat
  bad : Bool
  deriving DecidableEq, Repr

/-- A message waiting to be sent on a VC, for a binding of this package by its number here: the bytes still to send,
whether its head flit has gone (R298, R312), since when it waits, and the partner's binding number where it is settled when
the message is queued. -/
structure OutMsg where
  vc : Nat
  bind : Nat
  started : Bool
  since : Nat
  peer : Option Nat
  bytes : List Byte
  deriving DecidableEq, Repr

/-- The link layer of a port (R298, R299): next sequence to send and to expect, credits held per VC, credits owed to
the sender per VC, waiting messages, the replay buffer with how often each flit was sent again, flits to send again,
whether a retry was asked for and is still to be asked for, the VCs of the flits sent of late for the 1/16 shares, when
each VC last spent or was short of its last credit, the data and collective turn, the binding that last had its turn on each VC, the flit last put on the wire, messages
received in part, and when an ack last moved. -/
structure Link where
  txSeq : Nat
  rxSeq : Nat
  credits : List Nat
  owed : List Nat
  waiting : List OutMsg
  replay : List (Flit × Nat)
  resend : List Flit
  retryAsked : Bool
  retryPending : Bool
  recent : List Nat
  dryAt : List Nat
  dataTurn : Bool
  turns : List Nat
  sent : List Flit
  messages : List RxMsg
  lastAckAt : Nat
  deriving DecidableEq, Repr

/-- This side of a link handshake (R309): its hello's nonce, its ephemeral ECDH key, and the messages it has sent on the
management VC. -/
structure Handshake where
  nonce : List Byte
  secret : Nat
  sent : List (List Byte)
  deriving DecidableEq, Repr

/-- A Rinan port (R300 to R311, R322, R467). `starved` tells of each VC whether it is credit-starved; `keyTx` and `keyRx`
are the link keys of the two directions, with the flits counted on each. `recal` is the data lane in recalibration: in `lanes` it is carried by the
calibration lane, outside it is out of service; `calOk` is the calibration lane's last lane test. -/
structure Port where
  phase : PortPhase
  lanes : Nat
  crypt : Bool
  fabric : Bool
  starved : List Bool
  recal : Option Nat
  calOk : Bool
  epoch : Nat
  cfg : PortCfg
  peer : BitVec 128
  retries : Nat
  quarantines : Nat
  laneRet : Nat
  stale : Nat
  malformed : Nat
  malInterval : Nat
  malSec : Nat
  selfTestFails : Nat
  widthChange : Bool
  link : Link
  partner : List (Nat × Nat)
  handshake : Handshake
  keyTx : List Byte
  keyRx : List Byte
  keyGen : Nat
  keyFlits : Nat
  rxFlits : Nat
  keyAt : Nat
  quarUntil : Nat
  quarHold : Nat
  sentBytes : Nat
  receivedBytes : Nat
  returning : Bool
  deriving DecidableEq, Repr

/-- A Ligil connection (R326, R327): its front port, roles and client identity; `session` when HELLO opened one. -/
structure Conn where
  id : Nat
  front : Nat
  roles : BitVec 3
  identity : BitVec 128
  session : Option Nat
  deriving DecidableEq, Repr

/-- A command slot's content as the client finds it (R331, R332): owner, words 0 to 3 and results. -/
structure CmdSlot where
  number : Nat
  owner : BitVec 2
  code : Nat
  seq : Nat
  status : Nat
  detail : Nat
  words : List Nat
  payload : List Byte
  deriving DecidableEq, Repr

/-- An event slot handed to the client (R332, R336); its code in word 0 is 0x00F0 (R331). -/
structure EvSlot where
  number : Nat
  code : Nat
  seq : Nat
  lost : Nat
  notice : Notice
  deriving DecidableEq, Repr

/-- An open bulk handle (R350, R357): context, direction, target, range, and whether it is an export's. -/
structure Handle where
  id : Nat
  ctx : Nat
  inward : Bool
  area : Bool
  start : Nat
  length : Nat
  exporting : Bool
  deriving DecidableEq, Repr

/-- A bulk frame the device has sent for an open handle (R350). -/
structure BulkOut where
  handle : Nat
  offset : Nat
  data : List Byte
  deriving DecidableEq, Repr

/-- What a session's command waits for before its response is sent (R228, R346, R352, R360, R465). An engine reset
is named by its grain's or copy engine's ped path; `inside` tells that the part was already inside a reset when the
command arrived (R383). -/
inductive Busy where
  | hold (ctx : Nat)
  | release (ctx : Nat)
  | reserve (ctx : Nat)
  | contextReset (ctx : Nat) (inside : Bool)
  | engineReset (path : Nat) (inside : Bool)
  | partitionReset (die : Nat) (inside : Bool)
  deriving DecidableEq, Repr

/-- A session (R329 to R336): connection (none once it has closed), roles, identity, next sequence, slots, queued
events, handles, and the command being executed with its slot. -/
structure Session where
  id : Nat
  conn : Nat
  roles : BitVec 3
  identity : BitVec 128
  nextSeq : Nat
  hello : Bool
  slots : List CmdSlot
  evSlots : List EvSlot
  events : List Notice
  eventSeq : Nat
  lost : Nat
  handles : List Handle
  busy : List (Busy × Slot)
  deriving DecidableEq, Repr

/-- Ligil as a whole: connections, sessions, commands that wait at the device (R228, R334, R335), the next bulk
handle, the bulk frames sent for handles still open, and the responses sent over connections that closed with them
(R329), by connection. -/
structure Ligil where
  conns : List Conn
  sessions : List Session
  deferred : List Instr
  nextHandle : Nat
  frames : List BulkOut
  parting : List (Nat × CmdSlot)
  deriving DecidableEq, Repr

/-- The phases of a partition reset (R379). -/
inductive PartPhase where
  | stop
  | dump
  | retire
  | train
  | zero
  deriving DecidableEq, Repr

/-- A partition reset in progress (R376, R379). -/
structure PartReset where
  die : Nat
  cause : Nat
  phase : PartPhase
  start : Nat
  seq : Nat
  included : List Nat
  deriving DecidableEq, Repr

/-- Resets and retirements (R365 to R384): partition resets in progress, the chip reset in progress (cause, start), the
chip reset that a command asked for and that has not begun (cause, request; R360), the cause of the last one, for
sessions opened after it, the chip reset history in operating seconds, the failures of R390, grains and copy engines
judged failed, the dies for which a judgement has requested a partition reset (R34), and whether a power cycle holds the device (R381). -/
structure Resets where
  parts : List PartReset
  chip : Option (Nat × Nat)
  asked : Option (Nat × Nat)
  lastChip : Option Nat
  chipTimes : List Nat
  failures : List Nat
  judged : List Nat
  judgedCopy : List Nat
  wanted : List Nat
  powerHold : Bool
  deriving DecidableEq, Repr

/-- The phases of R403, the recovery of R407, and the states in which nothing runs (R454 to R456). -/
inductive BootPhase where
  | off
  | held
  | romStart
  | identity
  | records
  | bankLoad
  | handover
  | firmware
  | running
  | recovery
  | stopping
  deriving DecidableEq, Repr

/-- What a bank's image area or staging area holds. The factory image is the one a package is shipped with, whose
bytes the spec does not give. -/
inductive BankImage where
  | erased
  | factory
  | image (bytes : List Byte)
  deriving DecidableEq, Repr

/-- A flash record (R395) with its signature; `digest` is the unit it is bound to. -/
structure FlashRec where
  kind : Nat
  fmt : Nat
  seq : Nat
  digest : BitVec 128
  signer : Nat
  body : List Byte
  sig : List Byte
  deriving DecidableEq, Repr

/-- The update states of R412. -/
inductive UpdPhase where
  | idle
  | receiving
  | applying
  | staged
  | armed
  | trial
  | confirmed
  deriving DecidableEq, Repr

/-- The update state code of R412. -/
def UpdPhase.code : UpdPhase → Nat
  | .idle => 0
  | .receiving => 1
  | .applying => 2
  | .staged => 3
  | .armed => 4
  | .trial => 5
  | .confirmed => 6

/-- The boot control record's body (R406). -/
structure BootCtl where
  active : Nat
  staged : Bool
  armed : Bool
  trial : Bool
  tried : Bool
  upd : Nat
  sver : Nat
  digest : List Byte
  deriving DecidableEq, Repr

/-- A code's configuration (R446). -/
structure CodeCfg where
  code : Nat
  rate : Bool
  burst : Nat
  p : Nat
  set : Nat
  deriving DecidableEq, Repr

/-- What a firmware's settings keep of what commands set (R434, R437, R446, R459): the power limit and clock cap, the
configured codes and the snapshot sets. -/
structure Settings where
  limitW : Nat
  capMhz : Nat
  cfgs : List CodeCfg
  sets : List (Nat × List Nat)
  deriving DecidableEq, Repr

/-- The two flash devices (R394 to R397): FLASH0 holds bank A, its staging area, settings A, records copy 0 and the two RPMC
counters, FLASH1 bank B, its staging area, settings B and records copy 1. What
the records say as of the boot or of the last write: boot control, retirements, power-cycle count; `settingsOnly` tells that
the last two are kept in settings alone, and `recFmtBoth` holds the old firmware's record format while a trial firmware
writes records in both (R418). -/
structure Flash where
  bankA : BankImage
  bankB : BankImage
  stagingA : List Byte
  stagingB : List Byte
  records0 : List FlashRec
  records1 : List FlashRec
  rollback : Nat
  fleetSeq : Nat
  control : Option BootCtl
  retiredGrains : BitVec 256
  retiredPorts : BitVec 32
  retiredCopy : BitVec 64
  retiredPages : List Nat
  settingsOnly : Bool
  pcc : Nat
  setA : Settings
  setB : Settings
  recFmtBoth : Option Nat
  deriving DecidableEq, Repr

/-- Boot, identity and the running firmware (R398 to R422). -/
structure Boot where
  phase : BootPhase
  lockOpen : Bool
  prot : BitVec 6
  ident : Bool
  fallback : Bool
  fleet : Bool
  trial : Bool
  bank : Nat
  sver : Nat
  display : Nat
  setfmt : Nat
  recfmt : Nat
  digest : List Byte
  upd : UpdPhase
  offer : Option (Nat × List Byte)
  handoverAt : Nat
  jtagRecord : Bool
  pwrGood : Bool
  pkgResetN : Bool
  cold : Bool
  thermHold : Bool
  resetCause : Nat
  deriving DecidableEq, Repr

/-- A raised event on its way to the writer (R428): code, detail, source ped path, context id or 0xFF, and the
words its record holds beside any snapshot set (R130). -/
structure Event where
  code : Nat
  detail : Nat
  src : Nat
  ctx : Nat
  words : List Nat
  deriving DecidableEq, Repr

/-- A record of the log (R425). -/
structure SedRec where
  code : Nat
  sev : Nat
  src : Nat
  rep : Nat
  detail : Nat
  time : Nat
  pcc : Nat
  seq : Nat
  ctx : Nat
  flags : Nat
  snap : List Nat
  supp : Nat
  span : Nat
  deriving DecidableEq, Repr

/-- A code's token bucket (R432): tokens left and the moment in ms the next token is timed from; suppressed
occurrences since its last record. -/
structure Bucket where
  code : Nat
  tokens : Nat
  since : Nat
  supp : Nat
  deriving DecidableEq, Repr

/-- A crash dump (R442): the reset record it belongs to and its bytes. -/
structure Dump where
  seq : Nat
  bytes : List Byte
  deriving DecidableEq, Repr

/-- The Sediment log (R425 to R443). `bus` holds events at their islands, `queue` the writer's places. Operating time is
`opMs` and what has passed since the always-on domain was powered at `onAt`; `savedMs` is its value at the last flush. -/
structure Sed where
  bus : List Event
  queue : List Event
  ring : List SedRec
  flash : List SedRec
  nextSeq : Nat
  flushed : Nat
  openRec : Bool
  lastFold : Nat
  cfgs : List CodeCfg
  buckets : List Bucket
  sets : List (Nat × List Nat)
  lostPending : Nat
  lost : Nat
  written : Nat
  suppressed : Nat
  opMs : Nat
  onAt : Nat
  savedMs : Nat
  dump : Option Dump
  dumpFlash : Option Dump
  dumpCopying : Bool
  deriving DecidableEq, Repr

/-- The power state of a unit (R462 to R464): state code, the state being entered with whether its clock has
stopped, a wake in progress, a queued enable, a queued shutdown, and when the unit became idle. -/
structure UnitPower where
  state : Nat
  entering : Option (Nat × Nat)
  waking : Bool
  wakePending : Bool
  shutPending : Option Nat
  idleSince : Nat
  deriving DecidableEq, Repr

/-- Limits, caps, brake, reference clocks, the power samples of the last 10 ms and for how many the mean has been low,
the trim of each island's generator, core voltages, sensors, pins and in-band interrupts (R451 to R471, R479). Caps and
trims are in steps of 15.625 MHz. -/
structure Power where
  units : List (Nat × UnitPower)
  capMhz : Nat
  limitW : Nat
  loopCap : Nat
  thermalCap : List Nat
  throttle : List Bool
  throttleUs : List Nat
  doubled : List Bool
  brake : Bool
  brakeAt : Nat
  limited : Bool
  sysLost : Bool
  sdsLost : List Bool
  history : List Nat
  sinceLow : Nat
  trims : List (Nat × Nat)
  voltage : List Nat
  temps : List (Nat × Int)
  faultN : Bool
  thermN : Bool
  ibi : List Nat
  deriving DecidableEq, Repr

/-- Background work (R237 to R241, R466, R467): withheld and retired pages, pages that wait for zeroing, words with
an uncorrectable error, subsoil words found uncorrectable whose row is not yet spared, corrected-error passes by row, spare rows used by bank, rewrite recurrences, lanes and
channels last served, and the tasks in a forced slot. -/
structure Background where
  withheld : List Nat
  retired : List Nat
  zeroing : List Nat
  ueWords : List Nat
  subUe : List Nat
  rowPasses : List (Nat × Nat)
  sparesUsed : List (Nat × Nat)
  topUe : List Nat
  scrubbed : List (Nat × Nat)
  recals : List (Nat × Nat)
  retrained : List (Nat × Nat)
  erased : List Nat
  forced : BitVec 8
  sample : List Byte
  samples : Nat
  deriving DecidableEq, Repr

/-- The units in service (R10, R35): one bit per grain, port and copy engine, and the stacks' good pages. -/
structure Caps where
  grains : BitVec 256
  ports : BitVec 32
  copyEngines : BitVec 64
  formats : BitVec 10
  units : BitVec 5
  stepping : Nat
  deriving DecidableEq, Repr

end Sys2Proof.Machine
end

