-- ==== Sys2Proof/Machine/State.lean ====
section
/-! DEFINITION. The state of the block, plain data, and the state after reset. -/

namespace Sys2Proof.Machine

/-- Why the block stops with a fault. -/
inductive Fault where
  /-- Raised by TAP_INSTRUCTION for one of Tuinel's private debug instructions while LGL_PROT_CFG.jtag is 1
  (R477): it acts on a debug unit and the spec gives no effect of it. Safe: nothing is claimed of what follows. -/
  | debugInstruction (code : Nat)
  deriving DecidableEq, Repr

/-- Why the block refuses a command. -/
inductive Refusal where
  /-- Raised by exec for a row that has no meaning yet. Safe. -/
  | notModelled (mnemonic : String)
  deriving DecidableEq, Repr

/-- The block. -/
structure State where
  /-- Commands that wait, first in first out. -/
  pending : List Instr
  /-- Time in µs since the state after reset. -/
  now : Nat
  /-- The model's own counter: how many free values have been drawn (log entry 5). -/
  free : Nat
  caps : Caps
  /-- Topsoil and subsoil by device address (R218); an address not listed reads as 0 (log entry 2). -/
  mem : List Host.Cell
  ctxs : List Ctx
  arbiter : Arbiter
  scheds : List (Nat × Sched)
  engines : List EngineRec
  ports : List Port
  ligil : Ligil
  resets : Resets
  boot : Boot
  flash : Flash
  sed : Sed
  power : Power
  bg : Background
  /-- The instruction the test access port holds (R477). -/
  tap : TapInstr
  deriving DecidableEq, Repr

/-- A port's link layer at the start of an epoch (R298, R303): sequence 0 and full credits. -/
def Link.fresh : Link :=
  { txSeq := 0, rxSeq := 0, credits := [512, 512, 64, 64], owed := [0, 0, 0, 0], waiting := [], replay := [],
    resend := [], retryAsked := false, retryPending := false, recent := [], dryAt := [0, 0, 0, 0], dataTurn := true, turns := [0, 0, 0, 0],
    sent := [],
    messages := [], lastAckAt := 0 }

/-- The Reset column of R322. -/
def PortCfg.init : PortCfg :=
  { cryptReq := false, serExp := 0x0A, ucw := 4, malThr := 0x40, quarS := 0x12C, starveMs := 0x0A }

/-- A port that has just entered PROBE after a reset (R300, R322). -/
def Port.init : Port :=
  { phase := .probe, lanes := 0, crypt := false, fabric := false, starved := [false, false, false, false], recal := none, calOk := true, epoch := 0,
    cfg := .init, peer := 0, retries := 0, quarantines := 0, laneRet := 0, stale := 0, malformed := 0,
    malInterval := 0, malSec := 0, selfTestFails := 0, widthChange := false, link := .fresh, partner := [],
    handshake := { nonce := [], secret := 0, sent := [] }, keyTx := [], keyRx := [], keyGen := 0, keyFlits := 0, rxFlits := 0, keyAt := 0, quarUntil := 0, quarHold := 0, sentBytes := 0, receivedBytes := 0,
    returning := false }

/-- Session 0, which always exists (R328): operator role, no certificate. -/
def Session.zero : Session :=
  { id := 0, conn := 0, roles := 0b100, identity := 0, nextSeq := 0, hello := false, slots := [], evSlots := [],
    events := [], eventSeq := 0, lost := 0, handles := [], busy := [] }

/-- No client yet (R330). -/
def Ligil.init : Ligil := { conns := [], sessions := [Session.zero], deferred := [], nextHandle := 1, frames := [], parting := [] }

/-- R434's configuration: every code not listed uses repeat mode. -/
def Sed.defaults : List CodeCfg :=
  [0x2101, 0x2201].map (fun c => { code := c, rate := true, burst := 32, p := 10, set := 0 }) ++
  [0x3101, 0x3107, 0x3108].map (fun c => { code := c, rate := true, burst := 16, p := 8, set := 0 }) ++
  [0x1001, 0x1002, 0x1003].map (fun c => { code := c, rate := true, burst := 8, p := 12, set := 0 }) ++
  [0x1101, 0x1103].map (fun c => { code := c, rate := false, burst := 1, p := 0, set := 1 })

/-- Snapshot set 1 (R435). -/
def Sed.defaultSets : List (Nat × List Nat) := [(1, [0x80FFF080, 0x80FFF084, 0x80FFF088])]

/-- The settings of a firmware that nothing has changed (R434, R435, R459). -/
def Settings.init : Settings := { limitW := 3200, capMhz := 2000, cfgs := Sed.defaults, sets := Sed.defaultSets }

/-- The record of kind 0x0013 that a package is shipped with (R396, log entry 7). -/
def FlashRec.shipped : FlashRec :=
  { kind := 0x13, fmt := 0, seq := 0, digest := 0, signer := 0, body := Config.unitRecordBody, sig := Config.unitRecordSig }

/-- Flash of a package as shipped: bank A holds the factory image, bank B nothing (log entry 7). -/
def Flash.factory : Flash :=
  { bankA := .factory, bankB := .erased, stagingA := [], stagingB := [], records0 := [.shipped], records1 := [.shipped],
    rollback := 0, fleetSeq := 0, control := none, retiredGrains := 0, retiredPorts := 0, retiredCopy := 0,
    retiredPages := [], settingsOnly := false, pcc := 0, setA := .init, setB := .init, recFmtBoth := none }

/-- The boot state once bank A's factory image runs and accepts HELLO (R403, R408, R409). -/
def Boot.running : Boot :=
  { phase := .running, lockOpen := false, prot := 0b011011, ident := true, fallback := false, fleet := false,
    trial := false, bank := 0, sver := 0, display := 0, setfmt := 0, recfmt := 0, digest := [], upd := .idle,
    offer := none, handoverAt := 0, jtagRecord := false, pwrGood := true, pkgResetN := true,
    cold := false, thermHold := false, resetCause := 0 }

/-- An empty log with the default configuration and snapshot set 1 (R434, R435). -/
def Sed.init : Sed :=
  { bus := [], queue := [], ring := [], flash := [], nextSeq := 1, flushed := 1, openRec := false, lastFold := 0,
    cfgs := Sed.defaults, buckets := [], sets := Sed.defaultSets, lostPending := 0,
    lost := 0, written := 0, suppressed := 0, opMs := 0, onAt := 0, savedMs := 0, dump := none, dumpFlash := none, dumpCopying := false }

/-- Power at the default limit and cap (R459, R479), every unit active (R462). -/
def Power.init : Power :=
  { units := [], capMhz := 2000, limitW := 3200, loopCap := 128, thermalCap := [128, 128, 128, 128],
    throttle := [false, false, false, false], throttleUs := [0, 0, 0, 0], doubled := List.replicate 12 false,
    brake := false, brakeAt := 0, limited := false, sysLost := false, sdsLost := [false, false, false, false],
    history := [], sinceLow := 0, trims := [], voltage := [750, 750, 750, 750],
    temps := [], faultN := true, thermN := true, ibi := [] }

/-- No page withheld and nothing to zero. -/
def Background.init : Background :=
  { withheld := [], retired := [], zeroing := [], ueWords := [], subUe := [], rowPasses := [], sparesUsed := [], topUe := [],
    scrubbed := [], recals := [], retrained := [], erased := [], forced := 0, sample := [], samples := 0 }

/-- Every unit in service, stepping B0 (R10, R35, R401; log entry 7). -/
def Caps.full : Caps :=
  { grains := BitVec.allOnes 256, ports := BitVec.allOnes 32, copyEngines := BitVec.allOnes 64,
    formats := 0x3FF, units := 0x1F, stepping := 0x10 }

/-- The block when a chip reset has ended and the firmware accepts HELLO (R374, R380, R403; log entry 1). -/
def State.reset : State :=
  { pending := [], now := 0, free := 0, caps := .full, mem := [], ctxs := [], arbiter := { objects := [], queue := [] },
    scheds := [], engines := [], ports := List.replicate 32 Port.init, ligil := .init,
    resets := { parts := [], chip := none, asked := none, lastChip := none, chipTimes := [], failures := [], judged := [], judgedCopy := [], wanted := [],
                powerHold := false },
    boot := .running, flash := .factory, sed := .init, power := .init, bg := .init, tap := .idcode }

end Sys2Proof.Machine
end

