-- ==== Sys2Proof/Machine/Ops.lean ====
section
/-! DEFINITION. The named operations over the state: keyed lists, memory in its canonical form, contexts, window
translation (R222), reads and writes through a context's window, events, and free values. -/

namespace Sys2Proof.Machine

/-- What an exec answers. -/
abbrev Out := Host.Outcome State Fault Refusal

/-! ## Keyed lists -/

/-- The value at a key, or `d`. -/
def getKey {α : Type} (d : α) (l : List (Nat × α)) (k : Nat) : α :=
  match l.find? (fun p => p.1 == k) with
  | some p => p.2
  | none => d

/-- The list with the value at a key replaced or added. -/
def setKey {α : Type} : List (Nat × α) → Nat → α → List (Nat × α)
  | [], k, v => [(k, v)]
  | p :: ps, k, v => if p.1 = k then (k, v) :: ps else p :: setKey ps k v

/-- Adds an element to a list that holds no repeats. -/
def insertNew {α : Type} [BEq α] (l : List α) (a : α) : List α := if l.contains a then l else l ++ [a]

/-- Replaces position `i` of a list by `f` of it. -/
def modifyAt {α : Type} (l : List α) (i : Nat) (f : α → α) : List α := l.modify i f

/-- The sum of a list. -/
def sumNat (l : List Nat) : Nat := l.foldl (· + ·) 0

/-! ## Memory -/

/-- What an address that is not listed reads as (R380: memory is zeroed before the first HELLO; log entry 2). -/
def unlisted : Byte := 0

/-- The canonical form: addresses strictly rising, no entry equal to `unlisted`. -/
def Memory.wf : List Host.Cell → Bool
  | [] => true
  | [c] => c.2 != unlisted
  | c :: d :: cs => decide (c.1 < d.1) && (c.2 != unlisted) && Memory.wf (d :: cs)

/-- One byte of memory. -/
def memRead (m : List Host.Cell) (a : Nat) : Byte :=
  match m.find? (fun c => c.1 == a) with
  | some c => c.2
  | none => unlisted

/-- The list with the cells from `lo` on, `len` bytes long, replaced by `cells`. -/
def memSplice (m : List Host.Cell) (lo len : Nat) (cells : List Host.Cell) : List Host.Cell :=
  m.takeWhile (fun c => decide (c.1 < lo)) ++ cells ++
  (m.dropWhile fun c => decide (c.1 < lo)).filter fun c => !(decide (lo ≤ c.1) && decide (c.1 < lo + len))

/-- The cells of bytes at consecutive addresses. -/
def cellsAt : Nat → List Byte → List Host.Cell
  | _, [] => []
  | a, b :: bs => if b = unlisted then cellsAt (a + 1) bs else (a, b) :: cellsAt (a + 1) bs

/-- Bytes written at consecutive addresses. -/
def memWriteList (m : List Host.Cell) (a : Nat) (bs : List Byte) : List Host.Cell :=
  memSplice m a bs.length (cellsAt a bs)

/-- A range of `len` bytes set to 0 (R239). -/
def memZero (m : List Host.Cell) (lo len : Nat) : List Host.Cell :=
  m.filter (fun c => !(decide (lo ≤ c.1) && decide (c.1 < lo + len)))

/-- `n` bytes from an address on, of cells that start at it or above. -/
def memRun : Nat → List Host.Cell → Nat → List Byte
  | 0, _, _ => []
  | n + 1, [], a => unlisted :: memRun n [] (a + 1)
  | n + 1, c :: cs, a => if c.1 = a then c.2 :: memRun n cs (a + 1) else unlisted :: memRun n (c :: cs) (a + 1)

/-- `n` bytes from an address. -/
def memBytes (m : List Host.Cell) (a n : Nat) : List Byte := memRun n (m.dropWhile fun c => decide (c.1 < a)) a

/-! ## Pages (R218, R219, R252) -/

/-- Bytes of a page. -/
def pageSize : Nat := 0x200000

/-- The address of page `p`, numbered as the snapshot mark bitmap numbers window pages: 0 to 16,383 topsoil, then
subsoil. Device pages and window pages lie at equal addresses and offsets (R218, R222). -/
def pageAddr (p : Nat) : Nat := if p < 16384 then p * pageSize else 0x1000000000 + (p - 16384) * pageSize

/-- The page of an address in the topsoil or subsoil range; none outside both. -/
def pageOf? (a : Nat) : Option Nat :=
  if a < 0x800000000 then some (a / pageSize)
  else if 0x1000000000 ≤ a && a < 0xA000000000 then some (16384 + (a - 0x1000000000) / pageSize)
  else none

/-- The die of a device page (R17, R218). -/
def pageDie (p : Nat) : Nat := if p < 16384 then p / 4096 else (p - 16384) / 73728

/-- The grain of a topsoil page. -/
def pageGrain (p : Nat) : Nat := p / 64

/-- The stack of a subsoil page (R218). -/
def pageStack (p : Nat) : Nat := (p - 16384) / 24576

/-- Copies one page to another. -/
def memCopyPage (m : List Host.Cell) (src dst : Nat) : List Host.Cell :=
  let cells := m.filter fun c => decide (pageAddr src ≤ c.1) && decide (c.1 < pageAddr src + pageSize)
  memSplice m (pageAddr dst) pageSize (cells.map fun c => (pageAddr dst + (c.1 - pageAddr src), c.2))

/-- The part of a range of `n` bytes from `off` on that lies in the page of `off`. -/
def pagePart (off n : Nat) : Nat := min n (pageSize - off % pageSize)

/-! ## Contexts -/

/-- The context with an id. -/
def State.ctx? (s : State) (id : Nat) : Option Ctx := s.ctxs.find? (fun c => c.id == id)

/-- The state with one context's record replaced by `f` of it. -/
def State.mapCtx (s : State) (id : Nat) (f : Ctx → Ctx) : State :=
  { s with ctxs := s.ctxs.map fun c => if c.id = id then f c else c }

/-- A context's registers on a grain. -/
def Ctx.grain (c : Ctx) (g : Nat) : GrainRegs := getKey .init c.grains g

/-- Replaces a context's registers on a grain. -/
def Ctx.setGrain (c : Ctx) (g : Nat) (r : GrainRegs) : Ctx := { c with grains := setKey c.grains g r }

/-- A context's registers on a ped path. -/
def Ctx.path (c : Ctx) (p : Nat) : PathRegs := getKey .init c.paths p

/-- Replaces a context's registers on a ped path. -/
def Ctx.setPath (c : Ctx) (p : Nat) (r : PathRegs) : Ctx := { c with paths := setKey c.paths p r }

/-- A counter's value (R260); 0 when never signalled. -/
def Ctx.counter (c : Ctx) (i : Nat) : Nat := getKey 0 c.counters i

/-- Whether a counter index lies within the reservation of its die (R260, R261). -/
def Ctx.hasCounter (c : Ctx) (i : Nat) : Bool := decide (i % 32768 < c.resv.counters.getD (i / 32768) 0) && decide (i < 131072)

/-! ## Events and free values -/

/-- An event sent to the writer's bus (R428). -/
def State.raise (s : State) (code detail src ctx : Nat) : State :=
  { s with sed := { s.sed with bus := s.sed.bus ++ [{ code, detail := min detail 0xFFFF, src, ctx, words := [] }] } }

/-- The package's own ped path (R22). -/
def pkgPath : Nat := 0x400

/-- The context id of a device-wide event (R425). -/
def noCtx : Nat := 0xFF

/-- Draws the next free value. -/
def State.draw (s : State) : Nat × State := (s.free, { s with free := s.free + 1 })

/-! ## Window translation (R222, R223, R230, R232, R135) -/

/-- The device address and writability of one byte of an object's view: home or resident pages. -/
def viewAddr (pages : List Nat) (view size base off : Nat) : Option Nat :=
  let rel := off - base
  if base ≤ off && view ≤ rel && rel < view + size * pageSize then
    (pages[(rel - view) / pageSize]?).map fun p => pageAddr p + (rel - view) % pageSize
  else none

/-- Whether a device page is the home of a sealed object (R229). -/
def State.sealedPage (s : State) (p : Nat) : Bool := s.arbiter.objects.any fun o => o.home.contains p

/-- Whether a window offset lies in the loaded plan's image, whose pages are read-only (R349). -/
def Ctx.planPage (c : Ctx) (win : Nat) : Bool :=
  match c.plan with
  | none => false
  | some p => decide (pageAddr win < p.offset + p.length) && decide (p.offset < pageAddr win + pageSize)

/-- The device address of a window offset and whether a write is permitted; none where nothing is mapped. A context has
one window, with the absolute slice offsets of R222 and R223, for the streams of every ped: R23 speaks of each ped's own
topsoil window from offset 0, and its Example 1 of that window's length, and neither gives the one its place in the other
(log entry 132). A page that still waits for its zeroing is not granted yet, and is mapped once it is zeroed (R239). -/
def State.translate (s : State) (c : Ctx) (off : Nat) : Option (Nat × Bool) :=
  match pageOf? off with
  | some w =>
    match c.pages.window.find? (fun m => m.win == w) with
    | some m =>
      if s.bg.zeroing.contains m.dev then none
      else some (pageAddr m.dev + off % pageSize, !(s.sealedPage m.dev) && !(c.planPage w))
    | none => none
  | none =>
    if 0xC000000000 ≤ off && off < 0xD000000000 then
      (s.arbiter.objects.findSome? fun o =>
        if c.residency.contains o.entry.id then viewAddr o.resident o.entry.view o.entry.size 0xC000000000 off
        else none).map fun a => (a, false)
    else if 0xD000000000 ≤ off && off < 0xE000000000 then
      (s.arbiter.objects.findSome? fun o =>
        if c.attached.contains o.entry.id then viewAddr o.home o.entry.view o.entry.size 0xD000000000 off
        else none).map fun a => (a, false)
    else if 0xE000000000 ≤ off && off < 0xFF00000000 then
      match c.pages.fallback.find? (fun m => m.win == (off - 0xE000000000) / pageSize) with
      | some m => some (pageAddr m.dev + off % pageSize, true)
      | none => none
    else none

/-- What a scale reader found (R97, R100): code, detail, the grain or ped that reads, and expected header, found header
and reader. -/
structure Mismatch where
  code : Nat
  detail : Nat
  src : Nat
  expect : Nat
  found : Nat
  reader : Nat
  deriving DecidableEq, Repr

/-- Why an operation stopped (R98): its code, detail, the grain or ped path that found it where one did, the mismatch
behind it, and what another reader found at the same time. -/
structure Fail where
  code : Nat
  detail : Nat
  src : Option Nat
  skew : Option Mismatch
  also : List Mismatch
  deriving DecidableEq, Repr

/-- A scale mismatch as a failure (R97). -/
def Mismatch.fail (m : Mismatch) : Fail :=
  { code := m.code, detail := m.detail, src := some m.src, skew := some m, also := [] }

/-- A failure with no source of its own. -/
def Fail.mk' (code detail : Nat) : Fail := { code, detail, src := none, skew := none, also := [] }

/-- WINDOW_VIOLATION (R222). -/
def windowViolation : Fail := Fail.mk' 0x2002 0

/-- The uncorrectable error at a device address, if its code word holds one (R237): code words are 8 bytes in
topsoil and 32 in subsoil. -/
def State.ueAt (s : State) (a : Nat) : Option Fail :=
  if a < 0x800000000 then (if s.bg.ueWords.contains (a / 8 * 8) then some (Fail.mk' 0x2102 0) else none)
  else if s.bg.ueWords.contains (a / 32 * 32) then some (Fail.mk' 0x2202 0)
  else none

/-- The uncorrectable error within a range of one page, if any (R237). -/
def State.ueIn (s : State) (a n : Nat) : Option Fail :=
  let w := if a < 0x800000000 then 8 else 32
  if s.bg.ueWords.any fun u => decide (a / w * w ≤ u) && decide (u < a + n) then
    some (Fail.mk' (if a < 0x800000000 then 0x2102 else 0x2202) 0)
  else none

/-- `n` bytes read through a context's window, page by page; `k` bounds the pages. -/
def State.rdPages (s : State) (c : Ctx) : Nat → Nat → Nat → Except Fail (List Byte)
  | 0, _, _ => .ok []
  | k + 1, off, n =>
    if n = 0 then .ok []
    else
      let m := pagePart off n
      match s.translate c off with
      | none => .error windowViolation
      | some (a, _) =>
        match s.ueIn a m with
        | some f => .error f
        | none => do return memBytes s.mem a m ++ (← s.rdPages c k (off + m) (n - m))

/-- `n` bytes read through a context's window. -/
def State.rdBytes (s : State) (c : Ctx) (off n : Nat) : Except Fail (List Byte) :=
  s.rdPages c (n / pageSize + 2) off n

/-- A little-endian number of `n` bytes read through a context's window. -/
def State.rdNat (s : State) (c : Ctx) (off n : Nat) : Except Fail Nat := do
  return leNat (← s.rdBytes c off n)

/-! ## Notices (R336) -/

/-- Appends to a queue of at most 1,024 undelivered events; the newest is dropped and counted beyond it. -/
def pushNotice (q : List Notice) (lost : Nat) (n : Notice) : List Notice × Nat :=
  if q.length < 1024 then (q ++ [n], lost) else (q, lost + 1)

/-- Queues an event for one session. -/
def State.notifySession (s : State) (id : Nat) (n : Notice) : State :=
  { s with ligil := { s.ligil with sessions := s.ligil.sessions.map fun se =>
      if se.id = id then { se with events := (pushNotice se.events se.lost n).1,
                                   lost := (pushNotice se.events se.lost n).2 } else se } }

/-- Queues an event about a context for its orchestrating session, or with the context when it has none (R330). -/
def State.notify (s : State) (id code detail step : Nat) (data : List Nat) : State :=
  match s.ctx? id with
  | none => s
  | some c =>
    let n : Notice := { code, detail := min detail 0xFFFF, ctx := id, step, data }
    match c.session with
    | some se => s.notifySession se n
    | none => s.mapCtx id fun c => { c with events := (pushNotice c.events c.eventsLost n).1,
                                            eventsLost := (pushNotice c.events c.eventsLost n).2 }

/-! ## Snapshot pages (R244) -/

/-- The last pending page is copied: the snapshot is complete, its time counts for C (R390), and it is announced
(R354). -/
def State.snapComplete (s : State) (id : Nat) : State :=
  match s.ctx? id with
  | none => s
  | some c =>
    match c.snap with
    | some sn =>
      if sn.pending.isEmpty && !sn.complete then
        let costs := c.rst.costs ++ [(s.now - sn.at_) / 1000]
        let s := s.mapCtx id fun c =>
          { c with snap := some { sn with complete := true },
                   rst := { c.rst with costs := costs.drop (costs.length - 8) } }
        match sn.announce with
        | some d => s.notify id 0x0012 d sn.step []
        | none => s
      else s
    | none => s

/-- The uncorrectable error that fails the copy of a window page to its snapshot slot, if any (R237, R244). -/
def State.slotError (s : State) (id win : Nat) : Option Fail :=
  ((s.ctx? id).bind fun c => c.pages.window.find? fun m => m.win == win).bind fun m => s.ueIn (pageAddr m.dev) pageSize

/-- The uncorrectable words outside a device page: one that is overwritten goes (R237). -/
def ueOutside (ue : List Nat) (p : Nat) : List Nat :=
  ue.filter fun w => !(decide (pageAddr p ≤ w) && decide (w < pageAddr p + pageSize))

/-- A device page copied whole onto another, whose uncorrectable words it overwrites (R237). -/
def State.copyPage (s : State) (src dst : Nat) : State :=
  { s with mem := memCopyPage s.mem src dst, bg := { s.bg with ueWords := ueOutside s.bg.ueWords dst } }

/-- Copies a pending page to its snapshot slot and releases it (R244); a copy that meets an uncorrectable error releases
nothing (R237). -/
def State.releaseSlot (s : State) (id win : Nat) : State :=
  match s.ctx? id with
  | none => s
  | some c =>
    match c.snap with
    | none => s
    | some sn =>
      if sn.pending.contains win && (s.slotError id win).isNone then
        let copied :=
          match c.pages.window.find? (fun m => m.win == win), c.pages.area[sn.slots.idxOf win]? with
          | some m, some d => s.copyPage m.dev d
          | _, _ => s
        let free (q : Snapshot) : Snapshot := { q with pending := q.pending.filter (· != win) }
        (copied.mapCtx id fun c => { c with snap := c.snap.map free }).snapComplete id
      else s

/-- The page a write falls on, saved to its snapshot slot first when it is pending, and the stall counted (R244). -/
def State.firstWrite (s : State) (id off : Nat) : State :=
  match pageOf? off, s.ctx? id with
  | some w, some c =>
    match c.snap with
    | some sn =>
      let touch (q : Snapshot) : Snapshot := if q.slots.contains w then { q with dirty := insertNew q.dirty w } else q
      let s := s.mapCtx id fun c => { c with snap := c.snap.map touch }
      if sn.pending.contains w then
        (s.releaseSlot id w).mapCtx id fun c =>
          { c with lgl := { c.lgl with touches := satAdd 0xFFFFFFFF c.lgl.touches 1 } }
      else s
    | none => s
  | _, _ => s

/-- The failure of a write whose page must first be saved to its snapshot slot and cannot be read (R237, R244). -/
def State.writeStop (s : State) (id off : Nat) : Option Fail :=
  match pageOf? off, (s.ctx? id).bind Ctx.snap with
  | some w, some sn => if sn.pending.contains w then s.slotError id w else none
  | _, _ => none

/-- The uncorrectable words that remain after a write to `n` bytes of one page (R237): one that is overwritten goes. -/
def ueLeft (ue : List Nat) (a n : Nat) : List Nat :=
  let w := if a < 0x800000000 then 8 else 32
  ue.filter fun u => !(decide (a / w * w ≤ u) && decide (u < a + n))

/-- Bytes written at a device address, within one page. -/
def State.pokes (s : State) (a : Nat) (bs : List Byte) : State :=
  { s with mem := memWriteList s.mem a bs, bg := { s.bg with ueWords := ueLeft s.bg.ueWords a bs.length } }

/-- Bytes written through a context's window within one page, saved first where it is pending. Writes to an unmapped
page of the fall-back window write nothing and raise nothing (R135). -/
def State.wrPage (s : State) (id off : Nat) (bs : List Byte) : Except Fail State :=
  match s.ctx? id with
  | none => .error windowViolation
  | some c =>
    match s.translate c off with
    | some (a, true) => match s.writeStop id off with
      | some f => .error f
      | none => .ok ((s.firstWrite id off).pokes a bs)
    | some (_, false) => .error windowViolation
    | none => if 0xE000000000 ≤ off && off < 0xFF00000000 then .ok s else .error windowViolation

/-- Bytes written through a context's window, page by page; `k` bounds the pages. -/
def State.wrPages : Nat → State → Nat → Nat → List Byte → Except Fail State
  | 0, s, _, _, _ => .ok s
  | k + 1, s, id, off, bs =>
    if bs.isEmpty then .ok s
    else
      let m := pagePart off bs.length
      match s.wrPage id off (bs.take m) with
      | .error f => .error f
      | .ok s' => wrPages k s' id (off + m) (bs.drop m)

/-- Bytes written through a context's window. -/
def State.wrBytes (s : State) (id off : Nat) (bs : List Byte) : Except Fail State :=
  State.wrPages (bs.length / pageSize + 2) s id off bs

/-- One byte written through a context's window. -/
def State.wrByte (s : State) (id off : Nat) (b : Byte) : Except Fail State := s.wrPage id off [b]

/-- A little-endian number of `n` bytes written through a context's window. -/
def State.wrNat (s : State) (id off n v : Nat) : Except Fail State := s.wrBytes id off (leBytes n v)

/-- The pages of a range of a context's window made undefined; `k` bounds the pages, `i` numbers the bytes. -/
def State.undefPages (n : Nat) : Nat → State → Nat → Nat → Nat → Nat → State
  | 0, s, _, _, _, _ => s
  | k + 1, s, id, off, i, len =>
    if len = 0 then s
    else
      let m := pagePart off len
      let bs := (List.range m).map fun j => Config.freeByte n (i + j)
      let s := match s.wrPage id off bs with
        | .ok s' => s'
        | .error _ => s
      undefPages n k s id (off + m) (i + m) (len - m)

/-- Makes a range of a context's window undefined: every byte of it that is mapped writable takes a free value
(R98, R285, R350). -/
def State.undefRange (s : State) (id off len : Nat) : State :=
  let (k, s) := s.draw
  State.undefPages k (len / pageSize + 2) s id off 0 len

/-- The capability bit of a grain. -/
def State.grainOk (s : State) (g : Nat) : Bool := s.caps.grains.getLsbD g

/-- Grains in service, in order. -/
def State.grains (s : State) : List Nat := (List.range 256).filter s.grainOk

/-- A die has left service when no grain of it is in service (R37). -/
def State.dieOk (s : State) (d : Nat) : Bool := (List.range 64).any fun i => s.grainOk (64 * d + i)

/-- Copy engines in service (R10). -/
def State.copyEngines (s : State) : List Nat := (List.range 64).filter fun e => s.caps.copyEngines.getLsbD e

/-! ## Engines (R366 to R371) -/

/-- What is kept of an engine that has done nothing yet. -/
def EngineRec.init (e : Engine) : EngineRec :=
  { engine := e, parity := [], resets := [], itemsSince := none, resetting := none, lastRetire := 0, moved := 0 }

/-- What is kept of an engine. -/
def State.engineRec (s : State) (e : Engine) : EngineRec := (s.engines.find? fun x => x.engine == e).getD (.init e)

/-- Replaces an engine's record. -/
def State.mapEngine (s : State) (e : Engine) (f : EngineRec → EngineRec) : State :=
  { s with engines := (s.engines.filter fun x => x.engine != e) ++ [f (s.engineRec e)] }

/-- An engine retires an item, an instruction or an operation: its watchdog restarts (R371). -/
def State.engineRetires (s : State) (e : Engine) : State :=
  s.mapEngine e fun x => { x with lastRetire := s.now, itemsSince := x.itemsSince.map (· + 1) }

/-! ## Power states of units (R462 to R464) -/

/-- A unit's power record. -/
def State.unit (s : State) (p : Nat) : UnitPower :=
  getKey { state := 0, entering := none, waking := false, wakePending := false, shutPending := none, idleSince := 0 } s.power.units p

/-- Replaces a unit's power record. -/
def State.setUnit (s : State) (p : Nat) (u : UnitPower) : State := { s with power := { s.power with units := setKey s.power.units p u } }

/-- Whether an entry that has run for `us` has stopped the clock (R462): 5 ns, 0.8 µs, 15 µs. -/
def clockStopped (state us : Nat) : Bool := decide ([0, 1, 1, 15].getD state 0 ≤ us)

/-- An enable, or the arrival of work (R464). -/
def State.enable (s : State) (p : Nat) : State :=
  let u := s.unit p
  match u.entering with
  | some (st, start) =>
    if clockStopped st (s.now - start) then s.setUnit p { u with wakePending := true }
    else s.setUnit p { u with state := 0, entering := none, idleSince := s.now }
  | none => if u.state ≠ 0 ∧ !u.waking then s.setUnit p { u with waking := true } else s

/-- Whether a unit is active (R462): in no other state, and on the way to none and from none. -/
def State.active (s : State) (p : Nat) : Bool := (s.unit p).state == 0 && (s.unit p).entering.isNone && !(s.unit p).waking

/-- A copy engine has moved `n` bytes (R448). -/
def State.engineMoved (s : State) (e n : Nat) : State := s.mapEngine (.copy e) fun x => { x with moved := x.moved + n }

end Sys2Proof.Machine
end

