-- ==== Sys2Proof/Machine/Units.lean ====
section
/-! DEFINITION. Instruction words (R257), lanes (R266), tensors in storage order (R149, R150), generation views (R271),
the places of scale lines (R93 to R95), the units of division (R281) and the division among children (R24, R280). -/

namespace Sys2Proof.Machine

/-! ## Instruction words (R257) -/

/-- A word of an instruction. -/
def wordAt (ws : List Nat) (i : Nat) : Nat := ws.getD i 0

/-- The opcode. -/
def wOp (ws : List Nat) : Nat := wordAt ws 0 % 256

/-- The class flags. -/
def wCf (ws : List Nat) : Nat := bitsOf (wordAt ws 0) 15 8

/-- The micro-batch index. -/
def wMb (ws : List Nat) : Nat := bitsOf (wordAt ws 0) 31 16

/-- The low half of word `i`. -/
def wLo (ws : List Nat) (i : Nat) : Nat := wordAt ws i % 65536

/-- The high half of word `i`. -/
def wHi (ws : List Nat) (i : Nat) : Nat := wordAt ws i / 65536 % 65536

/-- The lanes of R266. -/
inductive Lane where
  | forward
  | backward
  | vector
  | conversion
  | copy (engine : Nat)
  | collective
  | control
  deriving DecidableEq, Repr

/-- The lane of an opcode (R266); none for a reserved opcode (R272). -/
def laneOf (ws : List Nat) : Option Lane :=
  match wOp ws with
  | 0x10 => some .forward
  | 0x11 => some .backward
  | 0x20 => some .vector
  | 0x21 => some .vector
  | 0x22 => some .vector
  | 0x23 => some .vector
  | 0x24 => some .vector
  | 0x25 => some .vector
  | 0x26 => some .vector
  | 0x27 => some .vector
  | 0x28 => some .vector
  | 0x32 => some .vector
  | 0x30 => some .conversion
  | 0x40 => some (.copy (wCf ws % 64))
  | 0x41 => some (.copy (wCf ws % 64))
  | 0x42 => some (.copy (wCf ws % 64))
  | 0x43 => some (.copy (wCf ws % 64))
  | 0x44 => some (.copy (wCf ws % 64))
  | 0x60 => some .collective
  | 0x61 => some .collective
  | 0x62 => some .collective
  | 0x63 => some .collective
  | 0x50 => some .control
  | 0x51 => some .control
  | 0x70 => some .control
  | 0x71 => some .control
  | 0x72 => some .control
  | 0x73 => some .control
  | 0x74 => some .control
  | _ => none

/-- Whether a lane is an array lane, whose order R155 to R160 give. -/
def Lane.isArray : Lane → Bool
  | .forward => true
  | .backward => true
  | .vector => false
  | .conversion => false
  | .copy _ => false
  | .collective => false
  | .control => false

/-- Whether an opcode is an array product. -/
def isProduct (ws : List Nat) : Bool := wOp ws == 0x10 || wOp ws == 0x11

/-- The tensors the plan's commits name, with no record twice (R119). -/
def commitNames (ws : List Nat) : List Nat :=
  if wOp ws = 0x72 then ((List.range 4).flatMap fun i => [wLo ws (4 + i), wHi ws (4 + i)]).filter (· != 0xFFFF)
  else []

/-! ## Views -/

/-- A tensor as an instruction sees it: its descriptor, the first row and the number of rows (R271). -/
structure TView where
  t : Tensor
  row0 : Nat
  rows : Nat
  deriving DecidableEq, Repr

/-- The view of a tensor in iteration `i` of a generation loop, 0 elsewhere (R271). -/
def Tensor.view (t : Tensor) (i : Nat) : TView :=
  match t.grow with
  | 1 => { t, row0 := 0, rows := t.len0 + i + 1 }
  | 2 => { t, row0 := t.len0 + i, rows := 1 }
  | _ => { t, row0 := 0, rows := t.d1 }

/-- The element format of a descriptor; the plan's checks let through codes 0 to 9 only (R40). -/
def Tensor.elem (t : Tensor) : ElemFmt := (ElemFmt.ofCode? t.fmt).getD .fp32

/-- Whether a tensor is narrow. -/
def Tensor.narrow (t : Tensor) : Bool := !t.elem.isWide

/-- Whether a tensor is positional (R92). -/
def Tensor.positional (t : Tensor) : Bool := t.narrow && t.scale.track

/-- An element's indices; `c1` counts rows of the whole matrix. -/
structure Coord where
  c0 : Nat
  c1 : Nat
  c2 : Nat
  c3 : Nat
  deriving DecidableEq, Repr

/-- Rows or columns padded up to 128 (R149). -/
def pad128 (n : Nat) : Nat := ceilDiv n 128 * 128

/-- The storage index within one matrix (R149). -/
def matIndex (t : Tensor) (fastD0 : Bool) (r c : Nat) : Nat :=
  let panel := r / 128 * (pad128 t.d0 / 128) + c / 128
  let ti := r / 32 % 4
  let tj := c / 32 % 4
  let tile := 8 * (ti / 2) + 4 * (tj / 2) + 2 * (ti % 2) + tj % 2
  let within := if fastD0 then r % 32 * 32 + c % 32 else c % 32 * 32 + r % 32
  (panel * 16 + tile) * 1024 + within

/-- The storage index of an element (R149, R150). -/
def storageIndex (t : Tensor) (k : Coord) : Nat :=
  let mat := pad128 t.d1 * pad128 t.d0
  if t.narrow && t.scale.axis == 2 then
    (k.c3 * mat + matIndex t true k.c1 k.c0) * (ceilDiv t.d2 32 * 32) + k.c2
  else if t.narrow && t.scale.axis == 3 then
    (k.c2 * mat + matIndex t true k.c1 k.c0) * (ceilDiv t.d3 32 * 32) + k.c3
  else (k.c3 * t.d2 + k.c2) * mat + matIndex t (!(t.narrow && t.scale.axis == 1)) k.c1 k.c0

/-- The indices a storage index stands for; padding positions come out beyond the tensor's lengths (R149, R150). -/
def storagePos (t : Tensor) (i : Nat) : Coord :=
  let mat := pad128 t.d1 * pad128 t.d0
  let inMat (w : Nat) (fastD0 : Bool) : Nat × Nat :=
    let panel := w / 16384
    let tile := w / 1024 % 16
    let cols := pad128 t.d0 / 128
    let hi := w % 1024 / 32
    let lo := w % 32
    (panel / cols * 128 + (2 * (tile / 8) + tile / 2 % 2) * 32 + (if fastD0 then hi else lo),
     panel % cols * 128 + (2 * (tile / 4 % 2) + tile % 2) * 32 + (if fastD0 then lo else hi))
  if t.narrow && t.scale.axis == 2 then
    let n := ceilDiv t.d2 32 * 32
    let rc := inMat (i / n % mat) true
    { c0 := rc.2, c1 := rc.1, c2 := i % n, c3 := i / n / mat }
  else if t.narrow && t.scale.axis == 3 then
    let n := ceilDiv t.d3 32 * 32
    let rc := inMat (i / n % mat) true
    { c0 := rc.2, c1 := rc.1, c2 := i / n / mat, c3 := i % n }
  else
    let rc := inMat (i % mat) (!(t.narrow && t.scale.axis == 1))
    { c0 := rc.2, c1 := rc.1, c2 := i / mat % t.d2, c3 := i / mat / t.d2 }

/-- Whether indices lie within a tensor's unpadded lengths. -/
def Tensor.inside (t : Tensor) (k : Coord) : Bool :=
  decide (k.c0 < t.d0) && decide (k.c1 < t.d1) && decide (k.c2 < t.d2) && decide (k.c3 < t.d3)

/-- Storage elements of a tensor, padding included (R149, R150). -/
def storageElems (t : Tensor) : Nat :=
  let mat := pad128 t.d1 * pad128 t.d0
  if t.narrow && t.scale.axis == 2 then t.d3 * mat * (ceilDiv t.d2 32 * 32)
  else if t.narrow && t.scale.axis == 3 then t.d2 * mat * (ceilDiv t.d3 32 * 32)
  else t.d3 * t.d2 * mat

/-- Bytes of a tensor's element storage. -/
def storageBytes (t : Tensor) : Nat := storageElems t * t.elem.width / 8

/-- The logical position of an element (R204). -/
def logicalPos (t : Tensor) (k : Coord) : Nat := ((k.c3 * t.d2 + k.c2) * t.d1 + k.c1) * t.d0 + k.c0

/-- The logical elements of a view, in logical order. -/
def TView.coords (v : TView) : List Coord :=
  (List.range v.t.d3).flatMap fun i3 => (List.range v.t.d2).flatMap fun i2 =>
    (List.range v.rows).flatMap fun i1 => (List.range v.t.d0).map fun i0 =>
      { c0 := i0, c1 := v.row0 + i1, c2 := i2, c3 := i3 }

/-- An element's position along an axis. -/
def Coord.along (k : Coord) : Nat → Nat
  | 0 => k.c0
  | 1 => k.c1
  | 2 => k.c2
  | _ => k.c3

/-- The element at position `a` of an axis. -/
def Coord.set (k : Coord) (axis a : Nat) : Coord :=
  match axis with
  | 0 => { k with c0 := a }
  | 1 => { k with c1 := a }
  | 2 => { k with c2 := a }
  | _ => { k with c3 := a }

/-- The rows of R95 of a view: every choice of the other dimensions, with position 0 along the axis. -/
def TView.rowsAlong (v : TView) (axis : Nat) : List Coord :=
  let one := [0]
  let r0 := if axis = 0 then one else List.range v.t.d0
  let r1 := if axis = 1 then one else (List.range v.rows).map (v.row0 + ·)
  let r2 := if axis = 2 then one else List.range v.t.d2
  let r3 := if axis = 3 then one else List.range v.t.d3
  r3.flatMap fun i3 => r2.flatMap fun i2 => r1.flatMap fun i1 => r0.map fun i0 =>
    { c0 := i0, c1 := i1, c2 := i2, c3 := i3 }

/-- A view's length along an axis. -/
def TView.length (v : TView) : Nat → Nat
  | 0 => v.t.d0
  | 1 => v.rows
  | 2 => v.t.d2
  | _ => v.t.d3

/-- A tensor's length along an axis. -/
def Tensor.axisLen (t : Tensor) : Nat → Nat
  | 0 => t.d0
  | 1 => t.d1
  | 2 => t.d2
  | _ => t.d3

/-! ## Scale lines (R93 to R97) -/

/-- The row index of R95. A tensor with grow 0b01 has its scale lines laid out by its descriptor's d1, not by the length
it has grown to: R95 does not say which, and only so does a block keep its line from one iteration to the next (log entry
133). -/
def scaleRow (t : Tensor) (k : Coord) : Nat :=
  match t.scale.axis with
  | 0 => (k.c3 * t.d2 + k.c2) * t.d1 + k.c1
  | 1 => (k.c3 * t.d2 + k.c2) * t.d0 + k.c0
  | 2 => (k.c3 * t.d1 + k.c1) * t.d0 + k.c0
  | _ => (k.c2 * t.d1 + k.c1) * t.d0 + k.c0

/-- Blocks per row (R95). -/
def blocksPerRow (t : Tensor) : Nat := ceilDiv (t.axisLen t.scale.axis) 32

/-- Entries per line (R95). -/
def entriesPerLine (t : Tensor) : Nat := if t.elem.isInt then 20 else 60

/-- Lines per row (R95). -/
def linesPerRow (t : Tensor) : Nat := ceilDiv (blocksPerRow t) (entriesPerLine t)

/-- Rows of the scale tensor. -/
def scaleRows (t : Tensor) : Nat := t.d0 * t.d1 * t.d2 * t.d3 / max 1 (t.axisLen t.scale.axis)

/-- Bytes of a tensor's scale lines. -/
def scaleBytes (t : Tensor) : Nat := if t.narrow then scaleRows t * linesPerRow t * 64 else 0

/-- The block index b of an element's block (R95). -/
def blockIndex (t : Tensor) (k : Coord) : Nat := scaleRow t k * blocksPerRow t + k.along t.scale.axis / 32

/-- The window offset of the line that holds an element's block (R95). -/
def lineOffset (t : Tensor) (k : Coord) : Nat :=
  t.scale.base + 64 * (scaleRow t k * linesPerRow t + k.along t.scale.axis / 32 / entriesPerLine t)

/-- The entry within the line (R95). -/
def entryIndex (t : Tensor) (k : Coord) : Nat := k.along t.scale.axis / 32 % entriesPerLine t

/-- The line's tag (R95). -/
def lineTag (t : Tensor) (k : Coord) : Nat :=
  let j := k.along t.scale.axis / 32
  (scaleRow t k * blocksPerRow t + entriesPerLine t * (j / entriesPerLine t)) % 2 ^ 24

/-- The kind byte of a tensor's lines (R94). -/
def lineKind (t : Tensor) : Nat := placed t.scale.rot 6 + 32 + t.scale.fmt

/-- The header word of a line (R93). -/
def lineHeader (t : Tensor) (k : Coord) : Nat := placed (lineTag t k) 8 + lineKind t

/-! ## Peds and their grains -/

/-- The grains of a ped path of level 0 to 4, in service or not (R21, R22). -/
def pathGrains (path : Nat) : List Nat :=
  (List.range (4 ^ (path / 256))).map fun i => path % 256 + i

/-- Whether a ped has at least one grain in service (R25). -/
def State.pedOk (s : State) (path : Nat) : Bool := (pathGrains path).any s.grainOk

/-! ## Units of division (R281) -/

/-- The panels of a tensor as an iteration writes it (R271, R281). -/
def panelCount (v : TView) : Nat := v.t.d3 * v.t.d2 * (ceilDiv v.rows 128 * ceilDiv v.t.d0 128)

/-- The panel of an element of a tensor as an iteration writes it (R149, R167, R281): a row view's one row is in its first
row of panels (log entry 138). -/
def panelOf (v : TView) (k : Coord) : Nat :=
  let pc := ceilDiv v.t.d0 128
  (k.c3 * v.t.d2 + k.c2) * (ceilDiv v.rows 128 * pc) + (k.c1 - v.row0) / 128 * pc + k.c0 / 128

/-- The tile of R149 within its panel that holds an element. -/
def tileInPanel (k : Coord) : Nat :=
  let ti := k.c1 / 32 % 4
  let tj := k.c0 / 32 % 4
  8 * (ti / 2) + 4 * (tj / 2) + 2 * (ti % 2) + tj % 2

/-- Tiles of a tensor's storage as an iteration writes it, padding tiles included (R281, log entry 18). -/
def tileCount (v : TView) : Nat := v.t.d3 * v.t.d2 * (pad128 v.rows * pad128 v.t.d0 / 1024)

/-- The tile that holds an element, in storage order. -/
def tileOf (v : TView) (k : Coord) : Nat :=
  (k.c3 * v.t.d2 + k.c2) * (pad128 v.rows * pad128 v.t.d0 / 1024) + matIndex v.t true (k.c1 - v.row0) k.c0 / 1024

/-- The row of a view that an element lies in, over d3, d2, d1. -/
def TView.rowOf (v : TView) (k : Coord) : Nat := (k.c3 * v.t.d2 + k.c2) * v.rows + (k.c1 - v.row0)

/-- The number of units an instruction is divided into (R281); none for instructions that are not divided. -/
def Plan.unitCount (p : Plan) (ws : List Nat) (iter : Nat) : Option Nat :=
  let t (i : Nat) : Option TView := (p.tensors[i]?).map fun x => x.view iter
  let rows (i : Nat) : Option Nat := (t i).map fun v => v.t.d3 * v.t.d2 * v.rows
  match wOp ws with
  | 0x10 => (t (if bitOf (wCf ws) 6 then wLo ws 6 else wLo ws 5)).map panelCount
  | 0x11 => (t (if bitOf (wCf ws) 6 then wLo ws 6 else wLo ws 5)).map panelCount
  | 0x20 => if bitsOf (wCf ws) 4 0 = 0x0E then rows (wHi ws 5) else (t (wHi ws 5)).map tileCount
  | 0x21 => rows (wLo ws 4)
  | 0x22 => rows (wLo ws 4)
  | 0x23 => rows (wLo ws 4)
  | 0x24 => (t (wHi ws 4)).map tileCount
  | 0x25 => (t (wLo ws 4)).map tileCount
  | 0x26 => rows (wLo ws 4)
  | 0x27 => (t (wLo ws 4)).map fun v => ceilDiv (storageElems v.t) 65536
  | 0x30 => (t (wHi ws 4)).map tileCount
  | 0x32 => (t (wLo ws 4)).map tileCount
  | 0x72 => some (sumNat (((commitNames ws).filterMap fun i => p.tensors[i]?).map fun x =>
      if x.positional then scaleRows x * blocksPerRow x else 0))
  | _ => none

/-! ## Division among children (R24, R280) -/

/-- The children of a ped of level `l` that have a grain in service, with their grain counts. -/
def State.children (s : State) (path : Nat) : List (Nat × Nat) :=
  let l := path / 256
  ((List.range 4).map fun j =>
    let child := 256 * (l - 1) + (path % 256 + j * 4 ^ (l - 1))
    (child, ((pathGrains child).filter s.grainOk).length)).filter fun p => p.2 != 0

/-- The ranges a ped hands its children (R280): child, first unit, unit after the last. -/
def splitRange (kids : List (Nat × Nat)) (lo n g q : Nat) : List (Nat × Nat × Nat) :=
  match kids with
  | [] => []
  | (c, gj) :: rest => (c, lo + q * n / g, lo + (q + gj) * n / g) :: splitRange rest lo n g (q + gj)

/-- The grains' shares of units `lo` to `hi` − 1 of an instruction addressed to a ped; `fuel` is its level + 1. -/
def State.shares (s : State) : Nat → Nat → Nat → Nat → List (Nat × Nat × Nat)
  | 0, _, _, _ => []
  | fuel + 1, path, lo, hi =>
    if hi ≤ lo then []
    else if path / 256 = 0 then [(path, lo, hi)]
    else
      let kids := s.children path
      let g := sumNat (kids.map Prod.snd)
      (splitRange kids lo (hi - lo) g 0).flatMap fun p => State.shares s fuel p.1 p.2.1 p.2.2

/-- The shares of an instruction of `n` units addressed to a path. -/
def State.divide (s : State) (path n : Nat) : List (Nat × Nat × Nat) := s.shares (path / 256 + 1) path 0 n

/-- The grain that takes unit `u` of `n`. -/
def State.grainOfUnit (s : State) (path n u : Nat) : Nat :=
  match (s.divide path n).find? (fun sh => decide (sh.2.1 ≤ u) && decide (u < sh.2.2)) with
  | some sh => sh.1
  | none => path % 256

end Sys2Proof.Machine
end

