-- ==== Sys2Proof/Machine/Regs.lean ====
section
/-! DEFINITION. The registers: the capability block (R10, R35, R410, R449, R479), the register blocks of a context
(R255 and the register sections of the chapters), the ports' blocks (R322), and what REG_WRITE does to them (R278). -/

namespace Sys2Proof.Machine

/-- Word `n` of a digest in a register: its bytes lie in the registers in their order, as bytes lie in memory. -/
def digestWord (d : BitVec 128) (n : Nat) : Nat := leAt (beBytes 16 d.toNat) (4 * n) 4

/-- The cap in steps of 15.625 MHz as MHz, rounded down. -/
def stepsMhz (n : Nat) : Nat := n * 15625 / 1000

/-- MHz as whole steps of 15.625 MHz, rounded down (R459). -/
def mhzSteps (m : Nat) : Nat := m * 1000 / 15625

/-- The cap in force on a die, in steps (R459). -/
def State.dieCap (s : State) (d : Nat) : Nat :=
  min (min (mhzSteps s.power.capMhz) s.power.loopCap) (s.power.thermalCap.getD d 128)

/-- The lowest cap in force of the four dies, which PWR_STATUS shows (R479; log entry 12). -/
def State.cap (s : State) : Nat := min (min (s.dieCap 0) (s.dieCap 1)) (min (s.dieCap 2) (s.dieCap 3))

/-- The number of ones of a list of flags. -/
def countTrue (l : List Bool) : Nat := (l.filter id).length

/-- The flags as a number, the first the lowest bit. -/
def packBits : List Bool → Nat
  | [] => 0
  | b :: bs => flag b + 2 * packBits bs

/-- CAP_GRAINS (R10). -/
def State.capGrains (s : State) : Nat :=
  let g := s.grains.length
  placed 4 24 + placed (countTrue ((List.range 4).map s.dieOk)) 20 + placed (256 - g) 9 + g

/-- CAP_UNITS (R10). -/
def State.capUnits (s : State) : Nat := placed s.copyEngines.length 16 + s.caps.units.toNat

/-- CAP_TOPSOIL (R10). -/
def State.capTopsoil (s : State) : Nat := placed 0x80 16 + 128 * s.grains.length

/-- The five capability words. -/
def State.capWords (s : State) : List Nat :=
  [s.capGrains, s.caps.formats.toNat, s.capUnits, s.caps.ports.toNat, s.capTopsoil]

/-- LGL_BOOT_STATUS (R410). -/
def State.bootStatus (s : State) : Nat :=
  placed s.boot.upd.code 8 + placed (flag s.boot.fallback) 6 + placed (flag (s.boot.prot.getLsbD 5)) 5 +
  placed (flag s.boot.ident) 4 + placed (flag (!s.boot.lockOpen)) 3 + placed (flag s.boot.fleet) 2 +
  placed (flag s.boot.trial) 1 + s.boot.bank

/-- The newest sequence (R449). -/
def State.newestSeq (s : State) : Nat := s.sed.nextSeq - 1

/-- The records not yet in flash (R449). -/
def State.unflushed (s : State) : Nat := (s.sed.ring.filter fun r => decide (s.sed.flushed ≤ r.seq)).length

/-- Whether the newest record is open: 1 s after its last fold it no longer is (R431). -/
def State.recOpen (s : State) : Bool := s.sed.openRec && decide (s.now < s.sed.lastFold + 1000000)

/-- PWR_STATUS (R479). -/
def State.pwrStatus (s : State) : Nat :=
  placed (stepsMhz s.cap) 16 + placed (packBits s.power.throttle) 12 + placed (packBits s.power.sdsLost) 8 +
  placed (flag s.power.sysLost) 7 + placed (flag s.power.brake) 6 + placed (flag s.power.limited) 5

/-- A word of the capability block; none where the offset holds no register. -/
def State.capBlock (s : State) (off : Nat) : Option Nat :=
  if off < 0x14 then (s.capWords)[off / 4]?
  else if 0x20 ≤ off && off < 0x40 then some (s.caps.grains.toNat / 2 ^ (8 * (off - 0x20)) % 2 ^ 32)
  else match off with
    | 0x100 => some s.bootStatus
    | 0x104 => some s.boot.sver
    | 0x108 => some s.flash.rollback
    | 0x10C => some (s.boot.display % 2 ^ 32)
    | 0x110 => some (s.boot.display / 2 ^ 32)
    | 0x140 => some (s.newestSeq % 2 ^ 32)
    | 0x144 => some (s.newestSeq / 2 ^ 32 % 2 ^ 16)
    | 0x148 => some (placed s.unflushed 3 + placed (flag s.recOpen) 2 + placed (flag s.sed.dumpCopying) 1 +
        flag (s.sed.dump.isSome || s.sed.dumpFlash.isSome))
    | 0x14C => some s.sed.lost
    | 0x180 => some s.pwrStatus
    | 0x184 => some (placed s.power.capMhz 16 + s.power.limitW)
    | 0x188 => some s.bg.forced.toNat
    | _ => none

/-- The stream a placed instruction belongs to, and its words. -/
def Ctx.stream? (c : Ctx) (i : Nat) : Option PlanStream := c.plan.bind fun p => p.streams[i]?

/-- The ped path of a stream. -/
def Ctx.streamPath (c : Ctx) (i : Nat) : Nat :=
  match c.stream? i with
  | some st => st.path
  | none => pkgPath

/-- The words of an instruction of the loaded plan. -/
def Ctx.words (c : Ctx) (stream index : Nat) : List Nat :=
  match c.stream? stream with
  | some st => st.instrs.getD index []
  | none => []

/-- Every placed instruction of the context's steps with its step. -/
def Ctx.allPlaced (c : Ctx) : List (StepRun × Placed) :=
  c.steps.flatMap fun r => r.placed.map fun p => (r, p)

/-- Whether a step's instructions have entered lanes: the oldest step, or the next one under overlap once the oldest
step's boundary is decided to take no snapshot (R268). -/
def Ctx.entered (c : Ctx) (run : StepRun) : Bool :=
  match c.steps with
  | [] => false
  | first :: _ => run.step == first.step ||
      ((c.plan.map Plan.overlap).getD false && first.snapDecided == some .no)

/-- The grains that take a share of a placed instruction, none when it is not divided (R280, R281). -/
def State.shareGrains (s : State) (c : Ctx) (run : StepRun) (p : Placed) : List Nat :=
  match c.plan.bind fun q => q.unitCount (c.words p.stream p.index) run.iter with
  | none => []
  | some n => ((s.divide (c.streamPath p.stream) n).filter fun sh => decide (sh.2.1 < sh.2.2)).map Prod.fst

/-- Whether a ped has accepted a placed instruction (R256): one of its own stream, or the share that a ped above has
handed it, which for a product its grains take one by one. -/
def State.acceptedBy (s : State) (c : Ctx) (path : Nat) (rp : StepRun × Placed) : Bool :=
  let p := rp.2
  let mine := pathGrains path
  p.phase != .retired && c.entered rp.1 &&
  (c.streamPath p.stream == path ||
   (decide (path / 256 < c.streamPath p.stream / 256) &&
    if isProduct (c.words p.stream p.index) then p.accepted.any mine.contains
    else p.phase != .placed && (s.shareGrains c rp.1 p).any mine.contains))

/-- Whether an accepted instruction runs on a ped: an array of it runs an item, or its share is issued or executed. -/
def State.runsOn (s : State) (c : Ctx) (path : Nat) (rp : StepRun × Placed) : Bool :=
  if isProduct (c.words rp.2.stream rp.2.index) then
    s.scheds.any fun q => (pathGrains path).contains q.1 && q.2.running.any fun x =>
      x.2.1.ref == { ctx := c.id, step := rp.1.step, stream := rp.2.stream, index := rp.2.index }
  else rp.2.phase == .issued || rp.2.phase == .executed

/-- Whether a ped holds divided work of a context for a grain judged failed: the ped-1 above the grain (R34, R256). -/
def State.holdsFor (s : State) (c : Ctx) (path : Nat) : Bool :=
  path / 256 == 1 && c.allPlaced.any fun rp =>
    rp.2.phase == .placed && c.entered rp.1 && decide (1 ≤ c.streamPath rp.2.stream / 256) &&
    (s.shareGrains c rp.1 rp.2).any fun g => s.resets.judged.contains g && (pathGrains path).contains g

/-- PED_STATUS (R256). -/
def State.pedStatus (s : State) (c : Ctx) (path : Nat) : Nat :=
  let mine := c.allPlaced.filter (s.acceptedBy c path)
  let held := s.holdsFor c path
  let busy := mine.any (s.runsOn c path)
  placed (c.path path).fault 16 + placed (min 0xFF mine.length) 8 + placed (flag (c.phase == .held)) 3 +
  placed (flag held) 2 + placed (flag (s.pedOk path)) 1 + flag busy

/-- PWR_STATE of a unit (R478). -/
def State.pwrState (s : State) (path : Nat) : Nat :=
  match s.power.units.find? (fun p => p.1 == path) with
  | some (_, u) => placed (flag u.wakePending) 3 + placed (flag u.entering.isSome) 2 + u.state
  | none => 0

/-- The unsigned 32-bit word `n` of a number. -/
def word32 (v n : Nat) : Nat := v / 2 ^ (32 * n) % 2 ^ 32

/-- The commons resident pages on which a context holds residency (R247). -/
def State.resPages (s : State) (c : Ctx) : Nat :=
  sumNat ((s.arbiter.objects.filter fun o => c.residency.contains o.entry.id).map fun o => o.entry.size)

/-- The contributor mask RIN_CTX_MASK shows (R319, R323). -/
def Ctx.mask (c : Ctx) : BitVec 256 :=
  match c.steps with
  | r :: _ => r.mask
  | [] => BitVec.allOnes 256

/-- The update stall threshold in µs (R195). -/
def Ctx.stallUs (c : Ctx) : Nat := (if c.upd.stallMs = 0 then 100 else c.upd.stallMs) * 1000

/-- WAIT_TIMEOUT in µs (R265). -/
def Ctx.waitUs (c : Ctx) : Nat := (if c.syn.waitMs = 0 then 2000 else c.syn.waitMs) * 1000

/-- COLL_TIMEOUT in µs (R323). -/
def Ctx.collUs (c : Ctx) : Nat := (if c.syn.collMs = 0 then 2000 else c.syn.collMs) * 1000

/-- Whether a context's optimiser waits past its stall threshold (R195). -/
def State.stalling (_ : State) (c : Ctx) : Bool :=
  c.allPlaced.any fun rp => rp.2.stalled && rp.2.gateDue.isSome && rp.2.phase != .retired

/-- A register of the ped-4 block (R141, R195, R215, R247, R265, R323, R361, R391). -/
def State.ped4Block (s : State) (c : Ctx) (off : Nat) : Option Nat :=
  match off with
  | 0x000 => some (s.pedStatus c pkgPath)
  | 0x100 => some (placed c.config.policy.code 24 + placed c.sieve.satExp 16 + placed c.sieve.leachExp 8)
  | 0x104 => some (placed c.sieve.lent 16 + sumNat c.resv.headroom)
  | 0x108 => some (placed c.sieve.granted.length 16 + c.sieve.denied)
  | 0x10C => some (placed (flag (c.steps.head?.any fun r => c.sieve.jit.contains r.step)) 4 + placed (flag c.sieve.replay) 3 + placed (flag c.sieve.degraded) 2 +
      placed (flag c.sieve.fbSat) 1 + flag c.sieve.marks)
  | 0x140 => some c.upd.stallMs
  | 0x144 => some (placed c.upd.stalls 16 + placed (flag c.upd.noContrib) 3 + placed (flag c.upd.gradNonfinite) 2 +
      placed (flag c.upd.normNonfinite) 1 + flag (s.stalling c))
  | 0x148 => some (word32 c.upd.norm 0)
  | 0x14C => some (word32 c.upd.norm 1)
  | 0x150 => some c.upd.contrib
  | 0x180 => some (word32 c.spr.step 0)
  | 0x184 => some (word32 c.spr.step 1 % 2 ^ 16)
  | 0x188 => some (word32 c.spr.tag 0)
  | 0x18C => some (word32 c.spr.tag 1)
  | 0x190 => some (placed (flag c.spr.posWait) 1 + flag c.spr.keys)
  | 0x194 => some (min 0xFFFFFFFF (c.spr.blocks / 1024))
  | 0x1C0 => some (placed (min 0xFFFF (s.resPages c)) 16 + sumNat c.resv.top)
  | 0x1C4 => some (sumNat c.resv.sub)
  | 0x1C8 => some (sumNat c.resv.snap)
  | 0x1CC => some (match c.snap with
      | some sn => placed sn.pending.length 13 + placed (flag sn.complete) 1 + 1
      | none => 0)
  | 0x1D0 => some (word32 ((c.snap.map Snapshot.step).getD 0) 0)
  | 0x1D4 => some (word32 ((c.snap.map Snapshot.step).getD 0) 1)
  | 0x1D8 => some (placed c.lgl.subCe 16 + c.lgl.topCe)
  | 0x1DC => some c.lgl.touches
  | 0x200 => some c.syn.waitMs
  | 0x204 => some (placed (flag c.syn.timedOut) 31 + placed c.steps.length 18 + c.syn.ref)
  | 0x240 => some c.syn.collMs
  | 0x244 => some (placed (flag c.syn.collTimedOut) 31 + placed (flag c.syn.restarted) 30 + c.syn.serial)
  | 0x268 => some c.syn.drop
  | 0x26C => some c.syn.nonfin
  | 0x280 => some (placed c.id 8 + placed c.phase.code 5 + placed (flag c.config.commonsOwner) 4 +
      placed c.config.policy.code 2 + flag c.config.reference)
  | 0x284 => some (placed c.lgl.heldCode 16 + c.lgl.heldDetail)
  | 0x288 => some (word32 c.lgl.nextStep 0)
  | 0x28C => some (word32 c.lgl.nextStep 1)
  | 0x2C0 => some c.config.hangMs
  | 0x2C4 => some (placed c.rst.code 16 + placed c.rst.count 8 + c.rst.level)
  | 0x2C8 => some (placed (flag c.rst.ckptEnable) 31 + c.rst.mtbfMin)
  | 0x2CC => some (placed c.rst.intervalS 16 + c.rst.costS)
  | 0x2D0 => some c.rst.mMin
  | _ =>
    if 0x248 ≤ off && off ≤ 0x264 && off % 4 == 0 then some (word32 c.mask.toNat ((off - 0x248) / 4))
    else if 0x290 ≤ off && off ≤ 0x29C && off % 4 == 0 then
      some (digestWord c.config.owner ((off - 0x290) / 4))
    else none

/-- Cycles in units of 1,024, stopping at the largest value (R162). -/
def cycleUnits (n : Nat) : Nat := min 0xFFFFFFFF (n / 1024)

/-- A register of a grain's block (R65, R100, R162). -/
def grainBlock (r : GrainRegs) (off : Nat) : Option Nat :=
  match off with
  | 0x040 => some (placed r.rdir 8 + r.flags)
  | 0x080 => some r.skewExpect.toNat
  | 0x084 => some r.skewFound.toNat
  | 0x088 => some (placed r.skewReader 12 + flag r.skewValid)
  | 0x0C0 => some (flag r.preferFwd)
  | 0x0C4 => some (cycleUnits (r.busy.getD 0 0))
  | 0x0C8 => some (cycleUnits (r.starve.getD 0 0))
  | 0x0CC => some (cycleUnits (r.busy.getD 1 0))
  | 0x0D0 => some (cycleUnits (r.starve.getD 1 0))
  | 0x0D4 => some (cycleUnits (r.busy.getD 2 0))
  | 0x0D8 => some (cycleUnits (r.starve.getD 2 0))
  | _ => none

/-- The number of data lanes in service. -/
def laneCount (lanes : Nat) : Nat := ((List.range 8).filter (bitOf lanes)).length

/-- A register of a port's block (R322). -/
def portBlock (p : Port) (off : Nat) : Option Nat :=
  match off with
  | 0x000 => some (placed p.phase.code 28 + placed (laneCount p.lanes) 24 + placed p.lanes 16 +
      placed (flag p.crypt) 3 + placed (flag p.fabric) 2 + placed (flag (p.starved.any id)) 1 + flag (p.recal.any (bitOf p.lanes)))
  | 0x004 => some p.epoch
  | 0x008 => some (placed (flag p.cfg.cryptReq) 31 + placed p.cfg.serExp 24 + placed p.cfg.ucw 16 + p.cfg.malThr)
  | 0x00C => some (placed p.cfg.quarS 16 + p.cfg.starveMs)
  | 0x020 => some (placed p.retries 16 + placed p.quarantines 8 + p.laneRet)
  | 0x024 => some p.stale
  | 0x028 => some p.malformed
  | _ => if 0x010 ≤ off && off ≤ 0x01C && off % 4 == 0 then some (digestWord p.peer ((off - 0x010) / 4)) else none

/-- A register of the block of a ped path as a context sees it; none where the offset holds no register (R255). -/
def State.pathBlock (s : State) (c : Ctx) (path off : Nat) : Option Nat :=
  let level := path / 256
  if level = 6 then (s.ports[path % 256]?).bind fun p => portBlock p off
  else if level ≤ 4 then
    if level = 4 then s.ped4Block c off
    else if off = 0 then some (s.pedStatus c path)
    else if off = 0x300 then
      let r := c.path path
      some (placed (flag r.hintValid) 31 + r.hintNext)
    else if off = 0x304 then some (s.pwrState path)
    else if level = 0 then grainBlock (c.grain path) off
    else none
  else none

/-- Whether the block of a ped path belongs to a part in service: a ped with a grain, or a port that is not retired (R255,
R307). -/
def State.blockServed (s : State) (path : Nat) : Bool :=
  if path / 256 ≤ 4 then s.pedOk path else if path / 256 = 6 then s.caps.ports.getLsbD (path % 256) else true

/-- The 4 KiB register block of a path as bytes; offsets that hold no register, and blocks of peds not in service,
read as 0 (R255). -/
def State.blockBytes (s : State) (c : Ctx) (path : Nat) : List Byte :=
  (List.range 1024).flatMap fun i =>
    leBytes 4 (if s.blockServed path then (s.pathBlock c path (4 * i)).getD 0 else 0)

/-! ## REG_WRITE (R278) -/

/-- A writable field: its bits, whether it is W1C, and its reserved values. -/
structure RegField where
  hi : Nat
  lo : Nat
  w1c : Bool
  reserved : Nat → Bool

/-- A register that holds an RW or W1C field: those fields, its RO bits, and the detail of a refusal. -/
structure RegSpec where
  fields : List RegField
  ro : List (Nat × Nat)
  detail : Nat

/-- Milliseconds of WAIT_TIMEOUT and COLL_TIMEOUT that are reserved (R265, R323). -/
def reservedMs (v : Nat) : Bool := (1 ≤ v && v ≤ 49) || 60001 ≤ v

/-- No reserved value. -/
def anyValue : Nat → Bool := fun _ => false

/-- The writable registers of a ped of a level (R65, R100, R141, R162, R195, R265, R323, R391, R478). -/
def regSpec (level off : Nat) : Option RegSpec :=
  if level < 4 && off = 0x300 then
    some { fields := [⟨31, 31, false, anyValue⟩, ⟨23, 0, false, anyValue⟩], ro := [], detail := 0x1001 }
  else if level = 0 then
    match off with
    | 0x040 => some { fields := [⟨10, 8, false, fun v => 5 ≤ v⟩, ⟨4, 0, true, anyValue⟩], ro := [], detail := 0x0205 }
    | 0x088 => some { fields := [⟨0, 0, true, anyValue⟩], ro := [(15, 12)], detail := 0x0A0D }
    | 0x0C0 => some { fields := [⟨0, 0, false, anyValue⟩], ro := [], detail := 0x0602 }
    | _ => none
  else if level = 4 then
    match off with
    | 0x100 => some { fields := [⟨20, 16, false, fun v => 21 ≤ v⟩, ⟨12, 8, false, fun v => 13 ≤ v⟩],
                      ro := [(25, 24)], detail := 0x0504 }
    | 0x10C => some { fields := [⟨1, 1, true, anyValue⟩], ro := [(4, 2), (0, 0)], detail := 0x0504 }
    | 0x140 => some { fields := [⟨13, 0, false, fun v => 10001 ≤ v⟩], ro := [], detail := 0x0706 }
    | 0x144 => some { fields := [⟨3, 2, true, anyValue⟩], ro := [(31, 16), (1, 0)], detail := 0x0A0D }
    | 0x200 => some { fields := [⟨15, 0, false, reservedMs⟩], ro := [], detail := 0x0A0D }
    | 0x204 => some { fields := [⟨31, 31, true, anyValue⟩], ro := [(19, 0)], detail := 0x0A0D }
    | 0x240 => some { fields := [⟨15, 0, false, reservedMs⟩], ro := [], detail := 0x0B05 }
    | 0x244 => some { fields := [⟨31, 30, true, anyValue⟩], ro := [(15, 0)], detail := 0x0A0D }
    | 0x2C8 => some { fields := [⟨31, 31, false, anyValue⟩, ⟨19, 0, false, fun v => 1000001 ≤ v⟩], ro := [],
                      detail := 0x0D01 }
    | _ => none
  else none

/-- Bits [hi:lo] set. -/
def bitsMask (hi lo : Nat) : Nat := (2 ^ (hi + 1 - lo) - 1) <<< lo

/-- The checks of one REG_WRITE at LOAD_PLAN; the detail of the refusal when one fails (R278). -/
def regWriteCheck (level off value mask : Nat) : Option Nat :=
  match regSpec level off with
  | none => some 0x0A0D
  | some r =>
    let v := value &&& mask
    let known := (r.fields.map fun f => bitsMask f.hi f.lo) ++ r.ro.map fun p => bitsMask p.1 p.2
    let knownMask := known.foldl (· ||| ·) 0
    let outside := (List.range 32).any fun i => v.testBit i && !knownMask.testBit i
    let badField := r.fields.any fun f =>
      let m := bitsOf mask f.hi f.lo
      let hasReserved := f.reserved 5 || f.reserved 13 || f.reserved 21 || f.reserved 1 || f.reserved 10001 ||
        f.reserved 1000001
      if m = 0 then false
      else if m = 2 ^ (f.hi + 1 - f.lo) - 1 then f.reserved (bitsOf v f.hi f.lo)
      else hasReserved
    if outside || badField then some r.detail else none

/-- The new value of RW bits [hi:lo]: (old AND NOT mask) OR (value AND mask) (R278). -/
def rwField (old value mask hi lo : Nat) : Nat :=
  let w := 2 ^ (hi + 1 - lo) - 1
  let m := bitsOf mask hi lo
  (old &&& (w - m)) ||| (bitsOf value hi lo &&& m)

/-- A W1C bit: cleared where value AND mask holds a 1 (R13, R278). -/
def w1cBit (old : Bool) (value mask i : Nat) : Bool := old && !((value &&& mask).testBit i)

/-- REG_WRITE on a grain's registers (R65, R100, R162). -/
def writeGrain (r : GrainRegs) (off value mask : Nat) : GrainRegs :=
  match off with
  | 0x040 => { r with rdir := rwField r.rdir value mask 10 8, flags := r.flags &&& (31 - bitsOf (value &&& mask) 4 0) }
  | 0x088 => { r with skewValid := w1cBit r.skewValid value mask 0 }
  | 0x0C0 => { r with preferFwd := decide (rwField (flag r.preferFwd) value mask 0 0 = 1) }
  | _ => r

/-- REG_WRITE on a ped's PWR_HINT, counted from `now` (R478). -/
def writeHint (r : PathRegs) (value mask now : Nat) : PathRegs :=
  { r with hintValid := decide (rwField (flag r.hintValid) value mask 31 31 = 1),
           hintNext := rwField r.hintNext value mask 23 0, hintAt := now }

/-- REG_WRITE on the ped-4 block of a context. -/
def writePed4 (c : Ctx) (off value mask : Nat) : Ctx :=
  match off with
  | 0x100 => { c with sieve := { c.sieve with satExp := rwField c.sieve.satExp value mask 20 16,
                                              leachExp := rwField c.sieve.leachExp value mask 12 8 } }
  | 0x10C => { c with sieve := { c.sieve with fbSat := w1cBit c.sieve.fbSat value mask 1 } }
  | 0x140 => { c with upd := { c.upd with stallMs := rwField c.upd.stallMs value mask 13 0 } }
  | 0x144 => { c with upd := { c.upd with noContrib := w1cBit c.upd.noContrib value mask 3,
                                          gradNonfinite := w1cBit c.upd.gradNonfinite value mask 2 } }
  | 0x200 => { c with syn := { c.syn with waitMs := rwField c.syn.waitMs value mask 15 0 } }
  | 0x204 => { c with syn := { c.syn with timedOut := w1cBit c.syn.timedOut value mask 31 } }
  | 0x240 => { c with syn := { c.syn with collMs := rwField c.syn.collMs value mask 15 0 } }
  | 0x244 => { c with syn := { c.syn with collTimedOut := w1cBit c.syn.collTimedOut value mask 31,
                                          restarted := w1cBit c.syn.restarted value mask 30 } }
  | 0x2C8 => { c with rst := { c.rst with
                 ckptEnable := decide (rwField (flag c.rst.ckptEnable) value mask 31 31 = 1),
                 mtbfMin := rwField c.rst.mtbfMin value mask 19 0 } }
  | _ => c

/-- REG_WRITE on the block of one ped path. -/
def writeBlock (c : Ctx) (now path off value mask : Nat) : Ctx :=
  if path / 256 = 4 then writePed4 c off value mask
  else if off = 0x300 then c.setPath path (writeHint (c.path path) value mask now)
  else if path / 256 = 0 then c.setGrain path (writeGrain (c.grain path) off value mask)
  else c

/-- REG_WRITE by a stream's instruction: its ped's block, or with cf[0] = 1 every in-service grain's (R278). -/
def State.regWrite (s : State) (c : Ctx) (path : Nat) (grains : Bool) (off value mask : Nat) : Ctx :=
  if grains then
    ((pathGrains path).filter s.grainOk).foldl (fun c g => writeBlock c s.now g off value mask) c
  else writeBlock c s.now path off value mask

end Sys2Proof.Machine
end

