-- ==== Sys2Proof/Machine/Log.lean ====
section
/-! DEFINITION. The Sediment writer: severities (R481), flood handling (R430 to R433), register snapshots (R435 to
R437), the rings (R438 to R441), and the bytes of a record (R425). -/

namespace Sys2Proof.Machine

/-- The codes of severity 1 (R481). -/
def sevInfo : List Nat := [0x0020, 0x0031, 0x3002, 0x6010]

/-- The codes of severity 2 (R481). -/
def sevNotice : List Nat := [0x2101, 0x2103, 0x2201, 0x2203]

/-- The codes of severity 4 (R481). -/
def sevError : List Nat :=
  [0x1101, 0x1103, 0x2002, 0x2102, 0x2202, 0x2302, 0x2401, 0x3001, 0x3103, 0x3104, 0x3201, 0x3203, 0x4002, 0x4003,
   0x4102, 0x5001, 0x6002, 0x6003, 0x6004, 0x6006, 0x6009, 0x600B, 0x6021, 0x6022, 0x6023, 0x7004]

/-- The codes of severity 5 (R481). -/
def sevCritical : List Nat :=
  [0x2204, 0x3102, 0x3106, 0x5002, 0x5003, 0x5004, 0x5007, 0x5008, 0x5010, 0x5012, 0x6008]

/-- The codes of severity 6 (R481). -/
def sevFatal : List Nat := [0x5005, 0x5006, 0x600A, 0x7002]

/-- The severity R481 gives a code; every other logged code has severity 3. -/
def severity (code : Nat) : Nat :=
  if sevInfo.contains code then 1
  else if sevNotice.contains code then 2
  else if sevError.contains code then 4
  else if sevCritical.contains code then 5
  else if sevFatal.contains code then 6
  else 3

/-- Codes exempt from flood handling (R433). -/
def floodExempt (code : Nat) : Bool := code / 0x1000 == 5 || decide (5 ≤ severity code)

/-- Operating time in ms (R426). -/
def State.opMs (s : State) : Nat := s.sed.opMs + (s.now - s.sed.onAt) / 1000

/-- A code's configuration; codes not listed use repeat mode and no snapshot set (R434). -/
def State.codeCfg (s : State) (code : Nat) : CodeCfg :=
  (s.sed.cfgs.find? fun c => c.code == code).getD { code, rate := false, burst := 1, p := 0, set := 0 }

/-- A code's bucket; full when nothing has been drawn (R432). -/
def State.bucket (s : State) (code : Nat) : Bucket :=
  (s.sed.buckets.find? fun b => b.code == code).getD { code, tokens := (s.codeCfg code).burst, since := 0, supp := 0 }

/-- A code's bucket with the tokens whose time has come since (R432). -/
def State.refilled (s : State) (code : Nat) : Bucket :=
  let cfg := s.codeCfg code
  let b := s.bucket code
  let period := 2 ^ cfg.p * 1000
  let n := min (cfg.burst - b.tokens) ((s.now - b.since) / period)
  { b with tokens := b.tokens + n, since := b.since + n * period }

/-- Replaces a code's bucket. -/
def State.setBucket (s : State) (b : Bucket) : State :=
  { s with sed := { s.sed with buckets := s.sed.buckets.filter (fun x => x.code != b.code) ++ [b] } }

/-- The buckets under a new configuration: those of a code whose configuration changes start full (R432, R446). -/
def State.rebucketed (s : State) (cfgs : List CodeCfg) : List Bucket :=
  let new : State := { s with sed := { s.sed with cfgs } }
  s.sed.buckets.map fun b =>
    if new.codeCfg b.code = s.codeCfg b.code then b else { b with tokens := (new.codeCfg b.code).burst, since := 0 }

/-- The buckets with a code's count of suppressed events set again, when there is one. -/
def State.withSupp (s : State) (code supp : Nat) : List Bucket :=
  if supp = 0 then s.sed.buckets else (s.setBucket { s.bucket code with supp }).sed.buckets

/-- The die of a ped path (R17, R19, R22). -/
def pathDie (p : Nat) : Nat :=
  let i := p % 256
  match p / 256 with
  | 4 => 0
  | 5 => i / 16
  | 6 => i / 8
  | 7 => i / 3
  | 10 => i
  | _ => i / 64

/-- The word a snapshot entry reads for an event; none where R436 writes 0xFFFF_FFFF. -/
def State.snapWord (s : State) (ev : Event) (entry : Nat) : Option Nat :=
  let path := if bitsOf entry 23 12 = 0xFFF then ev.src else bitsOf entry 23 12
  let off := bitsOf entry 11 0
  let down := (s.power.units.any fun u => u.1 == path && u.2.state == 3) ||
    (s.resets.parts.any fun r => path / 256 != 4 && pathDie path == r.die)
  if down then none
  else if bitOf entry 31 then (s.ctx? ev.ctx).bind fun c => s.pathBlock c path off
  else if path / 256 = 6 then (s.ports[path % 256]?).bind fun p => portBlock p off
  else if path / 256 ≤ 3 && off = 0x304 then some (s.pwrState path)
  else none

/-- Eight words, filled up with 0. -/
def eightWords (l : List Nat) : List Nat := (List.range 8).map fun i => l.getD i 0

/-- The number of records a snapshot of `n` words needs beside its parent; SED_CONFIG keeps every definition in extension
records (R437). -/
def extensions (code n : Nat) : Nat := if code ≠ 0x31 ∧ n ≤ 8 then 0 else ceilDiv n 8

/-- How many extension records follow a parent (R425, R437). -/
def SedRec.exts (r : SedRec) : Nat := if bitOf r.flags 7 then bitsOf (r.snap.getD 1 0) 23 16 else 0

/-- Takes the oldest record that `p` holds for out of a ring, with its extension records (R440); answers the ring
and how many records of events were lost. -/
def dropOldest (p : SedRec → Bool) : List SedRec → Option (List SedRec)
  | [] => none
  | r :: rs =>
    if p r && r.code != 0x30 then some (rs.drop r.exts)
    else (dropOldest p rs).map fun l => r :: l

/-- Room for `n` records in the always-on ring of 65,536 (R438, R440). `fuel` bounds the records taken out. -/
def makeRoom (n sev : Nat) : Nat → Sed → Option Sed
  | 0, _ => none
  | fuel + 1, sd =>
    if sd.ring.length + n ≤ 65536 then some sd
    else
      let unfl (a b : Nat) (r : SedRec) : Bool := decide (a ≤ r.sev) && decide (r.sev ≤ b) && decide (sd.flushed ≤ r.seq)
      match dropOldest (fun r => decide (r.seq < sd.flushed)) sd.ring with
      | some l => makeRoom n sev fuel { sd with ring := l }
      | none =>
        if sev < 5 then none
        else
          match (dropOldest (unfl 1 2) sd.ring <|> dropOldest (unfl 3 3) sd.ring <|> dropOldest (unfl 4 4) sd.ring) with
          | some l => makeRoom n sev fuel { sd with ring := l, lostPending := sd.lostPending + 1,
                                                    lost := satAdd 0xFFFFFFFF sd.lost 1 }
          | none => none

/-- Appends a new record and its extension records to the ring (R425, R426, R437). -/
def State.appendRec (s : State) (sd : Sed) (ev : Event) (set supp : Nat) (words : List Nat) (partBit : Bool) : State :=
  let n := extensions ev.code words.length
  let base : SedRec :=
    { code := ev.code, sev := severity ev.code, src := ev.src, rep := 1, detail := ev.detail,
      time := s.opMs / 1000, pcc := s.flash.pcc, seq := sd.nextSeq, ctx := ev.ctx,
      flags := placed (flag (n != 0)) 7 + placed (flag partBit) 6 + set,
      snap := if n = 0 then eightWords words
              else eightWords [word32 (sd.nextSeq + 1) 0, word32 (sd.nextSeq + 1) 1 + placed n 16],
      supp := min 0xFFFF supp, span := 0 }
  let ext (i : Nat) : SedRec :=
    { base with code := 0x30, detail := i, seq := sd.nextSeq + 1 + i, flags := 0, supp := 0,
                snap := eightWords (words.drop (8 * i)) }
  { s with sed := { sd with ring := sd.ring ++ base :: (List.range n).map ext, nextSeq := sd.nextSeq + 1 + n,
                            openRec := n == 0, lastFold := s.now, written := satAdd 0xFFFFFFFF sd.written (1 + n) } }

/-- Writes the count of lost events first when space has returned (R440). -/
def State.writeLost (s : State) : State :=
  if s.sed.lostPending = 0 then s
  else
    match makeRoom 1 3 65536 s.sed with
    | some sd => s.appendRec { sd with lostPending := 0 }
        { code := 0x2601, detail := min 0xFFFF sd.lostPending, src := pkgPath, ctx := noCtx, words := [] } 0 0 [] false
    | none => s

/-- Writes one event as a new record with its snapshot; none when the writer must hold the event (R440). An event that is
dropped leaves its code's count of suppressed events for the next record. -/
def State.writeRec (s : State) (ev : Event) (supp : Nat) : Option State :=
  let set := if ev.code = 0x31 then 0 else (s.codeCfg ev.code).set
  let read := (getKey [] s.sed.sets set).map (s.snapWord ev)
  let words := if set = 0 then ev.words else read.map fun o => o.getD 0xFFFFFFFF
  let partBit := set != 0 && read.any Option.isNone
  let n := 1 + extensions ev.code words.length
  let s := s.writeLost
  match makeRoom n (severity ev.code) 65536 s.sed with
  | some sd => some (s.appendRec sd ev set supp words partBit)
  | none =>
    if severity ev.code < 5 then
      some { s with sed := { s.sed with buckets := s.withSupp ev.code supp, lostPending := s.sed.lostPending + 1,
                                        lost := satAdd 0xFFFFFFFF s.sed.lost 1 } }
    else none

/-- Whether an event folds into the newest record (R431). -/
def SedRec.folds (r : SedRec) (ev : Event) : Bool :=
  r.code == ev.code && r.src == ev.src && r.detail == ev.detail && r.ctx == ev.ctx && decide (r.rep < 0xFFFF)

/-- Writes an event of a code in repeat mode as a new record, which carries what the code's rate limit suppressed before its
configuration changed (R432). -/
def State.writeRepeat (s : State) (ev : Event) : Option State :=
  let b := s.bucket ev.code
  (if b.supp = 0 then s else s.setBucket { b with supp := 0 }).writeRec ev b.supp

/-- What the writer does with one event: flood handling, then writing; none when it must hold the event (R428). -/
def State.writeEvent (s : State) (ev : Event) : Option State :=
  let cfg := s.codeCfg ev.code
  if floodExempt ev.code then s.writeRec ev 0
  else if cfg.rate then
    let b := s.refilled ev.code
    if b.tokens = 0 then
      some { s.setBucket { b with supp := b.supp + 1 } with
        sed := { (s.setBucket { b with supp := b.supp + 1 }).sed with
          suppressed := satAdd 0xFFFFFFFF s.sed.suppressed 1 } }
    else
      let since := if b.tokens = cfg.burst then s.now else b.since
      (s.setBucket { b with tokens := b.tokens - 1, since, supp := 0 }).writeRec ev b.supp
  else
    match s.sed.ring.getLast? with
    | some r =>
      if s.recOpen && r.folds ev then
        let r' := { r with rep := r.rep + 1, span := min 0xFFFF (s.opMs / 1000 - r.time) }
        some { s with sed := { s.sed with ring := s.sed.ring.dropLast ++ [r'], lastFold := s.now } }
      else s.writeRepeat ev
    | none => s.writeRepeat ev

/-- A record written at once, ahead of the bus. -/
def State.writeFirst (s : State) (ev : Event) : State :=
  match s.writeRec ev 0 with
  | some s' => s'
  | none => { s with sed := { s.sed with queue := ev :: s.sed.queue } }

/-- The events that have arrived are written, in their order. -/
def State.writeWaiting (s : State) : State :=
  (s.sed.queue ++ s.sed.bus).foldl (fun s ev => match s.writeEvent ev with
    | some s' => s'
    | none => { s with sed := { s.sed with queue := s.sed.queue ++ [ev] } })
    { s with sed := { s.sed with bus := [], queue := [] } }

/-- A reset record: it is written at once, after the events that arrived before it (R384, R428, R429). -/
def State.writeNow (s : State) (code detail src ctx : Nat) : State :=
  s.writeWaiting.writeFirst { code, detail := min detail 0xFFFF, src, ctx, words := [] }

/-- Copies every record of the always-on ring to the flash ring and closes the open one; the sequence and the operating
time are saved with it (R426, R439). -/
def State.flushLog (s : State) : State :=
  let fresh := s.sed.ring.filter fun r => decide (s.sed.flushed ≤ r.seq)
  let all := s.sed.flash ++ fresh
  { s with sed := { s.sed with flash := all.drop (all.length - 262144), flushed := s.sed.nextSeq, openRec := false, savedMs := s.opMs } }

/-- The bytes of a record (R425). -/
def SedRec.bytes (r : SedRec) : List Byte :=
  let body := leBytes 2 r.code ++ leBytes 2 (placed r.sev 12 + r.src) ++ leBytes 2 r.rep ++ leBytes 2 r.detail ++
    leBytes 5 r.time ++ leBytes 3 r.pcc ++ leBytes 6 r.seq ++ leBytes 1 r.ctx ++ leBytes 1 r.flags ++
    (eightWords r.snap).flatMap (leBytes 4) ++ leBytes 2 r.supp ++ leBytes 2 r.span
  body ++ leBytes 4 (crc32c body)

/-- The source's oldest waiting event goes to the writer, or is dropped, or waits (R428, R440). -/
def State.postEvent (s : State) (src : Nat) : State :=
  match s.sed.bus.find? (fun e => e.src == src) with
  | none => s
  | some ev =>
    let bus := s.sed.bus.erase ev
    let low := severity ev.code < 5
    let lowHeld := (s.sed.queue.filter fun e => severity e.code < 5).length
    if low && (960 ≤ lowHeld || 1024 ≤ s.sed.queue.length) then
      { s with sed := { s.sed with bus, lostPending := s.sed.lostPending + 1,
                                   lost := satAdd 0xFFFFFFFF s.sed.lost 1 } }
    else if 1024 ≤ s.sed.queue.length then s
    else { s with sed := { s.sed with bus, queue := s.sed.queue ++ [ev] } }

/-- SED_EVENT_POST (R428). -/
def execSedEventPost (src : Nat) (s : State) : Out := .next (s.postEvent src)

/-- SED_RECORD_WRITE: the writer takes its oldest event (R428). -/
def execSedRecordWrite (s : State) : Out :=
  match s.sed.queue with
  | [] => .next s
  | ev :: q =>
    match State.writeEvent { s with sed := { s.sed with queue := q } } ev with
    | some s' => .next s'
    | none => .next s

/-- SED_FLUSH (R439). -/
def execSedFlush (s : State) : Out := .next s.flushLog

end Sys2Proof.Machine
end

