-- ==== Sys2Proof/Machine/Records.lean ====
section
/-! DEFINITION. The flash devices' areas, the unit keys, and the signed flash records (R394 to R397, R399): their bytes,
their validity, the record that applies, and the records that the unit writes. -/

namespace Sys2Proof.Machine

/-! ## The two devices (R394) -/

/-- The areas of a flash device; the log area is the Sediment flash ring on FLASH0 and the crash dump on FLASH1. -/
inductive FlashArea where
  | image
  | staging
  | settings
  | records
  | log
  | reserved
  deriving DecidableEq, Repr

/-- The device offset of an area. -/
def FlashArea.offset : FlashArea → Nat
  | .image => 0x00000000
  | .staging => 0x08000000
  | .settings => 0x10000000
  | .records => 0x14000000
  | .log => 0x15000000
  | .reserved => 0x17000000

/-- The size of an area in bytes. -/
def FlashArea.size : FlashArea → Nat
  | .image => 128 * 2 ^ 20
  | .staging => 128 * 2 ^ 20
  | .settings => 64 * 2 ^ 20
  | .records => 16 * 2 ^ 20
  | .log => 32 * 2 ^ 20
  | .reserved => 144 * 2 ^ 20

/-- Bank 0 is A, on FLASH0; bank 1 is B, on FLASH1. -/
def Flash.bank (f : Flash) (b : Nat) : BankImage := if b = 0 then f.bankA else f.bankB

/-- Replaces a bank's image. -/
def Flash.setBank (f : Flash) (b : Nat) (i : BankImage) : Flash := if b = 0 then { f with bankA := i } else { f with bankB := i }

/-- A bank's staging area. -/
def Flash.staging (f : Flash) (b : Nat) : List Byte := if b = 0 then f.stagingA else f.stagingB

/-- Replaces the content of a bank's staging area. -/
def Flash.setStaging (f : Flash) (b : Nat) (l : List Byte) : Flash :=
  if b = 0 then { f with stagingA := l } else { f with stagingB := l }

/-- The settings of a bank's firmware. -/
def Flash.settings (f : Flash) (b : Nat) : Settings := if b = 0 then f.setA else f.setB

/-- Replaces the settings of a bank's firmware. -/
def Flash.setSettings (f : Flash) (b : Nat) (x : Settings) : Flash := if b = 0 then { f with setA := x } else { f with setB := x }

/-- The bank that an update writes: the one not running; bank A in recovery (R407). -/
def State.updBank (s : State) : Nat := if s.boot.phase = .recovery then 0 else 1 - s.boot.bank

/-- Whether a bank's image area and staging area are write-protected: LGL_PROT_CFG.wp_a or wp_b holds once the boot lock is
closed; while it is open the ROM, which writes the field, is not bound by it (R408, R409). -/
def State.bankProtected (s : State) (b : Nat) : Bool := !s.boot.lockOpen && s.boot.prot.getLsbD (1 + b)

/-- Writes a bank's image area; nothing while it is protected (R408). -/
def State.putBank (s : State) (b : Nat) (i : BankImage) : State :=
  if s.bankProtected b then s else { s with flash := s.flash.setBank b i }

/-- Writes a bank's staging area; nothing while it is protected (R408). -/
def State.putStaging (s : State) (b : Nat) (l : List Byte) : State :=
  if s.bankProtected b then s else { s with flash := s.flash.setStaging b l }

/-! ## The unit's keys (R398, R399) -/

/-- The root secret U of this package's silicon. -/
def rootSecret : List Byte := (List.range 48).map Config.rootSecret

/-- The unit identity key's private scalar for a root secret; HKDF without a salt (log entry 6). -/
def unitScalar (u : List Byte) : Nat := beNat (hkdf384 [] u (asciiBytes "unit-id") 48) % (p384N - 1) + 1

/-- The public key of a private scalar in its 97-byte uncompressed encoding. -/
def publicBytes (d : Nat) : List Byte := 4 :: p384Point (p384Public d)

/-- The unit's public key. -/
def unitPublic : List Byte := publicBytes (unitScalar rootSecret)

/-- The key that authenticates updates of the RPMC counters. -/
def rpmcKey : List Byte := hkdf384 [] rootSecret (asciiBytes "rpmc") 32

/-- The unit identity digest (R399). -/
def unitDigest : BitVec 128 := sha384Digest128 unitPublic

/-- Whether the signing engine signs with the unit key: the ROM uses it until handover, the firmware while sign_en is set
(R399, R408, R409). -/
def State.maySign (s : State) : Bool := s.boot.ident && (s.boot.lockOpen || s.boot.prot.getLsbD 4)

/-- A signature with the unit key over bytes. Its nonce is free (log entry 6). -/
def State.unitSign (s : State) (b : List Byte) : List Byte × State :=
  let (k, s) := s.draw
  (ecdsaSign (unitScalar rootSecret) (sha384 b) (Config.freeNat k % (p384N - 1) + 1), s)

/-- The authentication of an RPMC update (R397, R399): a MAC with the RPMC key, the HMAC that the model has; the
device's protocol is not given (log entry 149). -/
def rpmcMac (counter value : Nat) : List Byte := hmac384 rpmcKey (leBytes 1 counter ++ leBytes 4 value)

/-- Whether an update of an RPMC counter can be authenticated and is let through (R397, R399, R408): the RPMC key exists
only with an identity, and after handover the flash controller raises the counters only while rpmc_en is set. -/
def State.mayRaise (s : State) : Bool := s.boot.ident && (s.boot.lockOpen || s.boot.prot.getLsbD 3)

/-- What FLASH0 makes of an update of a counter that holds `old`: an authentic one raises it, and none lowers it (R397). -/
def rpmcTake (old counter value : Nat) (mac : List Byte) : Nat := if mac = rpmcMac counter value then max old value else old

/-- Raises the rollback counter, RPMC counter 0 (R397). -/
def State.raiseRollback (s : State) (v : Nat) : State :=
  { s with flash := { s.flash with
    rollback := if s.mayRaise then rpmcTake s.flash.rollback 0 v (rpmcMac 0 v) else s.flash.rollback } }

/-- Raises RPMC counter 1, the highest fleet enrolment sequence ever accepted (R397, R421). -/
def State.raiseFleet (s : State) (v : Nat) : State :=
  { s with flash := { s.flash with
    fleetSeq := if s.mayRaise then rpmcTake s.flash.fleetSeq 1 v (rpmcMac 1 v) else s.flash.fleetSeq } }

/-! ## Records (R395, R396) -/

/-- The head and the body of a record, which its signature covers. -/
def FlashRec.signed (r : FlashRec) : List Byte :=
  leBytes 4 0x43455253 ++ leBytes 2 r.kind ++ leBytes 2 r.fmt ++ leBytes 8 r.seq ++ beBytes 16 r.digest.toNat ++
  leBytes 4 r.body.length ++ leBytes 1 r.signer ++ List.replicate 27 0 ++ r.body

/-- The bytes of a record. -/
def FlashRec.bytes (r : FlashRec) : List Byte := r.signed ++ r.sig

/-- Whether a signer is permitted for a kind. -/
def signerOk (kind signer : Nat) : Bool :=
  if kind = 1 ∨ kind = 0x13 then decide (signer < 4)
  else if 2 ≤ kind ∧ kind ≤ 6 then signer == 0x10
  else if 0x10 ≤ kind ∧ kind ≤ 0x12 then signer == 0x20
  else false

/-- Whether a record's binding is one its kind allows: enrolments and debug authorisations are bound to the unit. -/
def State.bindingOk (s : State) (r : FlashRec) : Bool :=
  (s.boot.ident && r.digest == unitDigest) || (r.digest == 0 && r.kind != 5 && r.kind != 6)

/-- Whether a record holds under a public key `x ‖ y`: signer, signature and binding (R396). -/
def State.holdsUnder (s : State) (r : FlashRec) (key : List Byte) : Bool :=
  signerOk r.kind r.signer && decide (r.body.length ≤ 65536) && ecdsaVerify key (sha384 r.signed) r.sig && s.bindingOk r

/-- The records on both copies (R396). -/
def Flash.records (f : Flash) : List FlashRec := f.records0 ++ f.records1

/-- The record with the highest sequence. -/
def latest (l : List FlashRec) : Option FlashRec :=
  l.foldl (fun best r =>
    match best with
    | none => some r
    | some b => if b.seq < r.seq then some r else some b) none

/-- Tuinel's public key of an index. -/
def tuinelKey (i : Nat) : List Byte := (List.range 96).map (Config.tuinelKey i)

/-- The installation owner's public key: the body of the owner assignment that applies, `x ‖ y` as R401 writes a key (log
entry 147). -/
def State.ownerKey (s : State) : Option (List Byte) :=
  (latest (s.flash.records.filter fun r => r.kind == 1 && s.holdsUnder r (tuinelKey r.signer))).map fun r => r.body.take 96

/-- Whether a record is valid (R396). -/
def State.recordOk (s : State) (r : FlashRec) : Bool :=
  if r.signer = 0x10 then s.ownerKey.any fun k => s.holdsUnder r k
  else if r.signer = 0x20 then s.boot.ident && s.holdsUnder r (unitPublic.drop 1)
  else s.holdsUnder r (tuinelKey r.signer)

/-- The record of a kind that applies: the valid one with the highest sequence on either copy. -/
def State.applying (s : State) (kind : Nat) : Option FlashRec :=
  latest (s.flash.records.filter fun r => r.kind == kind && s.recordOk r)

/-! ## What the unit writes (R8, R381, R400, R406) -/

/-- The next sequence of a kind. -/
def Flash.nextSeq (f : Flash) (kind : Nat) : Nat := ((latest (f.records.filter fun r => r.kind == kind)).map fun r => r.seq + 1).getD 0

/-- The record formats in which a record is written: the running firmware's, and until FW_CONFIRM the old firmware's where
a trial firmware's differs (R418). -/
def State.recFormats (s : State) : List Nat :=
  s.boot.recfmt :: (if s.boot.phase = .running then s.flash.recFmtBoth.toList else [])

/-- Writes a unit-key record to both copies, in each record format, in place of the kind's older ones there (R418, log entry
148). -/
def State.writeUnitRec (s : State) (kind : Nat) (body : List Byte) : State :=
  if s.maySign then
    let seq := s.flash.nextSeq kind
    let one (fmt : Nat) (q : List FlashRec × State) : List FlashRec × State :=
      let r : FlashRec := { kind, fmt, seq, digest := unitDigest, signer := 0x20, body, sig := [] }
      let (sig, s) := q.2.unitSign r.signed
      (q.1 ++ [{ r with sig }], s)
    let (recs, s) := s.recFormats.foldl (fun q fmt => one fmt q) ([], s)
    let put (l : List FlashRec) : List FlashRec := (l.filter fun q => q.kind != kind) ++ recs
    { s with flash := { s.flash with records0 := put s.flash.records0, records1 := put s.flash.records1 } }
  else s

/-- The body of a retirement record: the spec gives its content and no layout (R8, R240, log entry 148). -/
def Flash.retiredBody (f : Flash) : List Byte :=
  leBytes 32 f.retiredGrains.toNat ++ leBytes 4 f.retiredPorts.toNat ++ leBytes 8 f.retiredCopy.toNat ++
    f.retiredPages.flatMap (leBytes 4)

/-- The retirements that a record's body holds. -/
def Flash.takeRetired (f : Flash) (b : List Byte) : Flash :=
  { f with
    retiredGrains := BitVec.ofNat 256 (leAt b 0 32), retiredPorts := BitVec.ofNat 32 (leAt b 32 4)
    retiredCopy := BitVec.ofNat 64 (leAt b 36 8)
    retiredPages := (List.range ((b.length - 44) / 4)).map fun i => leAt b (44 + 4 * i) 4 }

/-- Keeps retirements: as a unit-key record, or in settings alone on a package without an identity (R8, R400). -/
def State.saveRetired (s : State) : State :=
  if s.boot.ident then s.writeUnitRec 0x11 s.flash.retiredBody else { s with flash := { s.flash with settingsOnly := true } }

/-- Keeps the power-cycle count (R381, R400). -/
def State.savePcc (s : State) : State :=
  if s.boot.ident then s.writeUnitRec 0x12 (leBytes 4 s.flash.pcc) else { s with flash := { s.flash with settingsOnly := true } }

/-- The body of a boot control record (R406). -/
def BootCtl.body (c : BootCtl) : List Byte :=
  leBytes 1 (c.active % 2 + placed (flag c.staged) 1 + placed (flag c.armed) 2 + placed (flag c.trial) 3 + placed (flag c.tried) 4) ++
  leBytes 1 (c.upd % 8) ++ leBytes 2 0 ++ leBytes 4 c.sver ++ sliceBytes c.digest 0 48 ++ List.replicate 8 0

/-- The boot control that a body holds. -/
def BootCtl.ofBody (b : List Byte) : BootCtl :=
  let f := leAt b 0 1
  { active := f % 2, staged := bitOf f 1, armed := bitOf f 2, trial := bitOf f 3, tried := bitOf f 4
    upd := leAt b 1 1 % 8, sver := leAt b 4 4, digest := sliceBytes b 8 48 }

/-- The boot control record that applies; with none every flag is 0 (R406). -/
def State.bootCtl (s : State) : BootCtl :=
  s.flash.control.getD { active := 0, staged := false, armed := false, trial := false, tried := false, upd := 0, sver := 0,
                         digest := [] }

/-- Writes the boot control record, a whole new one with the next sequence; a package without an identity writes none, and
in recovery the table of R406 has no write (R400, R406). -/
def State.writeCtl (s : State) (c : BootCtl) : State :=
  if s.boot.ident ∧ s.boot.phase ≠ .recovery then
    let s := s.writeUnitRec 0x10 c.body
    { s with flash := { s.flash with control := some c } }
  else s

/-- What the records say once they are read at boot (R396, R400, R406): the boot control, and, unless settings alone hold
them, retirements and power-cycle count. -/
def State.takeRecords (s : State) : State :=
  let f := { s.flash with control := (s.applying 0x10).map fun r => BootCtl.ofBody r.body }
  if s.boot.ident && !f.settingsOnly then
    let f := (s.applying 0x11).elim f fun r => f.takeRetired r.body
    { s with flash := (s.applying 0x12).elim f fun r => { f with pcc := leAt r.body 0 4 } }
  else { s with flash := f }

end Sys2Proof.Machine
end

