-- ==== Sys2Proof/Machine/Flits.lean ====
section
/-! DEFINITION. Flits as the wire carries them (R296, R297), sealed and opened (R310), and what a partner's hello says
(R309). -/

namespace Sys2Proof

open Machine

/-- The header word of a flit (R297). -/
def Flit.header (f : Flit) : Nat :=
  placed (f.vc % 4) 62 + placed (f.type % 16) 58 + placed (flag f.last) 57 + placed (flag f.crypt) 56 +
  placed (f.bind % 4096) 44 + placed (f.epoch % 256) 36 + placed (f.seq % 2 ^ 24) 12 + placed (f.fill % 256) 4 + f.reserved % 16

/-- Bytes 0 to 251 of a flit, which its check covers (R296). -/
def Flit.checked (f : Flit) : List Byte :=
  leBytes 8 f.header ++ sliceBytes f.payload 0 240 ++ leBytes 3 f.ack ++
    leBytes 1 (placed (f.creditVc % 4) 6 + f.credits % 64)

/-- The 256 bytes of a flit (R296). -/
def Flit.bytes (f : Flit) : List Byte := f.checked ++ leBytes 4 (crc32c f.checked)

/-- The fields of a flit's 256 bytes (R296, R297). -/
def Flit.ofBytes (b : List Byte) : Flit :=
  let h := leAt b 0 8
  { vc := bitsOf h 63 62, type := bitsOf h 61 58, last := bitOf h 57, crypt := bitOf h 56, bind := bitsOf h 55 44
    epoch := bitsOf h 43 36, seq := bitsOf h 35 12, fill := bitsOf h 11 4, reserved := bitsOf h 3 0
    payload := sliceBytes b 8 240, ack := leAt b 248 3, creditVc := leAt b 251 1 / 64, credits := leAt b 251 1 % 64 }

/-- Whether a flit's check is good (R296). -/
def crcGood (b : List Byte) : Bool := leAt b 252 4 == crc32c (sliceBytes b 0 252)

/-- What one flit's place among 4,096 is for the shares of R298: its VC, 4 for a flit of the link. -/
def Flit.share (f : Flit) : Nat := if f.type < 2 then 4 else f.vc

/-- The nonce of AES-256-GCM (R310): epoch, key generation, flit count, as one big-endian number (log entry 9). -/
def linkNonce (epoch gen count : Nat) : List Byte := beBytes 4 epoch ++ beBytes 2 gen ++ beBytes 6 count

/-- A flit sealed under a link key (R296, R310): ciphertext in payload bytes 0 to 223, then the tag; the header is additional
data. -/
def Flit.seal (f : Flit) (key nonce : List Byte) : Flit :=
  let c := gcmSeal key nonce (leBytes 8 f.header) (sliceBytes f.payload 0 224)
  { f with payload := c.1 ++ c.2 }

/-- The payload of a sealed flit; none when its tag fails (R296, R310). -/
def Flit.unseal (f : Flit) (key nonce : List Byte) : Option (List Byte) :=
  gcmOpen key nonce (leBytes 8 f.header) (sliceBytes f.payload 0 224) (sliceBytes f.payload 224 16)

/-- The bytes of a hello, in the order of R309; the spec gives no layout of it (log entry 9). -/
def helloBytes (nonce : List Byte) (epoch : Nat) (ecdh : List Byte) (hasCrypto cryptReq : Bool) : List Byte :=
  nonce ++ leBytes 4 epoch ++ ecdh ++ leBytes 1 (flag hasCrypto + placed (flag cryptReq) 1)

/-- The partner's hello. -/
def LinkHello.bytes (h : LinkHello) : List Byte := helloBytes h.nonce h.epoch h.ecdh h.hasCrypto h.cryptReq

/-- The partner's unit identity digest (R309, R399). -/
def LinkHello.digest (h : LinkHello) : BitVec 128 := sha384Digest128 (4 :: h.unitKey)

/-- Whether this side's identity is the lower (R309). -/
def LinkHello.ownLower (h : LinkHello) : Bool := decide (unitDigest.toNat < h.digest.toNat)

end Sys2Proof
end

