-- ==== Sys2Proof/Machine/Dot.lean ====
section
/-! DEFINITION. Dot products in the reference order (R68 to R87): one block's result and the chain of block results.
Everything here is a function of the element codes, the scales and K. -/

namespace Sys2Proof.Machine

/-- A block result with what the Sieve counts for it (R80, R83). -/
structure BlockRes where
  code : Nat
  nonfinite : Bool
  overflow : Bool
  deriving DecidableEq, Repr

/-- The exact sum of signed dyadic values (R71), as an integer times a power of two. -/
def exactSum (l : List (Bool × Nat × Int)) : Int × Int :=
  let e := l.foldl (fun acc p => if p.2.1 = 0 then acc else min acc p.2.2) ((l.map fun p => p.2.2).headD 0)
  (l.foldl (fun acc p => acc + (if p.1 then -1 else 1) * ((p.2.1 * 2 ^ (p.2.2 - e).toNat : Nat) : Int)) 0, e)

/-- The finite products of a block. -/
def finProducts (ps : List Num) : List (Bool × Nat × Int) :=
  ps.filterMap fun p => match p with
    | .fin neg m e => some (neg, m, e)
    | _ => none

/-- An exact value rounded to FP32 as a block result (R72, R76): an overflow is one block overflow. -/
def blockRound (neg : Bool) (m : Nat) (e : Int) (sticky : Bool) : BlockRes :=
  if m = 0 then { code := 0, nonfinite := false, overflow := false }
  else
    let r := (fp32.round .rne neg m e sticky).1
    { code := r, nonfinite := false, overflow := r % 2 ^ 31 = 0x7F800000 }

/-- The leading bit's exponent of the largest non-zero product (R73). -/
def pMax (l : List (Bool × Nat × Int)) : Option Int :=
  l.foldl (fun acc p =>
    if p.2.1 = 0 then acc
    else
      let x := (Nat.log2 p.2.1 : Int) + p.2.2
      match acc with
      | none => some x
      | some y => some (max x y)) none

/-- A magnitude truncated toward zero at weight 2^q, and whether a bit was discarded. -/
def cutLow (m : Nat) (e q : Int) : Nat × Bool :=
  if q ≤ e then (m * 2 ^ (e - q).toNat, false)
  else (m / 2 ^ (q - e).toNat, m % 2 ^ (q - e).toNat != 0)

/-- The window sum of a BF16 or FP16 block (R73, R74). -/
def windowSum (l : List (Bool × Nat × Int)) : BlockRes :=
  match pMax l with
  | none => { code := 0, nonfinite := false, overflow := false }
  | some p =>
    let q := p - 104
    let cut := l.map fun x => (x.1, cutLow x.2.1 x.2.2 q)
    let w := cut.foldl (fun acc (x : Bool × Nat × Bool) => acc + (if x.1 then -1 else 1) * (x.2.1 : Int)) (0 : Int)
    let sticky := cut.any fun x => x.2.2
    if w = 0 then { code := 0, nonfinite := false, overflow := false }
    else blockRound (decide (w < 0)) w.natAbs q sticky

/-- The signed value of a scale for the exact scaled sum (R72); E8M0 and BF16 scales of usable blocks. -/
def scaleNum : Scale → Bool × Nat × Int
  | .unit => (false, 1, 0)
  | .e8m0 e => (false, 1, (e : Int) - 127)
  | .asym s _ =>
    match bf16.decode s with
    | .fin neg m e => (neg, m, e)
    | _ => (false, 0, 0)

/-- An element as the array's cells see it: the decoded code, or the difference q − z of an integer format (R51). -/
def cellValue (f : ElemFmt) (sc : Scale) (code : Nat) : Num :=
  match sc with
  | .asym _ z => numOfInt ((code : Int) - z) 0
  | .unit => f.layout.decode code
  | .e8m0 _ => f.layout.decode code

/-- The result of one block of products (R68, R80): `a` and `b` are the codes at the positions below K. -/
def blockResult (fa fb : ElemFmt) (sa sb : Scale) (a b : List Nat) : BlockRes :=
  let xs := a.map (cellValue fa sa)
  let ys := b.map (cellValue fb sb)
  let ps := (xs.zip ys).map fun p => (mulNum p.1 p.2).1
  let nan : BlockRes := { code := 0x7FC00000, nonfinite := true, overflow := false }
  if sa.unusable fa || sb.unusable fb || hasNan xs || hasNan ys then nan
  else if hasNan ps then nan
  else
    let pos := ps.contains (.inf false)
    let neg := ps.contains (.inf true)
    if pos && neg then nan
    else if pos then { code := 0x7F800000, nonfinite := true, overflow := false }
    else if neg then { code := 0xFF800000, nonfinite := true, overflow := false }
    else if fa.isWide then windowSum (finProducts ps)
    else
      let s := exactSum (finProducts ps)
      let u := scaleNum sa
      let v := scaleNum sb
      blockRound ((decide (s.1 < 0) != u.1) != v.1) (s.1.natAbs * u.2.1 * v.2.1) (s.2 + u.2.2 + v.2.2) false

/-- A chain's running value with the chain overflows so far (R77). -/
structure Chain where
  c : Nat
  overflows : Nat
  deriving DecidableEq, Repr

/-- Whether an FP32 code is an infinity. -/
def isInf32 (x : Nat) : Bool := x % 2 ^ 31 == 0x7F800000

/-- Whether an FP32 code is finite. -/
def isFin32 (x : Nat) : Bool := decide (x % 2 ^ 31 < 0x7F800000)

/-- One addition of the chain (R77, R81): a finite sum that overflows is one chain overflow. -/
def Chain.add (ch : Chain) (r : Nat) : Chain :=
  let c := add32 ch.c r
  { c, overflows := ch.overflows + flag (isFin32 ch.c && isFin32 r && isInf32 c) }

/-- The chain of R68: it starts from the first block result, or from the accumulator when it continues one (R79),
and takes the bias last (R78). -/
def chainOf (start : Option Nat) (rs : List Nat) (bias : Option Nat) : Chain :=
  let ch := match start, rs with
    | some a, rs => rs.foldl Chain.add { c := a, overflows := 0 }
    | none, r :: rs => rs.foldl Chain.add { c := r, overflows := 0 }
    | none, [] => { c := 0, overflows := 0 }
  match bias with
  | some b => ch.add b
  | none => ch

/-! ## Reductions outside the arrays (R86) -/

/-- A list cut into blocks of 32. -/
def blocks32 {α : Type} : Nat → List α → List (List α)
  | 0, _ => []
  | fuel + 1, l => if l.isEmpty then [] else l.take 32 :: blocks32 fuel (l.drop 32)

/-- A fold over a list from its first element. -/
def fold1 {α : Type} (f : α → α → α) (d : α) : List α → α
  | [] => d
  | x :: xs => xs.foldl f x

/-- A sum in the order of R86, with flags. -/
def sumOrder (f : FloatFmt) (xs : List Nat) : Nat × Flags :=
  let add (p : Nat × Flags) (x : Nat × Flags) : Nat × Flags :=
    let r := f.add .rne p.1 x.1
    (r.1, p.2 ||| x.2 ||| r.2)
  fold1 add (0, 0) ((blocks32 xs.length xs).map fun b => fold1 add (0, 0) (b.map fun x => (x, 0)))

/-- One block of a dot product in the order of R86: the first product rounded, then one fused multiply-add each. -/
def dotBlock (f : FloatFmt) : List (Nat × Nat) → Nat × Flags
  | [] => (0, 0)
  | p :: ps => ps.foldl (fun acc q =>
      let r := f.fma .rne q.1 q.2 acc.1
      (r.1, acc.2 ||| r.2)) (f.mul .rne p.1 p.2)

/-- A dot product in the order of R86, with flags. -/
def dotOrder (f : FloatFmt) (xs ys : List Nat) : Nat × Flags :=
  let add (p : Nat × Flags) (x : Nat × Flags) : Nat × Flags :=
    let r := f.add .rne p.1 x.1
    (r.1, p.2 ||| x.2 ||| r.2)
  fold1 add (0, 0) ((blocks32 xs.length (xs.zip ys)).map (dotBlock f))

end Sys2Proof.Machine
end

