-- ==== Sys2Proof/Machine/Sync.lean ====
section
/-! DEFINITION. Instruction words (R257), waits and signals (R258 to R263), division among children (R280), lanes
(R266), notices to sessions (R336), and a context's fault with the reset it starts (R98, R373, R377). -/

namespace Sys2Proof.Machine

/-! ## Finding placed instructions -/

/-- A placed instruction with what surrounds it. -/
structure Found where
  ctx : Ctx
  run : StepRun
  p : Placed
  words : List Nat
  path : Nat
  nFirst : Nat

/-- The placed, unretired instruction an operand names. -/
def State.found? (s : State) (r : InstrRef) : Option Found :=
  match s.ctx? r.ctx with
  | none => none
  | some c =>
    match c.steps.find? (fun run => run.step == r.step) with
    | none => none
    | some run =>
      match run.placed.find? (fun p => p.stream == r.stream && p.index == r.index && p.phase != .retired) with
      | none => none
      | some p =>
        some { ctx := c, run, p, words := c.words r.stream r.index, path := c.streamPath r.stream,
               nFirst := (c.plan.map Plan.nFirst).getD 0 }

/-- The operand that names a found instruction. -/
def Found.ref (f : Found) : InstrRef :=
  { ctx := f.ctx.id, step := f.run.step, stream := f.p.stream, index := f.p.index }

/-- The grains with a share of a vector or conversion instruction (R266). -/
def State.unitGrains (s : State) (f : Found) : List Nat := s.shareGrains f.ctx f.run f.p

/-- The engines that run a vector or conversion instruction: one unit of each grain with a share (R266). -/
def State.unitEngines (s : State) (f : Found) : List Engine :=
  (s.unitGrains f).map fun g => if laneOf f.words = some .conversion then .conversion0 g else .vector g

/-- Whether the engine that an instruction of a lane needs is in an engine reset (R378); a conversion instruction takes
either unit of its grain (R266). -/
def State.engineStopped (s : State) (f : Found) : Bool :=
  let stopped (e : Engine) : Bool := (s.engineRec e).resetting.isSome
  match laneOf f.words with
  | some .vector => (s.unitGrains f).any fun g => stopped (.vector g)
  | some .conversion => (s.unitGrains f).any fun g => stopped (.conversion0 g) && stopped (.conversion1 g)
  | some (.copy e) => stopped (.copy e)
  | _ => false

/-- The units that take up an instruction of a lane (R462, R463): its ped's controller or grain, and its engines'. -/
def State.workUnits (s : State) (f : Found) : List Nat :=
  (if f.path / 256 ≤ 3 then [f.path] else []) ++ s.unitGrains f ++ (match laneOf f.words with
   | some (.copy e) => [0x500 + e]
   | _ => [])

/-- Work arrives at units: each is enabled (R464). -/
def State.wake (s : State) (l : List Nat) : State := l.foldl State.enable s

/-- The argument block of an index. -/
def Plan.arg (p : Plan) (i : Nat) : List Byte := p.args.getD i []

/-- Replaces a step's record. -/
def Ctx.mapRun (c : Ctx) (step : Nat) (f : StepRun → StepRun) : Ctx :=
  { c with steps := c.steps.map fun r => if r.step = step then f r else r }

/-- Replaces a placed instruction's record. -/
def Ctx.mapPlaced (c : Ctx) (r : InstrRef) (f : Placed → Placed) : Ctx :=
  c.mapRun r.step fun run =>
    { run with placed := run.placed.map fun p => if p.stream = r.stream ∧ p.index = r.index then f p else p }

/-- Replaces a placed instruction's record in the state. -/
def State.mapPlaced (s : State) (r : InstrRef) (f : Placed → Placed) : State := s.mapCtx r.ctx fun c => c.mapPlaced r f

/-- Sets the phase of a placed instruction. -/
def State.setPhase (s : State) (r : InstrRef) (ph : Phase) : State := s.mapPlaced r fun p => { p with phase := ph }

/-! ## Waits (R258, R261, R262) -/

/-- The value a counter reference denotes for a context: its own counter, or the counter of a commons object it has
attached, which lies with the owner's context (R252, R261). -/
def State.refValue (s : State) (c : Ctx) (ref : Nat) : Nat :=
  if bitOf ref 17 then
    match s.arbiter.objects.find? (fun o => o.entry.id == ref % 4096) with
    | some o => ((s.ctx? o.owner).map fun w => w.counter o.entry.counter).getD 0
    | none => 0
  else c.counter ref

/-- The effective wait value (R258). -/
def waitValue (ws : List Nat) (base step nFirst : Nat) : Nat := base + bitsOf (wordAt ws 1) 31 19 * (step - nFirst)

/-- The common wait of an instruction holds (R258). -/
def State.commonWait (s : State) (f : Found) : Bool :=
  !(bitOf (wordAt f.words 1) 18) ||
  decide (waitValue f.words (wordAt f.words 2) f.run.step f.nFirst ≤
    s.refValue f.ctx (bitsOf (wordAt f.words 1) 17 0))

/-- One of the two further waits of SYN_WAIT (R263). -/
def State.pairWait (s : State) (f : Found) (i : Nat) : Bool :=
  !(bitOf (wordAt f.words i) 18) ||
  decide (waitValue f.words (wordAt f.words (i + 1)) f.run.step f.nFirst ≤
    s.refValue f.ctx (bitsOf (wordAt f.words i) 17 0))

/-- Every wait of an instruction holds (R257, R263). -/
def State.waitHolds (s : State) (f : Found) : Bool :=
  s.commonWait f && (wOp f.words != 0x50 || (s.pairWait f 4 && s.pairWait f 6))

/-- The reference of the first wait that does not hold (R264). -/
def State.waitRef (s : State) (f : Found) : Nat :=
  if !(s.commonWait f) then bitsOf (wordAt f.words 1) 17 0
  else if !(s.pairWait f 4) then bitsOf (wordAt f.words 4) 17 0
  else bitsOf (wordAt f.words 6) 17 0

/-! ## Notices to operators (R336) -/

/-- Queues a device-wide event for every operator session (R327, R336). -/
def State.notifyOps (s : State) (code detail : Nat) : State :=
  (s.ligil.sessions.filter fun se => se.roles.getLsbD 2).foldl
    (fun s se => s.notifySession se.id { code, detail := min detail 0xFFFF, ctx := noCtx, step := 0, data := [] }) s

/-! ## A context's fault (R98, R373, R377, R384) -/

/-- The level a reset cause shows in PED_RESET_STATUS (R391; log entry 14). -/
def causeLevel (cause : Nat) : Nat := if cause = 4 then 2 else if cause = 5 then 3 else 1

/-- A context enters RESETTING (R377, R391). -/
def Ctx.enterReset (c : Ctx) (cause now opMs : Nat) : Ctx :=
  { c with
    phase := .resetting
    reset := some { cause, start := now, stopped := false, release := false, dies := [], lost := false }
    rst := { c.rst with
      level := causeLevel cause
      code := 0x5001 + causeLevel cause
      count := satAdd 0xFF c.rst.count 1
      faultTimes := if cause = 2 then c.rst.faultTimes ++ [opMs] else c.rst.faultTimes }
    paths := c.paths.map fun p => (p.1, { p.2 with fault := 0 })
    grains := c.grains.map fun g => (g.1, { g.2 with skewValid := false })
    sieve := { c.sieve with counts := [] } }

/-- A context's items leave every queue, window and array (R160). -/
def State.dropItems (s : State) (id : Nat) : State :=
  let keep (i : Item) : Bool := i.ref.ctx != id
  { s with scheds := s.scheds.map fun p => (p.1, { p.2 with
      queue := p.2.queue.filter keep, fwd := p.2.fwd.filter keep, bwd := p.2.bwd.filter keep
      running := p.2.running.filter fun r => keep r.2.1 }) }

/-- Begins a context reset (R160, R377): the reset record is written at once, the context enters RESETTING and its items
are gone at once. A context that is RESETTING starts no second reset. -/
def State.beginCtxReset (s : State) (id cause : Nat) : State :=
  match s.ctx? id with
  | none => s
  | some c =>
    if c.phase = .resetting then s
    else ((s.writeNow 0x5002 cause pkgPath id).dropItems id).mapCtx id fun c => c.enterReset cause s.now s.opMs

/-- Records a scale mismatch on a grain, unless one is held there already (R100). -/
def GrainRegs.recordSkew (r : GrainRegs) (k : Mismatch) : GrainRegs :=
  if r.skewValid then r
  else { r with skewExpect := BitVec.ofNat 32 k.expect, skewFound := BitVec.ofNat 32 k.found, skewReader := k.reader,
                skewValid := true }

/-- Records a mismatch on the grain that found it (R100). -/
def Ctx.noteSkew (c : Ctx) (k : Mismatch) : Ctx :=
  if k.src < 256 then c.setGrain k.src ((c.grain k.src).recordSkew k) else c

/-- A context faults (R98): the failure is logged with its source, and so is what another reader found at the same time;
the context takes one context reset with cause 0x0002, PED_STATUS.fault shows the code on the ped, and a mismatch is
recorded on its grain (R100, R256), before the records are written and, as the reset clears what stood there, after
it. -/
def State.fault (s : State) (id path : Nat) (f : Fail) : State :=
  let s := f.also.foldl (fun s k => s.raise k.code k.detail k.src id) (s.raise f.code f.detail (f.src.getD path) id)
  let note (c : Ctx) : Ctx :=
    (f.skew.toList ++ f.also).foldl Ctx.noteSkew (c.setPath path { c.path path with fault := f.code })
  ((s.mapCtx id note).beginCtxReset id 2).mapCtx id note

/-! ## Signals (R262, R263, R32) -/

/-- One SIGNAL: the addend is added once; passing 0xFFFF_FFFF faults the context (R32, R262). -/
def State.signal (s : State) (id path idx add : Nat) : State :=
  match s.ctx? id with
  | none => s
  | some c =>
    if 0xFFFFFFFF < c.counter idx + add then s.fault id path (Fail.mk' 0x4002 0)
    else s.mapCtx id fun c => { c with counters := setKey c.counters idx (c.counter idx + add) }

/-- The signals an instruction performs when it completes (R257, R263, R273). -/
def signalsOf (ws : List Nat) : List (Nat × Nat) :=
  let common := if bitOf (wordAt ws 3) 17 then [(bitsOf (wordAt ws 3) 16 0, bitsOf (wordAt ws 3) 31 18)] else []
  let second := if (wOp ws = 0x10 ∨ wOp ws = 0x11) ∧ bitOf (wordAt ws 7) 17 then [(bitsOf (wordAt ws 7) 16 0, 1)] else []
  let syn (i : Nat) := if wOp ws = 0x51 ∧ bitOf (wordAt ws i) 17 then [(bitsOf (wordAt ws i) 16 0, wordAt ws (i + 1))] else []
  common ++ second ++ syn 4 ++ syn 6

/-- Performs signals in order. -/
def State.signalAll (s : State) (id path : Nat) (l : List (Nat × Nat)) : State :=
  l.foldl (fun s p => s.signal id path p.1 p.2) s

/-- An instruction retires: the wait it showed is kept for the power prediction of R463, for up to 4,096
instructions. -/
def State.retire (s : State) (r : InstrRef) : State :=
  (s.mapCtx r.ctx fun c =>
    let since := ((c.steps.find? fun run => run.step == r.step).bind fun run =>
      (run.placed.find? fun p => p.stream == r.stream && p.index == r.index).bind Placed.since).getD s.now
    let rest := c.waits.filter fun w => !(w.1 == r.stream && w.2.1 == r.index)
    { c with waits := (rest ++ [(r.stream, r.index, s.now - since)]).drop (rest.length + 1 - 4096) }).setPhase r .retired

/-- What a completing OPTIMISE reports: PED_UPD_CONTRIB, NO_CONTRIBUTOR and GRAD_NONFINITE (R189, R192, R195). -/
def State.reportUpdate (s : State) (id path : Nat) (u : Nat × Nat) : State :=
  let s := s.mapCtx id fun c => { c with upd := { c.upd with
    contrib := u.1
    noContrib := c.upd.noContrib || bitOf u.2 0
    gradNonfinite := c.upd.gradNonfinite || bitOf u.2 1 || bitOf u.2 2 } }
  let s := if bitOf u.2 0 then s.raise 0x4103 0 path id else s
  let s := if bitOf u.2 1 then s.raise 0x1401 1 path id else s
  if bitOf u.2 2 then s.raise 0x1401 2 path id else s

/-- Raises IEEE flags on a grain: they stay set until W1C clears them (R64, R65). -/
def State.raiseFlags (s : State) (id g : Nat) (fl : Nat) : State :=
  if fl = 0 then s else s.mapCtx id fun c => c.setGrain g { c.grain g with flags := (c.grain g).flags ||| fl }

/-- Raises the flags of several elements on their grains. -/
def State.raiseAll (s : State) (id : Nat) (l : List (Nat × Nat)) : State :=
  l.foldl (fun s p => s.raiseFlags id p.1 p.2) s

/-- An instruction completes: it retires, its flags are set (R66) and its signals performed (R259); in a context reset it
ends without them (R377). -/
def State.completeInstr (s : State) (r : InstrRef) (f : Found) : State :=
  let s := match f.p.upd with
    | some u => s.reportUpdate r.ctx f.path u
    | none => s
  if f.ctx.phase = .resetting then s.retire r
  else ((s.retire r).raiseAll r.ctx f.p.flags).signalAll r.ctx f.path (signalsOf f.words)

end Sys2Proof.Machine
end

