-- ==== Sys2Proof/Machine/Operands.lean ====
section
/-! DEFINITION. Operand forms: tensors in storage order (R149, R150), generation views (R271), image buffers (R177),
scale lines and their checks (R93 to R97), Sieve records (R124 to R127), random words (R198 to R207), and the one way
a conversion unit writes a tensor (R50, R57 to R62, R102 to R107, R121 to R123, R150). -/

namespace Sys2Proof.Machine

/-! ## Scale lines read (R93 to R97) -/

/-- The mismatch of a scale line's header against the one expected (R97): the kind is compared first, then the tag.
`reader` is the code of CVU_SKEW_SRC and `src` the grain or ped that reads. -/
def headerCheck (want found reader src : Nat) : Option Mismatch :=
  if found % 256 ≠ want % 256 then
    some { code := 0x1103, detail := placed (want % 256) 8 + found % 256, src, expect := want, found, reader }
  else if found / 256 ≠ want / 256 then
    some { code := 0x1101, detail := (found / 256 + 2 ^ 24 - want / 256) % 2 ^ 16, src, expect := want, found, reader }
  else none

/-- The scale of an element's block, its line checked as R97 lays down. -/
def State.readScale (s : State) (c : Ctx) (t : Tensor) (k : Coord) (reader src : Nat) : Except Fail Scale :=
  if t.elem.isWide then .ok .unit
  else do
    let found ← s.rdNat c (lineOffset t k) 4
    if let some m := headerCheck (lineHeader t k) found reader src then .error m.fail
    else if t.elem.isInt then
      let at_ := lineOffset t k + 4 + 3 * entryIndex t k
      return .asym (← s.rdNat c at_ 2) (← s.rdNat c (at_ + 2) 1)
    else return .e8m0 (← s.rdNat c (lineOffset t k + 4 + entryIndex t k) 1)

/-- The code of an element (R41). -/
def State.readCode (s : State) (c : Ctx) (t : Tensor) (k : Coord) : Except Fail Nat := do
  let w := t.elem.width
  let bit := storageIndex t k * w
  let n := (bit % 8 + w + 7) / 8
  let raw ← s.rdNat c (t.base + bit / 8) n
  return raw / 2 ^ (bit % 8) % 2 ^ w

/-- The value of an element (R42). -/
def State.readNum (s : State) (c : Ctx) (t : Tensor) (k : Coord) (reader src : Nat) : Except Fail Num := do
  let sc ← s.readScale c t k reader src
  return decodeElem t.elem sc (← s.readCode c t k)

/-! ## Image buffers (R176, R177) -/

/-- A tensor with its elements and scale lines moved to buffer `b` of an image set: buffer 1 follows buffer 0 (the
spec names no place for it; log entry 10). -/
def Tensor.buffer (t : Tensor) (b : Nat) : Tensor :=
  { t with base := t.base + b * storageBytes t, scale := { t.scale with base := t.scale.base + b * scaleBytes t } }

/-- The fields of a weight version record (R176) that instructions read. -/
structure WvRec where
  frozen : Bool
  masked : Bool
  opt : Nat
  gate : Nat
  reads : Nat
  nBase : Nat
  tags : List Nat
  valid : List Bool
  stalls : Nat
  reservedOk : Bool
  deriving DecidableEq, Repr

/-- A weight version record from its 64 bytes (R176). -/
def parseWv (b : List Byte) : WvRec :=
  let f := leAt b 0 4
  { frozen := bitOf f 0, masked := bitOf f 1, opt := bitsOf f 3 2, gate := leAt b 4 4 % 2 ^ 17, reads := leAt b 8 4,
    nBase := leAt b 16 6, tags := [leAt b 24 6, leAt b 32 6], valid := [bitOf (leAt b 30 1) 0, bitOf (leAt b 38 1) 0],
    stalls := leAt b 48 4,
    reservedOk := f / 16 == 0 && bitsOf f 3 2 != 3 && leAt b 4 4 / 2 ^ 17 == 0 && leAt b 12 4 == 0 &&
      leAt b 22 2 == 0 && leAt b 30 2 / 2 == 0 && leAt b 38 2 / 2 == 0 && leAt b 46 2 == 0 && leAt b 52 12 == 0 }

/-- Reads a weight version record. -/
def State.readWv (s : State) (c : Ctx) (off : Nat) : Except Fail WvRec := do return parseWv (← s.rdBytes c off 64)

/-- The tag of a frozen tensor's one image set (R184). -/
def frozenTag : Nat := 0xFFFFFFFFFFFF

/-- The indices of the tensors an OPTIMISE of the plan names as its high half (R277). -/
def Plan.highs (p : Plan) : List Nat :=
  p.streams.flatMap fun st => st.instrs.filterMap fun ws => if wOp ws = 0x32 then some (wLo ws 4) else none

/-- Whether a tensor is an image of a weight: it names a version record and no OPTIMISE names it as its high half
(R175, R176; log entry 11). -/
def Plan.isImage (p : Plan) (i : Nat) : Bool :=
  match p.tensors[i]? with
  | some t => t.wvr && !(p.highs.contains i)
  | none => false

/-- The tensor an instruction of a step reads for an operand index: an image's buffer after the check of R177, any
other tensor where it stands. -/
def State.operand (s : State) (c : Ctx) (p : Plan) (i step iter : Nat) : Except Fail TView :=
  match p.tensors[i]? with
  | none => .error windowViolation
  | some t =>
    if p.isImage i then do
      let w ← s.readWv c t.version
      let b := if w.frozen then 0 else step % 2
      let want := if w.frozen then frozenTag else step
      if !(w.valid.getD b false) then .error (Fail.mk' 0x4102 0xFFFF)
      else if w.tags.getD b 0 ≠ want then .error (Fail.mk' 0x4102 (w.tags.getD b 0 % 65536))
      else .ok ((t.buffer b).view iter)
    else .ok (t.view iter)

/-! ## Random words (R198 to R209) -/

/-- The purpose key (R200). -/
def purposeKey (seed : List Byte) (p : Nat) : List Byte := (sha384 (seed ++ [BitVec.ofNat 8 p])).take 32

/-- The 128-bit counter (R203). -/
def drawCounter (step mb streamId block : Nat) : Nat :=
  placed (step % 2 ^ 48) 80 + placed (mb % 2 ^ 16) 64 + placed (streamId % 2 ^ 24) 40 + block % 2 ^ 40

/-- The word of a draw for logical position `e` (R203, R204). -/
def drawWord (key : List Byte) (step mb streamId e : Nat) : Nat :=
  ((chacha8 key (drawCounter step mb streamId (e / 16))).getD (e % 16) 0).toNat

/-- What a draw needs; the operation fails when the key store cannot supply the key (R202). -/
def Ctx.key (c : Ctx) (p : Nat) : Except Fail (List Byte) :=
  if c.spr.keys then .ok (purposeKey c.config.seed p) else .error (Fail.mk' 0x2401 0)

/-- Counts block-function evaluations (R215). -/
def State.drew (s : State) (id n : Nat) : State :=
  s.mapCtx id fun c => { c with spr := { c.spr with blocks := c.spr.blocks + n } }

/-! ## Sieve records (R124 to R127) -/

/-- No Sieve tensor record (R269). -/
def noRecord : Nat := 0xFFFFFFFFFFFF

/-- The fields of a Sieve tensor record (R124). -/
structure SieveRec where
  win : Nat
  hr : Nat
  fmt : Nat
  head : Nat
  commits : Nat
  epoch : Nat
  mark : Bool
  wide : Bool
  hist : Bool
  counts : List Nat
  reservedOk : Bool
  headOk : Bool
  deriving DecidableEq, Repr

/-- A Sieve tensor record from its 64 bytes (R124). -/
def parseSieve (b : List Byte) : SieveRec :=
  let w := leAt b 0 4
  let f := leAt b 14 2
  { win := bitsOf w 31 26 + 1, hr := bitsOf w 25 23, fmt := bitsOf w 22 19, head := bitsOf w 15 8,
    commits := leAt b 4 4, epoch := leAt b 8 6, mark := bitOf f 0, wide := bitOf f 1, hist := bitOf f 2,
    counts := (List.range 12).map fun i => leAt b (16 + 4 * i) 4,
    reservedOk := bitsOf w 18 16 == 0 && bitsOf w 7 0 == 0 && f / 8 == 0
    headOk := decide (bitsOf w 15 8 ≤ bitsOf w 31 26) }

/-- Reads a Sieve tensor record. -/
def State.readSieve (s : State) (c : Ctx) (off : Nat) : Except Fail SieveRec := do
  return parseSieve (← s.rdBytes c off 64)

/-- Whether a descriptor names a Sieve tensor record (R124, R269). -/
def Tensor.hasRecord (t : Tensor) : Bool := t.narrow || t.sieve != noRecord

/-- Length of a block record (R125, R126). -/
def blockRecLen (t : Tensor) (win : Nat) : Nat := if t.elem.isInt then 12 else 4 * ceilDiv (2 + win) 4

/-- The offset of block `b`'s record (R125, R126, R269). -/
def blockRecOff (t : Tensor) (win b : Nat) : Nat := t.sieve + 64 + b * blockRecLen t win

/-- The error exponent t of int_err (R92). -/
def intErr (t : Tensor) : Nat := if t.scale.intErr = 0 then 6 else t.scale.intErr

/-- Adds counts, each stopping at 0xFFFF_FFFF (R124). -/
def addCounts (a b : List Nat) : List Nat :=
  (List.range 12).map fun i => satAdd 0xFFFFFFFF (a.getD i 0) (b.getD i 0)

/-- Credits counts to a tensor's record for a step's epoch (R83, R122). -/
def State.credit (s : State) (id : Nat) (t : Tensor) (step : Nat) (counts : List Nat) : State :=
  if t.hasRecord then
    s.mapCtx id fun c =>
      let old := (c.sieve.counts.find? fun k => k.tensor == t.sieve && k.step == step).map SieveCounts.counts
      let rest := c.sieve.counts.filter fun k => !(k.tensor == t.sieve && k.step == step)
      { c with sieve := { c.sieve with
          counts := rest ++ [{ tensor := t.sieve, step, counts := addCounts (old.getD []) counts }] } }
  else s

/-- The counts of one written block (R61, R107, R108, R122, R124). -/
def BlockReport.vector (r : BlockReport) : List Nat :=
  [r.elems, r.zeros, r.sats, r.nonfin, 1, flag r.leached, 0, 0, 0, flag r.satBlock, flag r.trig, flag r.scaleNan]

/-- A finite value as FP32 for lo and hi, rounded outward and limited to the finite range (R123). -/
def outward (up : Bool) (x : Num) : Nat :=
  match x with
  | .fin neg m e =>
    let r := (fp32.round (if up then .rup else .rdn) neg m e false).1
    if r = 0x7F800000 then 0x7F7FFFFF else if r = 0xFF800000 then 0xFF7FFFFF else r
  | _ => 0

/-- Merges one block's observations into its record's bytes (R121, R123). -/
def mergeBlock (t : Tensor) (rc : SieveRec) (b : List Byte) (r : BlockReport) : List Byte :=
  if t.elem.isInt then
    let fl := placed 1 7 + placed (flag r.obsNonfin) 6 + placed (flag r.satBlock) 5 + placed (flag r.leached) 4 +
      placed (flag r.trig) 3
    let lo := match r.lo with
      | some x => (fp32.minimum (leAt b 4 4) (outward false x)).1
      | none => leAt b 4 4
    let hi := match r.hi with
      | some x => (fp32.maximum (leAt b 8 4) (outward true x)).1
      | none => leAt b 8 4
    b.take 3 ++ leBytes 1 (leAt b 3 1 ||| fl) ++ leBytes 4 lo ++ leBytes 4 hi
  else
    let fl := placed 1 7 + placed (flag r.obsNonfin) 6 + placed (flag r.satBlock) 5 + placed (flag r.leached) 4
    let fit := r.top.map fun m => eFit m.1 m.2 t.elem rc.hr
    let slot := leAt b (2 + rc.head) 1
    let slot' := match fit with
      | some e => if slot = 0xFF then e else max slot e
      | none => slot
    let b1 := b.take 1 ++ leBytes 1 (leAt b 1 1 ||| fl) ++ b.drop 2
    b1.take (2 + rc.head) ++ leBytes 1 slot' ++ b1.drop (3 + rc.head)

/-! ## The conversion unit's write of a tensor -/

/-- The source reader of the conversion unit that takes a unit of an instruction: 6 or 7, by which unit of the grain was
free (R100, R266; log entry 131). -/
def Found.cvReader (f : Found) (u : Nat) : Nat := if Config.conversionUnit f.p.index u then 7 else 6

/-- How a result enters its conversion unit: source format, rounding mode, NaN mode, the step its write is tagged
with (R118), the step that runs it, the draw's micro-batch, and the grain that writes an element. -/
structure WriteSpec where
  src : ElemFmt
  rnd : Rnd
  nanm : Bool
  step : Nat
  run : Nat
  mb : Nat
  grain : Coord → Nat

/-- Packs element codes by width, the first lowest (R41). -/
def packCodes (w : Nat) : List Nat → Nat
  | [] => 0
  | k :: ks => k + 2 ^ w * packCodes w ks

/-- The random word of an element written under stochastic rounding (R54, R206); 0 where none is drawn. The draw slot
of R203 is 0: no field of a CONVERT or an OPTIMISE names one (log entry 134; Example 1 of 08_sprinle.md draws an
OPTIMISE's first moment with slot 0). -/
def srWord (c : Ctx) (t : Tensor) (sp : WriteSpec) (k : Coord) : Except Fail Nat :=
  if sp.rnd = .sr then do
    return drawWord (← c.key 1) sp.step sp.mb (t.stream * 4) (logicalPos t k)
  else .ok 0

/-- The values of a run of 32 positions after rotation (R111, R112), when the descriptor names one: the whole group
of the rotation order is formed from FP32 sources, completed with +0. -/
def rotated (c : Ctx) (t : Tensor) (len : Nat) (val : Nat → Num) (lo n : Nat) : Except Fail (List Num) :=
  if t.scale.rot = 1 ∨ t.scale.rot = 2 then do
    let order := if t.scale.rot = 1 then 32 else 128
    let key ← c.key 5
    let g := lo / order * order
    let idx := (List.range order).map (g + ·)
    let signs := idx.map fun k => decide (2 ^ 31 ≤ drawWord key 0 0 t.scale.rotId k)
    let x := idx.map fun k => if k < len then fp32.ofNum .rne (val k) else 0
    let y := rotGroup order signs x
    return (List.range n).map fun i => fp32.decode (y.getD (lo - g + i) 0)
  else .ok ((List.range n).map fun i => val (lo + i))

/-- The scale handed to the conversion unit for a block: chosen just in time for a streaming block and in a
tensor's first epoch without history (R102, R106, R140), the record's otherwise (R104, R107). -/
def State.blockScale (s : State) (c : Ctx) (t : Tensor) (rc : SieveRec) (k : Coord) (xs : List Num) : Except Fail Scale :=
  if t.scale.track && rc.hist then do
    let off := blockRecOff t rc.win (blockIndex t k)
    if t.elem.isInt then return .asym (← s.rdNat c off 2) (← s.rdNat c (off + 2) 1)
    else return .e8m0 (← s.rdNat c off 1)
  else .ok (streamScale t.elem xs)

/-- The counter blocks evaluated for drawn elements in logical order, each with the grain that draws for it (R210, R215):
a grain evaluates a block once, and two grains that share one evaluate it each. Elements of one block follow one another
within 16 places. -/
def evaluations : List (Nat × Nat) → Nat
  | [] => 0
  | x :: xs => flag (!((xs.take 15).contains x)) + evaluations xs

/-- The evaluations for drawing a word for each of a list of elements in logical order. -/
def drawBlocks (t : Tensor) (grain : Coord → Nat) (l : List Coord) : Nat :=
  evaluations (l.map fun k => (logicalPos t k / 16, grain k))

/-- Writes a block's scale entry and its line's header (R96). -/
def State.writeScale (s : State) (id : Nat) (t : Tensor) (k : Coord) (sc : Scale) : Except Fail State := do
  let s ← s.wrNat id (lineOffset t k) 4 (lineHeader t k)
  match sc with
  | .unit => return s
  | .e8m0 e => s.wrNat id (lineOffset t k + 4 + entryIndex t k) 1 e
  | .asym v z => do
    let s ← s.wrNat id (lineOffset t k + 4 + 3 * entryIndex t k) 2 v
    s.wrNat id (lineOffset t k + 6 + 3 * entryIndex t k) 1 z

/-- Records a block's observations in its Sieve block record (R121 to R123). -/
def State.observe (s : State) (id : Nat) (c : Ctx) (t : Tensor) (rc : SieveRec) (k : Coord) (r : BlockReport) :
    Except Fail State :=
  if t.scale.track then do
    let off := blockRecOff t rc.win (blockIndex t k)
    let old ← s.rdBytes c off (blockRecLen t rc.win)
    s.wrBytes id off (mergeBlock t rc old r)
  else .ok s

/-- Writes one block of a narrow tensor: positions `lo` to `lo + 31` along the scale axis of a row; positions at or
beyond `len` are padding and take zero codes (R150). -/
def State.writeBlockN (s : State) (id : Nat) (t : Tensor) (rc : SieveRec) (sp : WriteSpec) (row : Coord) (len : Nat)
    (val : Coord → Num) (lo : Nat) : Except Fail State :=
  match s.ctx? id with
  | none => .error windowViolation
  | some c => do
    let axis := t.scale.axis
    let n := min 32 (len - lo)
    let k := row.set axis lo
    let xs ← rotated c t len (fun a => val (row.set axis a)) lo n
    let src := if t.scale.rot = 0 then sp.src else .fp32
    let words ← (List.range n).mapM fun i => srWord c t sp (row.set axis (lo + i))
    let sc ← s.blockScale c t rc k xs
    let out := convBlock src t.elem sp.rnd sp.nanm t.scale.track (intErr t) sc xs words
    let padCode := match out.scale with
      | .asym _ z => z
      | _ => 0
    let codes := out.codes ++ List.replicate (32 - n) padCode
    let w := t.elem.width
    let s ← s.wrNat id (t.base + storageIndex t k * w / 8) (4 * w) (packCodes w codes)
    let s ← s.writeScale id t k out.scale
    let s ← s.observe id c t rc k out.report
    let s := if t.scale.track && !rc.hist then
        s.mapCtx id fun c => { c with sieve := { c.sieve with jit := insertNew c.sieve.jit sp.run } } else s
    return s.credit id t sp.step out.report.vector

/-- Writes one run of 32 columns of a wide tensor's row, padding columns as zero codes (R50, R63, R150). -/
def State.writeBlockW (s : State) (id : Nat) (t : Tensor) (sp : WriteSpec) (row : Coord) (len : Nat)
    (val : Coord → Num) (lo : Nat) : Except Fail State :=
  match s.ctx? id with
  | none => .error windowViolation
  | some c => do
    let n := min 32 (len - lo)
    let codes ← (List.range n).mapM fun i => do
      let k := row.set 0 (lo + i)
      return convWide sp.src t.elem sp.rnd (← srWord c t sp k) (val k)
    let bad := (codes.filter fun x => (t.elem.layout.decode x).nonfinite).length
    let w := t.elem.width
    let k := row.set 0 lo
    let s ← s.wrNat id (t.base + storageIndex t k * w / 8) (4 * w) (packCodes w (codes ++ List.replicate (32 - n) 0))
    return s.credit id t sp.step [n, 0, 0, bad, 0, 0, 0, 0, 0, 0, 0, 0]

/-- The padding runs of a view's tiles when its scale axis is d2 or d3 (R150): every run along that axis at a row beyond
R or a column beyond C, up to the next multiple of 32; a row view has one row. -/
def padRunsDeep (v : TView) : List Coord :=
  let t := v.t
  let rows := if t.grow = 2 then [v.row0] else List.range (ceilDiv v.rows 32 * 32)
  let cells := rows.flatMap fun i1 => (List.range (ceilDiv t.d0 32 * 32)).map fun i0 => (i0, i1)
  let pads := cells.filter fun q => !(decide (q.1 < t.d0) && decide (q.2 < v.row0 + v.rows))
  let other := if t.scale.axis = 2 then t.d3 else t.d2
  pads.flatMap fun q => (List.range other).flatMap fun o => (List.range (ceilDiv (t.axisLen t.scale.axis) 32)).map fun j =>
    if t.scale.axis = 2 then { c0 := q.1, c1 := q.2, c2 := 32 * j, c3 := o } else { c0 := q.1, c1 := q.2, c2 := o, c3 := 32 * j }

/-- The padding runs of a tensor's tiles that lie in no real row: rows beyond R, or columns beyond C where the fast
axis is d1, up to the next multiple of 32 (R150). Each is a run of 32 elements named by its first. -/
def padRuns (v : TView) : List Coord :=
  let t := v.t
  if t.narrow && t.scale.axis ≥ 2 then padRunsDeep v
  else if t.grow = 2 then []
  else
    let mats := (List.range t.d3).flatMap fun i3 => (List.range t.d2).map fun i2 => (i2, i3)
    if t.narrow && t.scale.axis == 1 then
      mats.flatMap fun q => ((List.range (ceilDiv t.d0 32 * 32 - t.d0)).flatMap fun i =>
        (List.range (ceilDiv v.rows 32)).map fun j => { c0 := t.d0 + i, c1 := 32 * j, c2 := q.1, c3 := q.2 })
    else
      mats.flatMap fun q => ((List.range (ceilDiv v.rows 32 * 32 - v.rows)).flatMap fun i =>
        (List.range (ceilDiv t.d0 32)).map fun j => { c0 := 32 * j, c1 := v.rows + i, c2 := q.1, c3 := q.2 })

/-- The axis along which a view is written in blocks, and its first position there. -/
def TView.writeAxis (v : TView) : Nat := if v.t.narrow then v.t.scale.axis else 0

/-- The first position of a view along its write axis. -/
def TView.writeBase (v : TView) : Nat := if v.writeAxis = 1 then v.row0 else 0

/-- The first element of the written block that holds an element. -/
def TView.blockFirst (v : TView) (k : Coord) : Coord :=
  k.set v.writeAxis (v.writeBase + (k.along v.writeAxis - v.writeBase) / 32 * 32)

/-- Block-function evaluations for the signs of a rotated write (R111, R112, R215): each group of each row is rotated
once and takes a word for each of its positions (log entry 135). -/
def TView.rotBlocks (v : TView) : Nat :=
  let order := if v.t.scale.rot = 1 then 32 else 128
  if v.t.narrow && (v.t.scale.rot == 1 || v.t.scale.rot == 2) then
    (v.rowsAlong v.writeAxis).length * (ceilDiv (v.length v.writeAxis) order * (order / 16))
  else 0

/-- Writes every kept block of a view through a conversion unit. `keep` tells which blocks are written, by their
first element: those of tiles a write mask discards are not (R168). A conversion that R56 marks X ignores rnd. -/
def State.writeTensor (s : State) (id : Nat) (v : TView) (sp : WriteSpec) (keep : Coord → Bool) (val : Coord → Num) :
    Except Fail State :=
  match s.ctx? id with
  | none => .error windowViolation
  | some c => do
    let t := v.t
    let sp := if convExact sp.src t.elem then { sp with rnd := .rne } else sp
    let axis := v.writeAxis
    let base := v.writeBase
    let len := base + v.length axis
    let rc ← if t.narrow then s.readSieve c t.sieve else .ok (parseSieve [])
    let blocks := (v.rowsAlong axis).flatMap fun row =>
      (List.range (ceilDiv (v.length axis) 32)).map fun j => (row, base + 32 * j)
    let s ← (blocks.filter fun b => keep (b.1.set axis b.2)).foldlM (fun s b =>
      if t.narrow then s.writeBlockN id t rc sp b.1 len val b.2 else s.writeBlockW id t sp b.1 len val b.2) s
    let s := s.drew id (v.rotBlocks +
      if sp.rnd = .sr then drawBlocks t sp.grain (v.coords.filter fun k => keep (v.blockFirst k)) else 0)
    let w := t.elem.width
    ((padRuns v).filter keep).foldlM (fun s k =>
      s.wrBytes id (t.base + storageIndex t k * w / 8) (List.replicate (4 * w) 0)) s

/-- Keeps every block. -/
def keepAll : Coord → Bool := fun _ => true

/-- The bytes of the storage a view covers, made undefined after a failed operation (R98): the whole tensor, or of a row
or extent view the runs and scale lines of its own rows only. -/
def State.undefView (s : State) (id : Nat) (v : TView) : State :=
  let t := v.t
  if t.grow = 0 then (s.undefRange id t.base (storageBytes t)).undefRange id t.scale.base (scaleBytes t)
  else
    let blocks := (v.rowsAlong v.writeAxis).flatMap fun row =>
      (List.range (ceilDiv (v.length v.writeAxis) 32)).map fun j => row.set v.writeAxis (v.writeBase + 32 * j)
    let s := (blocks ++ padRuns v).foldl (fun s k =>
      s.undefRange id (t.base + storageIndex t k * t.elem.width / 8) (4 * t.elem.width)) s
    if t.narrow then (blocks.map (lineOffset t)).eraseDups.foldl (fun s o => s.undefRange id o 64) s else s

end Sys2Proof.Machine
end

