-- ==== Sys2Proof/Machine/Flags.lean ====
section
/-! DEFINITION. The vector unit's exception flags in GRN_FPCSR (R64 to R66) and the rounding direction it samples. -/

namespace Sys2Proof.Machine

/-- The rounding direction of a GRN_FPCSR.rdir value (R65). -/
def rdirMode (v : Nat) : Rm :=
  match v with
  | 1 => .rna
  | 2 => .rup
  | 3 => .rdn
  | 4 => .rtz
  | _ => .rne

/-- The rdir a grain sampled when the instruction issued (R66). -/
def Placed.rdirOf (p : Placed) (g : Nat) : Rm := rdirMode (getKey 0 p.rdir g)

/-- The rdir of every grain that shares a ped, as an issuing vector instruction samples it (R66); grains at 0b000
are left out. -/
def State.sampleRdir (s : State) (c : Ctx) (path : Nat) : List (Nat × Nat) :=
  ((pathGrains path).filter s.grainOk).filterMap fun g =>
    if (c.grain g).rdir = 0 then none else some (g, (c.grain g).rdir)

/-- Keeps the flags an instruction's elements raise until it retires (R66). -/
def State.holdFlags (s : State) (r : InstrRef) (l : List (Nat × Flags)) : State :=
  s.mapPlaced r fun p => { p with flags := p.flags ++ l }

/-! ## Arithmetic that gathers flags (R64)

A value with the flags of every operation that led to it. -/

/-- A code with flags. -/
abbrev FV := Nat × Flags

/-- A value as it is read. -/
def FV.of (x : Nat) : FV := (x, 0)

/-- An operation's result with its operands' flags. -/
def FV.join (r : Nat × Flags) (fl : Flags) : FV := (r.1, r.2 ||| fl)

/-- Addition. -/
def FloatFmt.addF (f : FloatFmt) (rm : Rm) (a b : FV) : FV := FV.join (f.add rm a.1 b.1) (a.2 ||| b.2)

/-- Subtraction. -/
def FloatFmt.subF (f : FloatFmt) (rm : Rm) (a b : FV) : FV := FV.join (f.sub rm a.1 b.1) (a.2 ||| b.2)

/-- Multiplication. -/
def FloatFmt.mulF (f : FloatFmt) (rm : Rm) (a b : FV) : FV := FV.join (f.mul rm a.1 b.1) (a.2 ||| b.2)

/-- Division. -/
def FloatFmt.divF (f : FloatFmt) (rm : Rm) (a b : FV) : FV := FV.join (f.div rm a.1 b.1) (a.2 ||| b.2)

/-- Square root. -/
def FloatFmt.sqrtF (f : FloatFmt) (rm : Rm) (a : FV) : FV := FV.join (f.sqrt rm a.1) a.2

/-- Fused multiply-add. -/
def FloatFmt.fmaF (f : FloatFmt) (rm : Rm) (a b c : FV) : FV := FV.join (f.fma rm a.1 b.1 c.1) (a.2 ||| b.2 ||| c.2)

/-- Maximum. -/
def FloatFmt.maxF (f : FloatFmt) (a b : FV) : FV := FV.join (f.maximum a.1 b.1) (a.2 ||| b.2)

/-- Minimum. -/
def FloatFmt.minF (f : FloatFmt) (a b : FV) : FV := FV.join (f.minimum a.1 b.1) (a.2 ||| b.2)

/-- An elementary function of R163: it raises no flag (log entry 4). -/
def FV.elem (g : Nat → Nat) (a : FV) : FV := (g a.1, a.2)

/-- The IEEE conversion of an FP64 value to FP32 (R64). -/
def FV.toFp32 (rm : Rm) (a : FV) : FV := FV.join (fp32.finish rm (fp64.isSnan a.1) (fp64.decode a.1)) a.2

/-- The flag of the exact IEEE conversion of an FP32 value to FP64 (R64): a signalling NaN raises invalid. -/
def FV.toFp64 (a : FV) : FV := (a.1, a.2 ||| flag (fp64.isSnan a.1) * flInvalid)

/-- A code of one format widened exactly, a signalling NaN kept signalling (R48, R64). -/
def widen (src dst : FloatFmt) (x : Nat) : Nat :=
  if src.isSnan x then dst.infCode false + 1 else dst.ofNum .rne (src.decode x)

end Sys2Proof.Machine
end

