-- ==== Sys2Proof/Machine/Arbiter.lean ====
section
/-! DEFINITION. The commons arbiter (R229 to R234): residency, fills and drains, with PROMOTE, EVICT, SEAL,
and COMMONS_FILL_DONE. -/

namespace Sys2Proof.Machine

/-- The commons object with an id. -/
def State.object? (s : State) (id : Nat) : Option CommonsObj := s.arbiter.objects.find? fun o => o.entry.id == id

/-- Replaces a commons object's record. -/
def State.mapObject (s : State) (id : Nat) (f : CommonsObj → CommonsObj) : State :=
  { s with arbiter := { s.arbiter with objects := s.arbiter.objects.map fun o => if o.entry.id = id then f o else o } }

/-- The topsoil pages of an owner's commons pool that hold no resident image (R229), zeroed before they are granted
(R239). -/
def State.poolFree (s : State) (owner : Nat) : List Nat :=
  match s.ctx? owner with
  | none => []
  | some c =>
    let used := (s.arbiter.objects.filter fun o => o.owner == owner).flatMap CommonsObj.resident
    c.pages.poolTop.filter fun p => !(used.contains p) && !(s.bg.zeroing.contains p)

/-- Picks a page of the placed grain for every resident page of an object, in order; answers the pages and how many
are missing. -/
def placePages : List Nat → List Nat → List Nat × Nat
  | [], _ => ([], 0)
  | g :: gs, free =>
    match free.find? (fun p => pageGrain p == g) with
    | some p =>
      let r := placePages gs (free.erase p)
      (p :: r.1, r.2)
    | none =>
      let r := placePages gs free
      (r.1, r.2 + 1)

/-- Adds or removes a context's residency, which maps the resident view (R232). -/
def State.setResidency (s : State) (ctx obj : Nat) (held : Bool) : State :=
  s.mapCtx ctx fun c =>
    { c with residency := if held then insertNew c.residency obj else c.residency.filter (· != obj) }

/-- The promote of a placed instruction completes: its view is mapped just before its SIGNAL (R232). -/
def State.promoteDone (s : State) (r : InstrRef) (obj : Nat) : State :=
  match s.found? r with
  | none => s
  | some f =>
    let held := (s.object? obj).any fun o => o.holders.contains r.ctx
    (if held then s.setResidency r.ctx obj true else s).completeInstr r f

/-- A promote request reaches the arbiter (R231, R232). `first` tells a request that arrives, as against one served
again from the queue: one from HOME needs pages, and waits behind those that wait already, of whatever pool (log entry
154). -/
def State.promote (s : State) (r : InstrRef) (obj engine : Nat) (first : Bool) : State :=
  match s.object? obj with
  | none => s
  | some o =>
    if o.holders.contains r.ctx then s.promoteDone r obj
    else match o.phase with
    | .home =>
      let got := placePages o.entry.places (s.poolFree o.owner)
      if got.2 = 0 && !(first && !s.arbiter.queue.isEmpty) then
        s.mapObject obj fun o => { o with phase := .filling, holders := [r.ctx], waiters := [r], engine,
                                          resident := got.1 }
      else
        let s := if first && got.2 != 0 then s.raise 0x2303 got.2 pkgPath r.ctx else s
        { s with arbiter := { s.arbiter with queue := insertNew s.arbiter.queue r } }
    | .filling => s.mapObject obj fun o => { o with holders := o.holders ++ [r.ctx], waiters := o.waiters ++ [r] }
    | .resident => (s.mapObject obj fun o => { o with holders := o.holders ++ [r.ctx] }).promoteDone r obj
    | .draining => (s.mapObject obj fun o => { o with phase := .resident, holders := [r.ctx] }).promoteDone r obj

/-- A context gives up residency on an object: at count 0 a resident object starts to drain (R231, R234). -/
def State.dropResidency (s : State) (ctx obj : Nat) : State :=
  (s.mapObject obj fun o =>
    let holders := o.holders.filter (· != ctx)
    { o with holders, phase := if holders.isEmpty && o.phase == .resident then .draining else o.phase }).setResidency
      ctx obj false

/-- Whether an object can be promoted without pages: it is not in HOME (R231, R232). -/
def State.needsNoPages (s : State) (obj : Nat) : Bool := (s.object? obj).any fun o => o.phase != .home

/-- Whether the pool of an object's owner holds the pages that its fill takes. -/
def State.hasPages (s : State) (obj : Nat) : Bool :=
  (s.object? obj).any fun o => (placePages o.entry.places (s.poolFree o.owner)).2 == 0

/-- The fill of an object moves its home to its resident pages; the failure when a home word is uncorrectable
(R231, R232, R237). -/
def State.fill (s : State) (o : CommonsObj) : Except Fail State :=
  match o.home.findSome? fun p => s.ueIn (pageAddr p) pageSize with
  | some f => .error f
  | none => .ok ((o.home.zip o.resident).foldl (fun s p => s.copyPage p.1 p.2) s)

/-- Residency that a recorded set has and the context lacks is still to come (R234). -/
def State.owe (s : State) (ctx obj : Nat) : State := s.mapCtx ctx fun c => { c with owed := insertNew c.owed obj }

/-- A context of a recorded set holds residency on an object again. -/
def State.settle (s : State) (ctx obj : Nat) : State :=
  (s.setResidency ctx obj true).mapCtx ctx fun c => { c with owed := c.owed.filter (· != obj) }

/-- Takes residency for a restored context without an instruction (R234): a fill that pages allow and nobody waits before
runs at once; the view is mapped when the fill has ended. A context that still lacks an object of its set does not run
(log entry 16). A fill that fails is logged, and tried again when pages return or a RESUME comes. -/
def State.takeResidency (s : State) (ctx obj : Nat) : State :=
  match s.object? obj with
  | none => s.mapCtx ctx fun c => { c with owed := c.owed.filter (· != obj) }
  | some o =>
    if o.holders.contains ctx then if o.phase = .filling then s.owe ctx obj else s.settle ctx obj
    else match o.phase with
    | .home =>
      let got := placePages o.entry.places (s.poolFree o.owner)
      if got.2 = 0 && s.arbiter.queue.isEmpty then
        match s.fill { o with resident := got.1 } with
        | .ok s => (s.mapObject obj fun o => { o with phase := .resident, holders := [ctx], resident := got.1 }).settle ctx obj
        | .error e => (s.raise e.code e.detail pkgPath ctx).owe ctx obj
      else s.owe ctx obj
    | .filling => (s.mapObject obj fun o => { o with holders := o.holders ++ [ctx] }).owe ctx obj
    | .resident => (s.mapObject obj fun o => { o with holders := o.holders ++ [ctx] }).settle ctx obj
    | .draining => (s.mapObject obj fun o => { o with phase := .resident, holders := [ctx] }).settle ctx obj

/-- Takes for every restored context what its recorded set still lacks (R234). -/
def State.payOwed (s : State) : State :=
  s.ctxs.foldl (fun s c => c.owed.foldl (fun s o => s.takeResidency c.id o) s) s

/-- Serves the queued promotes after pages have returned (R232): those that need no pages, and the others in arrival order
until one still lacks pages; then the restored contexts that lack residency. -/
def State.serveQueue (s : State) : State :=
  let serve (acc : State × Bool) (r : InstrRef) : State × Bool :=
    let s := acc.1
    let left : State := { s with arbiter := { s.arbiter with queue := s.arbiter.queue.erase r } }
    match s.found? r with
    | none => (left, acc.2)
    | some f =>
      let obj := wLo f.words 4 % 4096
      if s.needsNoPages obj || (!acc.2 && s.hasPages obj) then (left.promote r obj (wCf f.words % 64) false, acc.2)
      else (s, true)
  (s.arbiter.queue.foldl serve (s, false)).1.payOwed

/-- A failed fill: the pages return to the pool, the object enters HOME with count 0, and every context whose
promote waited faults with the same code (R232). -/
def State.fillFailed (s : State) (obj : Nat) (e : Fail) : State :=
  match s.object? obj with
  | none => s
  | some o =>
    let s := s.mapObject obj fun o => { o with phase := .home, holders := [], waiters := [], resident := [] }
    let s := o.holders.foldl (fun s c => s.setResidency c obj false) s
    (o.waiters.foldl (fun s r => s.fault r.ctx (((s.ctx? r.ctx).map fun c => c.streamPath r.stream).getD pkgPath) e)
      s).serveQueue

/-- The fill of an object ends (R231). -/
def State.fillDone (s : State) (obj : Nat) : State :=
  match s.object? obj with
  | none => s
  | some o =>
    if o.phase ≠ .filling then s
    else match s.fill o with
    | .error e => s.fillFailed obj e
    | .ok s =>
      let s := (s.engineMoved o.engine (o.entry.size * pageSize)).engineRetires (.copy o.engine)
      let s := s.mapObject obj fun o =>
        { o with phase := if o.holders.isEmpty then .draining else .resident, waiters := [] }
      (o.waiters.foldl (fun s r => s.promoteDone r obj) s).payOwed

/-! ## Meanings -/

/-- PROMOTE (R231, R232): the request reaches the arbiter from its copy lane. -/
def execPromote (r : InstrRef) (s : State) : Out :=
  match s.found? r with
  | some f =>
    if f.p.phase = .issued ∧ wOp f.words = 0x41 ∧ !(s.engineStopped f) then
      .next ((s.setPhase r .executed).promote r (wLo f.words 4 % 4096) (wCf f.words % 64) true)
    else .next s
  | none => .next s

/-- EVICT (R231, R232). -/
def execEvict (r : InstrRef) (s : State) : Out :=
  match s.found? r with
  | some f =>
    if f.p.phase = .issued ∧ wOp f.words = 0x42 ∧ !(s.engineStopped f) then
      let obj := wLo f.words 4 % 4096
      if (s.object? obj).any fun o => o.holders.contains r.ctx then
        .next ((s.dropResidency r.ctx obj).completeInstr r f)
      else .next (s.fault r.ctx f.path (Fail.mk' 0x2302 0))
    else .next s
  | none => .next s

/-- SEAL (R229): the object's home becomes read-only and the object can be attached. -/
def execSealObject (r : InstrRef) (s : State) : Out :=
  match s.found? r with
  | some f =>
    if f.p.phase = .issued ∧ wOp f.words = 0x43 ∧ !(s.engineStopped f) then
      let obj := wLo f.words 4 % 4096
      match f.ctx.plan.bind fun p => p.commons.find? fun e => e.id == obj with
      | none => .next (s.fault r.ctx f.path windowViolation)
      | some e =>
        let home := (List.range e.size).filterMap fun j =>
          (f.ctx.pages.window.find? fun m => m.win == 16384 + e.home + j).map PageMap.dev
        if home.length ≠ e.size then .next (s.fault r.ctx f.path windowViolation)
        else if (s.object? obj).isSome then .next (s.completeInstr r f)
        else
          let o : CommonsObj := { entry := e, owner := r.ctx, home, resident := [], phase := .home, holders := [],
                                  waiters := [], grants := [], engine := 0 }
          .next (({ s with arbiter := { s.arbiter with objects := s.arbiter.objects ++ [o] } }).completeInstr r f)
    else .next s
  | none => .next s

/-- COMMONS_FILL_DONE (R231, R232). -/
def execCommonsFillDone (obj : Nat) (s : State) : Out := .next (s.fillDone obj)

end Sys2Proof.Machine
end

