-- ==== Sys2Proof/Machine/Sieve.lean ====
section
/-! DEFINITION. The Sieve between instructions: block decisions and commits (R118 to R130), marks (R131), wide
fall-back and its grant (R133 to R136). -/

namespace Sys2Proof.Machine

/-! ## Array products as the Sieve sees them (R272, R273) -/

/-- The fields of an array product's words. -/
structure Product where
  forward : Bool
  a : Nat
  b : Nat
  c : Nat
  bias : Nat
  acc : Nat
  mask : Nat
  bsel : Nat
  ta : Bool
  tb : Bool
  tc : Bool
  cont : Bool
  toAcc : Bool
  deriving DecidableEq, Repr

/-- An array product from its words (R272, R273). -/
def productOf (ws : List Nat) : Product :=
  { forward := wOp ws == 0x10, a := wLo ws 4, b := wHi ws 4, c := wLo ws 5, bias := wHi ws 5, acc := wLo ws 6,
    mask := wHi ws 6, bsel := bitsOf (wCf ws) 1 0, ta := bitOf (wCf ws) 2, tb := bitOf (wCf ws) 3,
    tc := bitOf (wCf ws) 4, cont := bitOf (wCf ws) 5, toAcc := bitOf (wCf ws) 6 }

/-- The narrow operands of a product with their descriptors. -/
def Plan.narrowOperands (p : Plan) (ws : List Nat) : List Tensor :=
  ((p.tensors[wLo ws 4]?).toList ++ (p.tensors[wHi ws 4]?).toList).filter Tensor.narrow

/-- The wide source of a tensor, when it names one in BF16 or FP32 (R133). -/
def Plan.wideSource (p : Plan) (t : Tensor) : Option Tensor :=
  match p.tensors[t.wide]? with
  | some w => if w.elem = .bf16 ∨ w.elem = .fp32 then some w else none
  | none => none

/-- Whether a product is fall-back eligible (R133). -/
def Plan.eligible (p : Plan) (ws : List Nat) : Bool :=
  isProduct ws && !(p.narrowOperands ws).isEmpty &&
  (p.narrowOperands ws).all fun t => t.wide != 0xFFFF && (p.wideSource t).isSome

/-- The base of the fall-back window. -/
def fallbackBase : Nat := 0xE000000000

/-- Whether a window offset lies in the fall-back window (R135). -/
def inFallback (off : Nat) : Bool := decide (0xE000000000 ≤ off) && decide (off < 0xFF00000000)

/-- The fall-back window pages a product's wide sources cover: the range it declares (R134, R135; log entry 15). -/
def Plan.workspace (p : Plan) (ws : List Nat) : List Nat :=
  ((p.narrowOperands ws).filterMap p.wideSource).foldl (fun acc w =>
    if inFallback w.base then
      let lo := (w.base - fallbackBase) / pageSize
      let hi := (w.base + storageBytes w - 1 - fallbackBase) / pageSize
      ((List.range (hi + 1 - lo)).map (lo + ·)).foldl insertNew acc
    else acc) []

/-- Every instruction of a plan with its stream and index, in plan order. -/
def Plan.instructions (p : Plan) : List (Nat × Nat × List Nat) :=
  (p.streams.zipIdx).flatMap fun q => (q.1.instrs.zipIdx).map fun w => (q.2, w.2, w.1)

/-- The descriptors of every tensor a step of the plan commits, one for each record. -/
def Plan.committed (p : Plan) : List Tensor :=
  ((p.instructions.flatMap fun i => commitNames i.2.2).filterMap fun i => p.tensors[i]?).foldl
    (fun acc t => if acc.any fun u => u.sieve == t.sieve then acc else acc ++ [t]) []

/-! ## Block decisions at commit (R128, R129) -/

/-- What a commit did to one block record: the new bytes, whether row 4 applied, whether row 3 did because of
leach. -/
structure BlockCommit where
  bytes : List Byte
  saturated : Bool
  leached : Bool

/-- The ring of a floating record. -/
def ringSlots (b : List Byte) (w : Nat) : List Nat := (List.range w).map fun i => leAt b (2 + i) 1

/-- The largest non-empty ring slot (R128). -/
def ringMax (slots : List Nat) : Option Nat :=
  (slots.filter (· != 0xFF)).foldl (fun acc x => some (max (acc.getD 0) x)) none

/-- A floating block record at commit (R128, R129). -/
def commitFloat (win head : Nat) (b : List Byte) : BlockCommit :=
  let e := leAt b 0 1
  let fl := leAt b 1 1
  let slots := ringSlots b win
  let fit := slots.getD head 0xFF
  let row := if !(bitOf fl 7) then 1 else if bitOf fl 6 then 2 else if bitOf fl 4 then 3 else if bitOf fl 5 then 4 else 5
  let e' :=
    if row = 3 then (if fit = 0xFF then e else fit)
    else if row = 4 then min (e + 1) 254
    else if row = 5 then (ringMax slots).getD e
    else e
  let sat := if row = 1 ∨ row = 2 then flag (bitOf fl 0) else flag (row == 4)
  let ring :=
    if row = 3 then (List.range win).map fun i => if i = head then fit else 0xFF
    else if row = 5 then slots
    else slots.set head 0xFF
  let ring := ring.set ((head + 1) % win) 0xFF
  { bytes := leBytes 1 e' ++ leBytes 1 sat ++ ring.flatMap (leBytes 1) ++ b.drop (2 + win),
    saturated := row == 4, leached := row == 3 && bitOf fl 4 }

/-- A BF16 scale doubled; unchanged in the largest finite binade (R128). -/
def doubleScale (s : Nat) : Nat :=
  if 0xFE ≤ s / 128 % 256 then s
  else if s / 128 % 256 = 0 then s / 0x8000 * 0x8000 + s % 128 * 2
  else s + 128

/-- An integer block record at commit (R128, R129). -/
def commitInt (qmax : Nat) (b : List Byte) : BlockCommit :=
  let sc := leAt b 0 2
  let z := leAt b 2 1
  let fl := leAt b 3 1
  let row := if !(bitOf fl 7) then 1 else if bitOf fl 6 then 2 else if bitOf fl 4 || bitOf fl 3 then 3
    else if bitOf fl 5 then 4 else 5
  let new := deriveAsym (fp32.decode (leAt b 4 4)) (fp32.decode (leAt b 8 4)) qmax
  let sc' := if row = 3 then new.1 else if row = 4 then doubleScale sc else sc
  let z' := if row = 3 then new.2 else if row = 4 then (z + 1) / 2 else z
  let sat := if row = 1 ∨ row = 2 then flag (bitOf fl 0) else flag (row == 4)
  { bytes := leBytes 2 sc' ++ leBytes 1 z' ++ leBytes 1 sat ++ leBytes 4 0x7F800000 ++ leBytes 4 0xFF800000,
    saturated := row == 4, leached := row == 3 && bitOf fl 4 }

/-- An event with words for its snapshot area (R130). -/
def State.raiseWords (s : State) (code detail src ctx : Nat) (words : List Nat) : State :=
  { s with sed := { s.sed with bus := s.sed.bus ++ [{ code, detail := min detail 0xFFFF, src, ctx, words }] } }

/-- Commits every block record of a positional tensor; answers how many blocks were raised and how many leached. -/
def State.commitBlocks (s : State) (id : Nat) (t : Tensor) (rc : SieveRec) : Except Fail (State × Nat × Nat) :=
  match s.ctx? id with
  | none => .error windowViolation
  | some c =>
    (List.range (scaleRows t * blocksPerRow t)).foldlM (fun acc b => do
      let off := blockRecOff t rc.win b
      let old ← acc.1.rdBytes c off (blockRecLen t rc.win)
      let r := if t.elem.isInt then commitInt t.elem.qmax old else commitFloat rc.win rc.head old
      let s ← acc.1.wrBytes id off r.bytes
      return (s, acc.2.1 + flag r.saturated, acc.2.2 + flag r.leached)) (s, 0, 0)

/-- The counts accumulated for a record, over every step they were tagged with, and the latest of those steps. -/
def Ctx.accumulated (c : Ctx) (off step : Nat) : List Nat × Nat :=
  let mine := c.sieve.counts.filter fun k => k.tensor == off
  (mine.foldl (fun acc k => addCounts acc k.counts) [], mine.foldl (fun acc k => max acc k.step) step)

/-- A commit of one tensor (R119, R124, R128 to R130). -/
def State.commitTensor (s : State) (id path step : Nat) (t : Tensor) : Except Fail State :=
  match s.ctx? id with
  | none => .error windowViolation
  | some c => do
    let rc ← s.readSieve c t.sieve
    let (counts, epoch) := c.accumulated t.sieve step
    let (s, sat, leach) ← if t.positional then s.commitBlocks id t rc else .ok (s, 0, 0)
    let s ←
      if t.positional then do
        let w ← s.rdNat c t.sieve 4
        let head := (rc.head + 1) % rc.win
        let s ← s.wrNat id t.sieve 4 (w - placed (bitsOf w 15 8) 8 + placed head 8)
        let s ← s.wrNat id (t.sieve + 4) 4 (rc.commits + 1)
        s.wrNat id (t.sieve + 14) 2 (flag rc.mark + placed (flag rc.wide) 1 + 4)
      else .ok s
    let s ← s.wrNat id (t.sieve + 8) 6 epoch
    let s ← s.wrBytes id (t.sieve + 16) ((List.range 12).flatMap fun i => leBytes 4 (counts.getD i 0))
    let s := s.mapCtx id fun c => { c with sieve := { c.sieve with
      counts := c.sieve.counts.filter fun k => k.tensor != t.sieve } }
    let words := [word32 t.sieve 0, word32 t.sieve 1]
    let s := if sat = 0 then s else s.raiseWords 0x1002 sat path id words
    return if leach = 0 then s else s.raiseWords 0x1003 leach path id words

/-- SIEVE_COMMIT (R119, R128, R279): the tensors it names, in order. -/
def State.commitAll (s : State) (id path step : Nat) (p : Plan) (names : List Nat) : Except Fail State :=
  names.foldlM (fun s i =>
    match p.tensors[i]? with
    | some t => s.commitTensor id path step t
    | none => .ok s) s

/-! ## Marks and grants (R131, R133 to R136) -/

/-- Whether a count vector sets its tensor's mark (R131). -/
def marked (counts : List Nat) (satExp leachExp : Nat) : Bool :=
  let a := if satExp = 0 then 10 else satExp
  let l := if leachExp = 0 then 4 else leachExp
  decide (counts.getD 0 0 < (counts.getD 2 0 + counts.getD 3 0) * 2 ^ a) ||
  decide (counts.getD 4 0 < counts.getD 5 0 * 2 ^ l)

/-- Writes the flags word of a record. -/
def State.setRecFlags (s : State) (id off : Nat) (mark wide hist : Bool) : Except Fail State :=
  s.wrNat id (off + 14) 2 (flag mark + placed (flag wide) 1 + placed (flag hist) 2)

/-- Whether a tensor of a plan has its mark set in its record (R141). -/
def State.anyMark (s : State) (c : Ctx) (p : Plan) : Except Fail Bool :=
  (p.tensors.filter Tensor.hasRecord).foldlM (fun acc t => do return acc || (← s.readSieve c t.sieve).mark) false

/-- Sets or clears the mark of every tensor committed in the ending step (R131). -/
def State.setMarks (s : State) (id : Nat) (p : Plan) : Except Fail State := do
  let s ← p.committed.foldlM (fun s t => do
    match s.ctx? id with
    | none => .error windowViolation
    | some c =>
      let rc ← s.readSieve c t.sieve
      s.setRecFlags id t.sieve (marked rc.counts c.sieve.satExp c.sieve.leachExp) rc.wide rc.hist) s
  match s.ctx? id with
  | none => .error windowViolation
  | some c =>
    let any ← s.anyMark c p
    return s.mapCtx id fun c => { c with sieve := { c.sieve with marks := any } }

/-- The products wanted wide, in plan order, by the marks as they stand (R133). -/
def State.wantedWide (s : State) (c : Ctx) (p : Plan) : Except Fail (List (Nat × Nat × List Nat)) :=
  (p.instructions.filter fun i => p.eligible i.2.2).foldlM (fun acc i => do
    let m ← (p.narrowOperands i.2.2).foldlM (fun b t => do return b || (← s.readSieve c t.sieve).mark) false
    return if m then acc ++ [i] else acc) []

/-- The grant over a list of wanted products (R134): those granted, and how many stay narrow. -/
def grantOf (p : Plan) : Nat → List (Nat × Nat × List Nat) → List (Nat × Nat × List Nat) × Nat
  | _, [] => ([], 0)
  | free, i :: rest =>
    let need := (p.workspace i.2.2).length
    if need ≤ free then
      let r := grantOf p (free - need) rest
      (i :: r.1, r.2)
    else ([], 1 + rest.length)

/-- Clears the wide flag of every record the plan names and removes the step's fall-back pages, zeroed (R134,
R135). -/
def State.endGrant (s : State) (id : Nat) (p : Plan) : Except Fail State :=
  match s.ctx? id with
  | none => .error windowViolation
  | some c => do
    let s := { s with
      mem := c.pages.fallback.foldl (fun m (q : PageMap) => memZero m (pageAddr q.dev) pageSize) s.mem
      bg := { s.bg with ueWords := s.bg.ueWords.filter fun w => !(c.pages.fallback.any fun (q : PageMap) => decide (pageAddr q.dev ≤ w) && decide (w < pageAddr q.dev + pageSize)) } }
    let s := s.mapCtx id fun c => { c with pages := { c.pages with fallback := [] } }
    (p.tensors.filter Tensor.hasRecord).foldlM (fun s t => do
      let rc ← s.readSieve c t.sieve
      if rc.wide then s.setRecFlags id t.sieve rc.mark false rc.hist else .ok s) s

/-- The fall-back window of a context taken down, its pages cleared (R135). -/
def State.dropFallback (s : State) (id : Nat) : State :=
  match s.ctx? id with
  | none => s
  | some c =>
    { s with
      mem := c.pages.fallback.foldl (fun m (q : PageMap) => memZero m (pageAddr q.dev) pageSize) s.mem
      bg := { s.bg with ueWords := s.bg.ueWords.filter fun w => !(c.pages.fallback.any fun (q : PageMap) =>
        decide (pageAddr q.dev ≤ w) && decide (w < pageAddr q.dev + pageSize)) } }.mapCtx
      id fun c => { c with pages := { c.pages with fallback := [] } }

/-- A context's grant ends without another (R134, R135): no record's wide flag stays set, and the window is taken down. -/
def State.dropGrant (s : State) (id : Nat) : State :=
  let ended : State := match (s.ctx? id).bind Ctx.plan with
    | none => s.dropFallback id
    | some p => match s.endGrant id p with
      | .ok s' => s'
      | .error _ => s.dropFallback id
  ended.mapCtx id fun c => { c with sieve := { c.sieve with granted := [], denied := 0, grantStep := none, lent := 0 } }

/-- Grants fall-back for a step on the context's headroom pages and `lent` further pages (R134 to R136). -/
def State.grant (s : State) (id step : Nat) (p : Plan) (lent : List Nat) : Except Fail State :=
  match s.ctx? id with
  | none => .error windowViolation
  | some c => do
    let s ← s.endGrant id p
    let want ← s.wantedWide c p
    let pool := c.pages.headroom ++ lent
    let (got, denied) := grantOf p pool.length want
    let pages := (got.flatMap fun i => p.workspace i.2.2).foldl insertNew []
    let maps := (pages.zip pool).map fun q => { win := q.1, dev := q.2 : PageMap }
    let s ← (got.flatMap fun i => p.narrowOperands i.2.2).foldlM (fun s t => do
      let rc ← s.readSieve c t.sieve
      s.setRecFlags id t.sieve rc.mark true rc.hist) s
    let s := s.mapCtx id fun c => { c with
      pages := { c.pages with fallback := maps }
      sieve := { c.sieve with granted := got.map fun i => (i.1, i.2.1), denied, grantStep := some step,
                              lent := lent.length } }
    return if got.isEmpty then s else s.raise 0x1201 got.length pkgPath id

/-- Whether a product runs wide in a step (R133, R134). -/
def Ctx.runsWide (c : Ctx) (step stream index : Nat) : Bool :=
  c.sieve.grantStep == some step && c.sieve.granted.contains (stream, index)

end Sys2Proof.Machine
end

