-- ==== Sys2Proof/Machine/Snap.lean ====
section
/-! DEFINITION. Snapshots (R242 to R246), the record page of a context image (R355), the checkpoint cadence (R389,
R390), the restore of a context (R234, R356, R377), and a context's loss (R376). -/

namespace Sys2Proof.Machine

/-! ## The snapshot set (R242) -/

/-- Whether a window page is one of the context's reserved pages, the commons pool left out (R222, R242). -/
def Ctx.reservedPage (c : Ctx) (w : Nat) : Bool :=
  if w < 16384 then decide (w % 64 < c.resv.top.getD (w / 64) 0)
  else decide ((w - 16384) % 24576 < c.resv.sub.getD ((w - 16384) / 24576) 0)

/-- The snapshot set in window order (R242, R252). -/
def Ctx.snapSet (c : Ctx) : List Nat :=
  match c.plan with
  | none => []
  | some p => p.marks.filter fun w => c.reservedPage w && c.pages.window.any fun m => m.win == w

/-! ## The record page (R355) -/

/-- The seed digest of R200: the first 128 bits of SHA-384(seed ‖ 0x00). -/
def seedDigest (seed : List Byte) : List Byte := (sha384 (seed ++ [0])).take 16

/-- The magic number of a context image. -/
def imageMagic : Nat := 0x314D4943

/-- The register state an image holds, in the model's own layout (log entry 17): the RW fields of the ped-4 block,
its W1C bits, and GRN_FPCSR with GRN_SCHED of every grain in service. -/
def State.regState (s : State) (c : Ctx) : List Byte :=
  let sticky := packBits [c.sieve.fbSat, c.upd.gradNonfinite, c.upd.noContrib, c.syn.timedOut, c.syn.collTimedOut,
    c.syn.restarted]
  [placed c.sieve.satExp 16 + placed c.sieve.leachExp 8, c.upd.stallMs, c.syn.waitMs, c.syn.collMs,
   placed (flag c.rst.ckptEnable) 31 + c.rst.mtbfMin, sticky].flatMap (leBytes 4) ++
  s.grains.flatMap fun g =>
    leBytes 4 (placed (flag (c.grain g).preferFwd) 31 + placed (c.grain g).rdir 8 + (c.grain g).flags)

/-- The counter values of a context in die order, each die's led by its number, so that check 5 of R356 can compare
them with a reservation (R355; log entry 17). -/
def Ctx.counterBytes (c : Ctx) : List Byte :=
  (List.range 4).flatMap fun d =>
    let n := c.resv.counters.getD d 0
    leBytes 4 n ++ (List.range n).flatMap fun i => leBytes 4 (c.counter (32768 * d + i))

/-- The residency bitmap of 4,096 bits (R355): residency that is still to come back is of the set (R234). -/
def Ctx.residencyBytes (c : Ctx) : List Byte :=
  (List.range 512).map fun i => BitVec.ofNat 8 (packBits ((List.range 8).map fun b => (c.residency ++ c.owed).contains (8 * i + b)))

/-- The class, policy and owner flags of byte 6 (R355). -/
def CtxConfig.imageFlags (k : CtxConfig) : Nat :=
  placed (flag k.commonsOwner) 3 + placed k.policy.code 1 + flag k.reference

/-- The record page of a snapshot of `slots` (R355). -/
def State.recordPage (s : State) (c : Ctx) (slots : List Nat) : List Byte :=
  let data := [slots.flatMap (leBytes 4), c.counterBytes, c.residencyBytes, s.regState c]
  let offs := data.foldl (fun (acc : List (Nat × Nat) × Nat) d => (acc.1 ++ [(acc.2, d.length)], acc.2 + d.length)) ([], 256)
  let dir := offs.1.flatMap (fun p => leBytes 4 p.1 ++ leBytes 4 p.2) ++ List.replicate 32 0
  let head := leBytes 4 imageMagic ++ leBytes 2 1 ++ leBytes 1 c.config.imageFlags ++ [0] ++ leBytes 6 c.spr.step ++
    leBytes 2 0 ++ leBytes 8 c.spr.tag ++ leBytes 4 c.resv.snapSet ++ leBytes 2 s.grains.length ++ leBytes 2 0 ++
    beBytes 16 unitDigest.toNat ++ leBytes 6 ((c.plan.map Plan.offset).getD 0) ++ leBytes 2 0 ++
    leBytes 4 ((c.plan.map Plan.length).getD 0) ++ leBytes 4 (sumNat c.resv.headroom) ++ dir ++
    leBytes 4 (sumNat c.resv.snap) ++ leBytes 4 0 ++ seedDigest c.config.seed ++ List.replicate 100 0
  head ++ leBytes 4 (crc32c (head ++ data.flatMap id)) ++ data.flatMap id

/-! ## The cadence (R389, R390) -/

/-- The whole part of an FP64 value that is not negative. -/
def floor64 (x : Nat) : Nat :=
  match fp64.decode x with
  | .fin false m e => if 0 ≤ e then m * 2 ^ e.toNat else m / 2 ^ (-e).toNat
  | _ => 0

/-- FP64 division by RNE. -/
def div64 (a b : Nat) : Nat := (fp64.div .rne a b).1

/-- C of R390 in seconds, FP64: the mean of the last 8 snapshots, 30 s until one has completed. -/
def Ctx.ckptCost (c : Ctx) : Nat :=
  if c.rst.costs.isEmpty then nat64 30
  else div64 (nat64 (sumNat c.rst.costs)) (nat64 (1000 * c.rst.costs.length))

/-- Thirty days in ms. -/
def thirtyDaysMs : Nat := 2592000000

/-- M of R390 in seconds, FP64. -/
def State.ckptMtbf (s : State) (c : Ctx) : Nat :=
  let span := min s.opMs thirtyDaysMs
  let fails := ((s.resets.failures ++ c.rst.faultTimes).filter fun t => decide (s.opMs ≤ t + thirtyDaysMs)).length
  let dev := if fails = 0 then div64 (nat64 (max span 86400000)) (nat64 1000)
    else div64 (div64 (nat64 span) (nat64 1000)) (nat64 fails)
  if c.rst.mtbfMin = 0 then dev
  else
    let job := nat64 (60 * c.rst.mtbfMin)
    if cmpNum (fp64.decode job) (fp64.decode dev) = .lt then job else dev

/-- T of R389 in whole seconds. -/
def State.ckptInterval (s : State) (c : Ctx) : Nat :=
  let x := (fp64.sqrt .rne (mul64 (mul64 (nat64 2) c.ckptCost) (s.ckptMtbf c))).1
  min (max (floor64 x) 300) 21600

/-- PED_CKPT_STATUS and PED_CKPT_MTBF brought up to date at a boundary (R389, R391). -/
def State.updateCadence (s : State) (id : Nat) : State :=
  match s.ctx? id with
  | none => s
  | some c => s.mapCtx id fun c' => { c' with rst := { c'.rst with
      intervalS := s.ckptInterval c, costS := min 0xFFFF (floor64 c.ckptCost), mMin := floor64 (s.ckptMtbf c) / 60 } }

/-- Whether the cadence has fallen due by an interval of `t` seconds (R268, R389). -/
def State.cadenceDue (s : State) (c : Ctx) (t : Nat) : Bool :=
  c.rst.ckptEnable && (c.rst.reference.any fun r => decide (r + t * 1000000 ≤ s.now))

/-- The snapshot decision for a boundary (R268), T being `t` seconds: a SNAPSHOT that has arrived, the cadence, or
REPLAY_WIDE. -/
def State.snapDecision (s : State) (c : Ctx) (t : Nat) : SnapMark :=
  if c.snapAsked then .requested
  else if s.cadenceDue c t then .cadence
  else if c.config.policy = .replayWide then .silent
  else .no

/-! ## Taking a snapshot (R242 to R245) -/

/-- The detail SNAPSHOT_DONE will carry (R389). -/
def SnapMark.announce : SnapMark → Option Nat
  | .no => none
  | .silent => none
  | .requested => some 0
  | .cadence => some 1

/-- Takes a snapshot of the context as it stands at a boundary (R244, R245). -/
def State.takeSnapshot (s : State) (id : Nat) (mark : SnapMark) : State :=
  match s.ctx? id with
  | none => s
  | some c =>
    let slots := c.snapSet
    let pending := match c.snap with
      | some old => if !old.complete && old.slots == slots then
          slots.filter fun w => old.pending.contains w || old.dirty.contains w
        else slots
      | none => slots
    let s := match c.pages.area[c.resv.snapSet]? with
      | some p => s.pokes (pageAddr p) (s.recordPage c slots)
      | none => s
    let refOk := c.config.policy ≠ .replayWide ∨ mark = .requested ∨ mark = .cadence
    let s := s.mapCtx id fun c =>
      { c with
        snap := some { slots, area := c.resv.snapSet, pending, dirty := [], step := c.spr.step, at_ := s.now, complete := false,
                       announce := mark.announce, ofPlan := true }
        rst := { c.rst with reference := if refOk then some s.now else c.rst.reference } }
    s.snapComplete id

/-! ## Reading a record page -/

/-- What a record page holds (R355). -/
structure ImageRec where
  valid : Bool
  flags : Nat
  step : Nat
  tag : Nat
  setSize : Nat
  planOff : Nat
  planLen : Nat
  headroom : Nat
  area : Nat
  seed : List Byte
  slots : List Nat
  counters : List Byte
  residency : List Nat
  regs : List Byte

/-- One word of little-endian 32-bit numbers. -/
def wordsOf (b : List Byte) : List Nat := (List.range (b.length / 4)).map fun i => leAt b (4 * i) 4

/-- The numbers of counters and their values, die by die, of the words of an image's counter entry. -/
def dieCounters : Nat → List Nat → List (List Nat)
  | 0, _ => []
  | _, [] => []
  | d + 1, n :: rest => rest.take n :: dieCounters d (rest.drop n)

/-- The counters of an image by index (R355). -/
def imageCounters (b : List Byte) : List (Nat × Nat) :=
  ((dieCounters 4 (wordsOf b)).zipIdx.flatMap fun p => p.1.zipIdx.map fun q => (32768 * p.2 + q.2, q.1)).filter
    fun q => q.2 != 0

/-- The uncorrectable error within a device page, if any. -/
def State.pageUe (s : State) (p : Nat) : Option Fail :=
  (s.bg.ueWords.find? fun w => decide (pageAddr p ≤ w) && decide (w < pageAddr p + pageSize)).bind s.ueAt

/-- A record page from its device page (R355, R356 check 1). -/
def State.readRecord (s : State) (p : Nat) : ImageRec :=
  let at_ (off n : Nat) : List Byte := memBytes s.mem (pageAddr p + off) n
  let h := at_ 0 256
  let entry (i : Nat) : List Byte :=
    let off := leAt h (64 + 8 * i) 4
    let len := leAt h (68 + 8 * i) 4
    if off + len ≤ pageSize then at_ off len else []
  let data := (List.range 4).map entry
  let inPage := (List.range 4).all fun i => decide (leAt h (64 + 8 * i) 4 + leAt h (68 + 8 * i) 4 ≤ pageSize)
  let reserved := leAt h 7 1 == 0 && leAt h 6 1 / 16 == 0 && leAt h 14 2 == 0 && leAt h 30 2 == 0 && leAt h 54 2 == 0 &&
    leAt h 96 32 == 0 && leAt h 132 4 == 0 && leAt h 152 100 == 0
  let crcOk := leAt h 252 4 == crc32c (h.take 252 ++ data.flatMap id)
  { valid := leAt h 0 4 == imageMagic && leAt h 4 2 == 1 && reserved && inPage && crcOk
    flags := leAt h 6 1, step := leAt h 8 6, tag := leAt h 16 8, setSize := leAt h 24 4, planOff := leAt h 48 6,
    planLen := leAt h 56 4, headroom := leAt h 60 4, area := leAt h 128 4, seed := sliceBytes h 136 16,
    slots := wordsOf (data.getD 0 []), counters := data.getD 1 [],
    residency := (List.range 4096).filter fun o => bitOf (leAt (data.getD 2 []) (o / 8) 1) (o % 8),
    regs := data.getD 3 [] }

/-! ## Restoring (R66, R234, R356, R377) -/

/-- The saved grains that a grain in service takes over, of `G` saved and `G'` in service (R66). -/
def carryGrains (saved here j : Nat) : List Nat :=
  let mine := (List.range saved).filter fun i => i * here / saved == j
  if mine.isEmpty then [j * saved / here] else mine

/-- The registers of a restored context (R66, R162, R195, R215, R247, R323, R391, R478). -/
def State.restoreRegs (s : State) (c : Ctx) (regs : List Byte) : Ctx :=
  let w := wordsOf regs
  let g := fun i => w.getD i 0
  let saved := w.drop 6
  let here := s.grains
  let grains := if saved.isEmpty then [] else here.zipIdx.map fun p =>
    let from_ := (carryGrains saved.length here.length p.2).map fun i => saved.getD i 0
    let low := from_.headD 0
    (p.1, { GrainRegs.init with rdir := bitsOf low 10 8, flags := from_.foldl (fun a x => a ||| x % 32) 0,
                                preferFwd := bitOf low 31 })
  { c with
    sieve := { SieveRegs.init with satExp := bitsOf (g 0) 20 16, leachExp := bitsOf (g 0) 12 8, fbSat := bitOf (g 5) 0 }
    upd := { UpdRegs.init with stallMs := g 1, gradNonfinite := bitOf (g 5) 1, noContrib := bitOf (g 5) 2 }
    syn := { SynRegs.init with waitMs := g 2, collMs := g 3, timedOut := bitOf (g 5) 3, collTimedOut := bitOf (g 5) 4,
                               restarted := bitOf (g 5) 5 }
    spr := { c.spr with blocks := 0, posWait := true, keys := true }
    lgl := { c.lgl with topCe := 0, subCe := 0, touches := 0 }
    rst := { c.rst with ckptEnable := bitOf (g 4) 31, mtbfMin := bitsOf (g 4) 19 0 }
    grains, paths := [], waits := [] }

/-- Brings a context's residency set to a recorded one (R234). -/
def State.bringResidency (s : State) (id : Nat) (want : List Nat) : State :=
  match s.ctx? id with
  | none => s
  | some c =>
    let held := (s.arbiter.objects.filter fun o => o.holders.contains id).map fun o => o.entry.id
    let s := s.mapCtx id fun c => { c with owed := [] }
    let s := (held.filter fun o => !(want.contains o)).foldl (fun s o => s.dropResidency id o) s
    let s := s.mapCtx id fun c' => { c' with residency := c.residency.filter want.contains }
    want.foldl (fun s o => s.takeResidency id o) s

/-- The context becomes HELD with a cause (R361). -/
def Ctx.holdWith (c : Ctx) (code detail : Nat) : Ctx :=
  { c with phase := .held, holdAsked := false, lgl := { c.lgl with heldCode := code, heldDetail := detail } }

/-- A context's counters with those of the commons objects it owns kept as they are (R377, R387). -/
def State.keepCommons (s : State) (c : Ctx) (l : List (Nat × Nat)) : List (Nat × Nat) :=
  let kept := (s.arbiter.objects.filter fun o => o.owner == c.id).map fun o => o.entry.counter
  (l.filter fun p => !(kept.contains p.1)) ++ c.counters.filter fun p => kept.contains p.1

/-- Counters, residency, registers and the records of R213 of an image taken over; the next step is the recorded
step plus 1 (R214), and its grant is formed from the marks as they stand (R134, R138). -/
def State.applyRecord (s : State) (id : Nat) (img : ImageRec) : State :=
  match s.ctx? id with
  | none => s
  | some c =>
    let s := s.mapCtx id fun c =>
      let c := s.restoreRegs c img.regs
      { c with
        counters := s.keepCommons c (imageCounters img.counters)
        steps := [], snapAsked := false, heldDegraded := false
        spr := { c.spr with step := img.step, tag := img.tag }
        lgl := { c.lgl with nextStep := img.step + 1 } }
    let s := s.bringResidency id img.residency
    match c.plan with
    | none => s
    | some p =>
      let marks := (s.anyMark c p).toOption.getD false
      let s := s.mapCtx id fun c => { c with sieve := { c.sieve with marks } }
      match s.grant id (img.step + 1) p [] with
      | .ok s => s
      | .error _ => s

/-- Device addresses of a byte range of the snapshot area (R242, R350). -/
def Ctx.areaAddr (c : Ctx) (off : Nat) : Option Nat :=
  (c.pages.area[off / pageSize]?).map fun p => pageAddr p + off % pageSize

/-- The pages of a range of the snapshot area made undefined; `k` bounds the pages, `i` numbers the bytes. -/
def State.undefAreaPages (n : Nat) (c : Ctx) : Nat → State → Nat → Nat → Nat → State
  | 0, s, _, _, _ => s
  | k + 1, s, off, i, len =>
    if len = 0 then s
    else
      let m := pagePart off len
      let bs := (List.range m).map fun j => Config.freeByte n (i + j)
      let s := match c.areaAddr off with
        | some a => s.pokes a bs
        | none => s
      undefAreaPages n c k s (off + m) (i + m) (len - m)

/-- Makes a range of the snapshot area undefined (R350). -/
def State.undefArea (s : State) (c : Ctx) (start len : Nat) : State :=
  let (k, s) := s.draw
  State.undefAreaPages k c (len / pageSize + 2) s start 0 len

/-- A cancelled handle: an in-range is undefined (R350). -/
def State.undefHandle (s : State) (h : Handle) : State :=
  if !h.inward then s
  else if h.area then
    match s.ctx? h.ctx with
    | some c => s.undefArea c h.start h.length
    | none => s
  else s.undefRange h.ctx h.start h.length

/-- Cancels bulk handles and drops the frames sent for them (R350). -/
def State.cancelWhere (s : State) (p : Handle → Bool) : State :=
  let hs := (s.ligil.sessions.flatMap Session.handles).filter p
  let s := hs.foldl (fun s h => s.undefHandle h) s
  let s := hs.foldl (fun s h => if h.exporting then s.mapCtx h.ctx fun c => { c with exporting := false } else s) s
  { s with ligil := { s.ligil with
      sessions := s.ligil.sessions.map fun se => { se with handles := se.handles.filter fun h => !(p h) }
      frames := s.ligil.frames.filter fun f => !(hs.any fun h => h.id == f.handle) } }

/-- Cancels a context's bulk handles (R350). -/
def State.cancelHandles (s : State) (id : Nat) : State := s.cancelWhere fun h => h.ctx == id

/-- A context's work in flight is gone: windows, arrays, arbiter queue, fills it waited on (R160, R377). -/
def State.discardWork (s : State) (id : Nat) : State :=
  let s := s.dropItems id
  { s with
    arbiter := { objects := s.arbiter.objects.map fun o => { o with waiters := o.waiters.filter fun r => r.ctx != id }
                 queue := s.arbiter.queue.filter fun r => r.ctx != id } }

/-- Copies slot `j` of the snapshot area back to its window page (R377). -/
def State.restoreSlot (s : State) (c : Ctx) (j win : Nat) : State :=
  match c.pages.area[j]?, c.pages.window.find? (fun m => m.win == win) with
  | some src, some m => s.copyPage src m.dev
  | _, _ => s

/-- Whether a page lies in a unit in service: its grain's, or its stack's die's (R34, R37). -/
def State.pageServed (s : State) (p : Nat) : Bool := if p < 16384 then s.grainOk (pageGrain p) else s.dieOk (pageDie p)

/-- A reservation without what lies on grains, and on the stacks and counters of dies, that have left service (R37,
R376). -/
def State.servedResv (s : State) (r : Resv) : Resv :=
  let grain (l : List Nat) : List Nat := l.zipIdx.map fun p => if s.grainOk p.2 then p.1 else 0
  let stack (l : List Nat) : List Nat := l.zipIdx.map fun p => if s.dieOk (p.2 / 3) then p.1 else 0
  { r with top := grain r.top, poolTop := grain r.poolTop, sub := stack r.sub, headroom := stack r.headroom,
           snap := stack r.snap, poolSub := stack r.poolSub
           counters := r.counters.zipIdx.map fun p => if s.dieOk p.2 then p.1 else 0 }

/-- A context is lost (R376): RESERVED, its plan discarded, its counters 0 but for those that other contexts see (R387),
attachments and residency given up; bindings and the rest of the reservation kept, except pages on retired grains and on
the stacks of a die without a grain. -/
def State.loseContext (s : State) (id detail : Nat) : State :=
  let s := (s.discardWork id).cancelHandles id
  let s := s.bringResidency id []
  let s := s.notify id 0x5008 detail 0 []
  let s := s.raise 0x5008 detail pkgPath id
  s.mapCtx id fun c =>
    { c with
      phase := .reserved, plan := none, steps := [], counters := s.keepCommons c [], attached := [], residency := []
      snap := none, recCfg := []
      snapAsked := false, holdAsked := false, heldDegraded := false, exporting := false, reset := none
      resv := s.servedResv c.resv
      pages := { window := c.pages.window.filter fun m => s.pageServed m.dev, headroom := c.pages.headroom.filter s.pageServed
                 area := c.pages.area.filter s.pageServed, poolTop := c.pages.poolTop.filter s.pageServed, fallback := [] } }

/-- The restore phase of a context reset (R100, R134, R202, R377): with a valid snapshot the filled slots are copied back
and the recorded state returns; without one the pages stay, every counter is 0 but for those that other contexts see, the grant has ended, a grain's mismatch
record is free for the next mismatch, and the other registers keep their values. The purpose keys are derived again. -/
def State.restoreAfterReset (s : State) (id cause : Nat) : State :=
  match s.ctx? id with
  | none => s
  | some c =>
    match c.snap, c.snap.bind fun q => c.pages.area[q.area]? with
    | some sn, some rec =>
      let filled := sn.slots.zipIdx.filter fun p => !(sn.pending.contains p.1)
      let bad := (s.pageUe rec).isSome || filled.any fun p => (c.pages.area[p.2]?).any fun d => (s.pageUe d).isSome
      if bad then s.loseContext id 2
      else
        let s := filled.foldl (fun s p => s.restoreSlot c p.2 p.1) s
        let s := s.mapCtx id fun c => { c with snap := c.snap.map fun q => { q with dirty := [] } }
        let s := s.applyRecord id (s.readRecord rec)
        s.mapCtx id fun c => (c.holdWith 0x5002 cause)
    | _, _ =>
      let s := (s.bringResidency id []).dropGrant id
      s.mapCtx id fun c =>
        ({ c with counters := s.keepCommons c [], steps := [], snapAsked := false, heldDegraded := false, waits := [],
                  sieve := { c.sieve with jit := [], replay := false }
                  grains := c.grains.map fun (g : Nat × GrainRegs) => (g.1, { g.2 with skewValid := false })
                  spr := { c.spr with step := 0, tag := 0, posWait := true, keys := true },
                  lgl := { c.lgl with nextStep := (c.plan.map Plan.nFirst).getD 0 } }).holdWith 0x5002 cause

end Sys2Proof.Machine
end

