-- ==== Sys2Proof/Machine/Lanes.lean ====
section
/-! DEFINITION. Lanes and their order (R266, R268), the units of division (R281), what an instruction waits on (R264,
R180), the passing of time with its busy, starved and wait timers (R162, R264), and the control-lane instructions. -/

namespace Sys2Proof.Machine

/-- Whether an instruction would reach a grain judged failed, which takes no new one: divided onto it, and so held at its
ped, addressed to it, or a REG_WRITE to every grain of its ped (R34, R278). -/
def State.judgedHold (s : State) (p : Plan) (ws : List Nat) (path iter : Nat) : Bool :=
  !s.resets.judged.isEmpty && match p.unitCount ws iter with
  | some n => (s.divide path n).any fun sh => s.resets.judged.contains sh.1 && decide (sh.2.1 < sh.2.2)
  | none => s.resets.judged.contains path || (wOp ws == 0x71 && bitOf (wCf ws) 0 && (pathGrains path).any s.resets.judged.contains)

/-! ## Steps in flight (R268) -/

/-- Whether the context places instructions into lanes and windows (R337, R352): a HOLD stops it, in a generation run
only at the next iteration boundary (R286). A restored context runs once it holds its recorded residency set (R234). -/
def Ctx.placing (c : Ctx) : Bool :=
  c.phase == .running && (!c.holdAsked || c.plan.any fun p => p.kind == 2) && c.owed.isEmpty

/-- Whether an array product of a later step is held until the boundary because it is fall-back eligible (R268). -/
def Ctx.eligibleHeld (c : Ctx) (run : StepRun) (ws : List Nat) : Bool :=
  (c.steps.head?.any fun first => first.step != run.step) && (c.plan.any fun p => p.eligible ws)

/-- The decision for the boundary of the step in front under overlap (R268), by the T of the last boundary (R389): made
when a first instruction of the step after it would enter a lane, which is when its row first comes (log entry 155). -/
def State.decideEntry (s : State) (r : InstrRef) : State :=
  match s.ctx? r.ctx with
  | none => s
  | some c =>
    match c.steps with
    | first :: next :: _ =>
      if r.step = next.step ∧ r.step ≠ first.step ∧ c.placing ∧ c.plan.any Plan.overlap ∧ first.snapDecided = none ∧
          (s.found? r).any (fun f => f.p.phase == .placed) then
        let mark := s.snapDecision c c.rst.intervalS
        s.mapCtx c.id fun c =>
          { c.mapRun first.step (fun x => { x with snapDecided := some mark }) with
            snapAsked := c.snapAsked && mark != .requested }
      else s
    | _ => s

/-! ## Stream order (R266) -/

/-- Whether every earlier instruction of the stream in the same lane has left the lane, in this step and in earlier
ones. -/
def Ctx.laneHead (c : Ctx) (run : StepRun) (p : Placed) : Bool :=
  let lane := laneOf (c.words p.stream p.index)
  c.steps.all fun r => r.placed.all fun q =>
    !(q.stream == p.stream && q.phase == .placed &&
      (decide (r.step < run.step) || (r.step == run.step && decide (q.index < p.index))) &&
      laneOf (c.words q.stream q.index) == lane)

/-- Whether words are a write to GRN_FPCSR (R66, R278). -/
def isFpcsrWrite (path : Nat) (ws : List Nat) : Bool :=
  wOp ws == 0x71 && wordAt ws 4 % 4096 == 0x040 && (path / 256 == 0 || bitOf (wCf ws) 0)

/-- Whether an earlier write to GRN_FPCSR of the stream is still to retire (R66: it applies to every vector
instruction that follows it). -/
def Ctx.fpcsrBefore (c : Ctx) (run : StepRun) (p : Placed) : Bool :=
  c.steps.any fun r => r.placed.any fun q =>
    q.stream == p.stream && q.phase != .retired && isFpcsrWrite (c.streamPath q.stream) (c.words q.stream q.index) &&
    (decide (r.step < run.step) || (r.step == run.step && decide (q.index < p.index)))

/-- Whether an earlier vector instruction of the stream is still to run (R66: the write applies to none that
precede it). -/
def Ctx.vectorBefore (c : Ctx) (run : StepRun) (p : Placed) : Bool :=
  c.steps.any fun r => r.placed.any fun q =>
    q.stream == p.stream && (q.phase == .placed || q.phase == .issued) &&
    laneOf (c.words q.stream q.index) == some .vector &&
    (decide (r.step < run.step) || (r.step == run.step && decide (q.index < p.index)))

/-- Operations a context holds on a copy engine (R284). -/
def Ctx.copyOps (c : Ctx) (e : Nat) : Nat :=
  (c.allPlaced.filter fun rp => (rp.2.phase == .issued || rp.2.phase == .executed) &&
    laneOf (c.words rp.2.stream rp.2.index) == some (.copy e)).length

/-- Whether a copy engine's limits allow one more operation of the context (R284). -/
def State.copyRoom (s : State) (c : Ctx) (e : Nat) : Bool :=
  decide (c.copyOps e < c.resv.shares.getD e 0) && decide (sumNat (s.ctxs.map fun c => c.copyOps e) < 128)

/-- Whether a placed instruction is the one its lane may issue next. -/
def State.atHead (s : State) (f : Found) : Bool :=
  f.p.phase == .placed && f.ctx.placing && f.ctx.entered f.run && f.ctx.laneHead f.run f.p &&
  !(f.ctx.eligibleHeld f.run f.words) &&
  !(f.ctx.plan.any fun p => s.judgedHold p f.words f.path f.run.iter) &&
  !(s.engineStopped f) &&
  (match laneOf f.words with
   | some .vector => !(f.ctx.fpcsrBefore f.run f.p)
   | some (.copy e) => s.copyRoom f.ctx e
   | _ => !(isFpcsrWrite f.path f.words && f.ctx.vectorBefore f.run f.p))

/-- The engines that a stream-order lane feeds (R266): the units of grains, a copy engine, a die's collective units or a
ped's controller, by numbers that tell the kinds apart. -/
def State.feeds (s : State) (f : Found) : List Nat :=
  match laneOf f.words with
  | some .vector => s.unitGrains f
  | some .conversion => (s.unitGrains f).map (1000 + ·)
  | some (.copy e) => [2000 + e]
  | some .collective => [3000 + f.path]
  | some .control => [8000 + f.path]
  | _ => []

/-- Whether an older lane head of another stream, whose wait holds, feeds the same engine (R266). Age counts from the
RUN_STEP that placed the instruction; a step end, which waits for more than its wait, holds back nobody (log entry 156). -/
def State.olderHead (s : State) (f : Found) : Bool :=
  s.ctxs.any fun c => c.allPlaced.any fun rp =>
    decide (rp.1.at_ < f.run.at_) && rp.2.phase == .placed &&
    (s.found? { ctx := c.id, step := rp.1.step, stream := rp.2.stream, index := rp.2.index }).any fun g =>
      wOp g.words != 0x73 && wOp g.words != 0x74 && s.atHead g && s.waitHolds g && (s.feeds g).any (s.feeds f).contains

/-- Whether a lane issues an instruction now: it is at the head, its waits hold, and its engine has no older one to take. -/
def State.issuable (s : State) (f : Found) : Bool := s.atHead f && s.waitHolds f && !(s.olderHead f)

/-! ## What an instruction waits on -/

/-- The gate of R180: whether an OPTIMISE may write, and how many reads are missing. -/
def State.gateMissing (s : State) (f : Found) : Except Fail Nat :=
  match (f.ctx.plan.bind fun p => p.tensors[wLo f.words 4]?) with
  | none => .error windowViolation
  | some t => do
    let w ← s.readWv f.ctx t.version
    return w.reads * (f.run.step - w.nBase) - f.ctx.counter w.gate

/-- The gate counter of an OPTIMISE. -/
def State.gateRef (s : State) (f : Found) : Nat :=
  match (f.ctx.plan.bind fun p => p.tensors[wLo f.words 4]?) with
  | none => 0
  | some t => match s.readWv f.ctx t.version with
    | .ok w => w.gate
    | .error _ => 0

/-- The array items of an instruction that are in a window, or are passed over because of a mask (R156, R169). -/
def State.itemsWaiting (s : State) (r : InstrRef) (masked : Bool) : Bool :=
  s.scheds.any fun p => (p.2.fwd ++ p.2.bwd).any (fun i => i.ref == r) || (masked && p.2.queue.any fun i => i.ref == r)

/-- The counter reference an instruction waits on while its WAIT_TIMEOUT runs; none when it does not wait (R180,
R232, R264). -/
def State.waitingOn (s : State) (f : Found) (r : InstrRef) : Option Nat :=
  if !f.ctx.placing then none
  else match laneOf f.words with
  | some l =>
    if l.isArray then
      if s.itemsWaiting r (wHi f.words 6 != 0xFFFF) && !(s.waitHolds f) then some (s.waitRef f) else none
    else if s.atHead f && !(s.waitHolds f) then some (s.waitRef f)
    else if wOp f.words = 0x32 ∧ f.p.phase = .issued then
      match s.gateMissing f with
      | .ok 0 => none
      | _ => some (s.gateRef f)
    else if wOp f.words = 0x41 ∧ s.arbiter.queue.contains r then some (wLo f.words 4 % 4096 + 2 ^ 17)
    else none
  | none => none

/-- Whether any item of an instruction is still to enter a window, waits there or runs (R161). -/
def State.itemsLeft (s : State) (r : InstrRef) : Bool :=
  s.scheds.any fun p => (p.2.queue ++ p.2.fwd ++ p.2.bwd ++ p.2.running.map fun x => x.2.1).any fun i => i.ref == r

/-! ## Time -/

/-- The cycles of a die's islands in a number of µs at the cap in force. -/
def State.cyclesIn (s : State) (g us : Nat) : Nat := us * 125 * s.dieCap (g / 64) / 8

/-- Adds cycles to a busy or starved count of a context on a grain. -/
def State.addCycles (s : State) (id g a n : Nat) (starved : Bool) : State :=
  s.mapCtx id fun c =>
    let r := c.grain g
    c.setGrain g (if starved then { r with starve := r.starve.set a (r.starve.getD a 0 + n) }
                  else { r with busy := r.busy.set a (r.busy.getD a 0 + n) })

/-- Whether an item's instruction has all its waits (R157). -/
def State.satisfied (s : State) (i : Item) : Bool :=
  match s.found? i.ref with
  | some f => s.waitHolds f
  | none => false

/-- The items of the window an array serves. -/
def Sched.window (q : Sched) (a : Nat) : List Item := if a = 0 then q.fwd else q.bwd

/-- Busy and starved time over `us` µs on one grain (R162): an array that runs an item starves nobody. -/
def State.accrueGrain (s : State) (g us : Nat) (q : Sched) : State :=
  (List.range 3).foldl (fun s a =>
    let n := s.cyclesIn g us
    let run := (q.running.find? fun r => r.1 == a).map fun r => r.2.1.ref.ctx
    let s := match run with
      | some id => s.addCycles id g a n false
      | none => s
    let ids := ((q.window a).map fun i => i.ref.ctx).foldl insertNew []
    (ids.filter fun id => run.isNone && !((q.window a).any fun i => i.ref.ctx == id && s.satisfied i)).foldl
      (fun s id => s.addCycles id g a n true) s) s

/-- Whether a copy is held in its lane by a full share, so that its WAIT_TIMEOUT does not run (R284). -/
def State.shareHeld (s : State) (c : Ctx) (p : Placed) : Bool :=
  p.phase == .placed && match laneOf (c.words p.stream p.index) with
    | some (.copy e) => !(s.copyRoom c e)
    | _ => false

/-- Starts the wait timer of every instruction that waits and whose timer does not run yet (R264), ahead of `us` µs that
pass; the timer of a copy held by a full share stands still meanwhile (R284). -/
def State.armTimers (s : State) (us : Nat) : State :=
  { s with ctxs := s.ctxs.map fun c =>
      { c with steps := c.steps.map fun run => { run with placed := run.placed.map fun p =>
          let r : InstrRef := { ctx := c.id, step := run.step, stream := p.stream, index := p.index }
          if (s.shareHeld c p) then { p with since := p.since.map (· + us) }
          else if p.since.isSome || p.phase == .retired then p
          else match ((s.found? r).bind fun f => s.waitingOn f r) with
            | some _ => { p with since := some s.now }
            | none => p } } }

/-- Time moves forward to `t`, when it lies ahead. -/
def State.advanceTo (s : State) (t : Nat) : State :=
  if t ≤ s.now then s
  else
    let s' := s.armTimers (t - s.now)
    let s' := s'.scheds.foldl (fun s q => s.accrueGrain q.1 (t - s'.now) q.2) s'
    { s' with now := t }

/-! ## Meanings of the lanes -/

/-- Work of a context reaches the ped at `path` and the peds below it that hold one of `grains`: their hints are cleared
(R463). -/
def Ctx.workArrives (c : Ctx) (path : Nat) (grains : List Nat) : Ctx :=
  { c with paths := c.paths.map fun p =>
      if p.1 = path ∨ (p.1 / 256 < path / 256 ∧ grains.any fun g => (pathGrains p.1).contains g) then
        (p.1, { p.2 with hintValid := false })
      else p }

/-- Whether a tensor is written through a rotator. -/
def Plan.rotates (p : Plan) (i : Nat) : Bool :=
  (p.tensors[i]?).any fun t => t.narrow && (t.scale.rot == 1 || t.scale.rot == 2)

/-- Whether an instruction reads purpose keys (R206): it draws, or writes a rotated tensor. -/
def Plan.drawsKey (p : Plan) (ws : List Nat) : Bool :=
  let elem (i : Nat) : Option ElemFmt := (p.tensors[i]?).map Tensor.elem
  match wOp ws with
  | 0x10 => p.rotates (if bitOf (wCf ws) 6 then wLo ws 6 else wLo ws 5)
  | 0x11 => p.rotates (if bitOf (wCf ws) 6 then wLo ws 6 else wLo ws 5)
  | 0x20 => p.rotates (wHi ws 5)
  | 0x21 => p.rotates (wLo ws 5)
  | 0x22 => p.rotates (wHi ws 5)
  | 0x23 => p.rotates (wHi ws 5)
  | 0x24 => true
  | 0x25 => wCf ws % 4 != 0 || p.rotates (wLo ws 4)
  | 0x26 => leAt (p.arg (wLo ws 5)) 0 4 != 0x7F800000
  | 0x30 => p.rotates (wHi ws 4) || (bitsOf (wCf ws) 1 0 == 2 &&
      !((elem (wLo ws 4)).any fun x => (elem (wHi ws 4)).any fun y => convExact x y))
  | 0x32 => [wHi ws 5, wLo ws 6].any fun i => (p.tensors[i]?).any Tensor.narrow || p.rotates i
  | _ => false

/-- The key stores' state as an instruction that draws meets it: an uncorrectable error may be found there, a free
verdict, and the context's keys are then not in every store until the firmware derives them again (R202, log entry
130). -/
def State.meetKeys (s : State) (id : Nat) (draws : Bool) : State :=
  if draws then
    let (k, s) := s.draw
    s.mapCtx id fun c => { c with spr := { c.spr with keys := c.spr.keys && !(Config.keyStoreUe k) } }
  else s

/-- A lane hands its head to its engine: it meets the key stores, clears the hints on its way, and is issued; vector
instructions sample rdir (R66), and an OPTIMISE begins its gate wait (R180, R181). -/
def State.issue (s : State) (r : InstrRef) (f : Found) (l : Lane) : State :=
  ((s.meetKeys r.ctx (f.ctx.plan.any fun p => p.drawsKey f.words)).mapCtx r.ctx fun c =>
      c.workArrives f.path (s.unitGrains f)).mapPlaced r fun p =>
    { p with phase := .issued, issuedAt := s.now
             rdir := if l = .vector then s.sampleRdir f.ctx f.path else p.rdir
             since := if wOp f.words = 0x32 then none else p.since
             gateDue := if wOp f.words = 0x32 then some (s.now + f.ctx.stallUs) else none }

/-- LANE_ISSUE (R266): a stream-order lane issues its head once its wait holds. The work wakes the units it goes to, and
is issued once they are active (R371, R464). Control instructions are issued by their own rows. -/
def execLaneIssue (r : InstrRef) (s : State) : Out :=
  let s := s.decideEntry r
  match s.found? r with
  | none => .next s
  | some f =>
    match laneOf f.words with
    | none => .next s
    | some l =>
      if !l.isArray && l != .control && s.issuable f then
        let s := s.wake (s.workUnits f)
        if (s.workUnits f).all s.active then .next (s.issue r f l) else .next s
      else .next s

/-- The instruction's engines retire it (R371). -/
def State.unitsRetire (s : State) (f : Found) : State := (s.unitEngines f).foldl (fun s e => s.engineRetires e) s

/-- INSTRUCTION_COMPLETE (R259, R161): every share is complete; the signals are performed and the instruction
retires. Copies, promotes and collectives complete in rows of their own. -/
def execInstructionComplete (r : InstrRef) (s : State) : Out :=
  match s.found? r with
  | none => .next s
  | some f =>
    let left := s.itemsLeft r
    match laneOf f.words with
    | some .forward => if f.p.phase = .executed ∧ !left then .next (s.completeInstr r f) else .next s
    | some .backward => if f.p.phase = .executed ∧ !left then .next (s.completeInstr r f) else .next s
    | some .vector => if f.p.phase = .executed then .next ((s.unitsRetire f).completeInstr r f) else .next s
    | some .conversion => if f.p.phase = .executed then .next ((s.unitsRetire f).completeInstr r f) else .next s
    | _ => .next s

/-- A control-lane instruction runs in its lane, on an active controller, and retires: `act` is its effect. -/
def State.control (s : State) (r : InstrRef) (ok : Found → Bool) (act : Found → State → Except Fail State) : State :=
  let s := s.decideEntry r
  match s.found? r with
  | none => s
  | some f =>
    if ok f && s.issuable f then
      let s := s.wake (s.workUnits f)
      if (s.workUnits f).all s.active then
        match act f s with
        | .ok s' => s'.completeInstr r f
        | .error e => s.fault r.ctx f.path e
      else s
    else s

/-- SYN_WAIT (R263). -/
def execSynWait (r : InstrRef) (s : State) : Out :=
  .next (s.control r (fun f => wOp f.words == 0x50) fun _ s => .ok s)

/-- SYN_SIGNAL (R263): the further signals are among the signals of its completion. -/
def execSynSignal (r : InstrRef) (s : State) : Out :=
  .next (s.control r (fun f => wOp f.words == 0x51) fun _ s => .ok s)

/-- NOP (R272). -/
def execNop (r : InstrRef) (s : State) : Out :=
  .next (s.control r (fun f => wOp f.words == 0x70) fun _ s => .ok s)

/-- Whether words are a REG_WRITE to PWR_HINT (R478). -/
def isHintWrite (ws : List Nat) : Bool := wOp ws == 0x71 && wordAt ws 4 % 4096 == 0x300

/-- The register write of a REG_WRITE instruction (R278). -/
def State.doRegWrite (f : Found) (s : State) : State :=
  s.mapCtx f.ctx.id fun c =>
    s.regWrite c f.path (bitOf (wCf f.words) 0) (wordAt f.words 4 % 4096) (wordAt f.words 5) (wordAt f.words 6)

/-- REG_WRITE (R278) to a register without a row of its own. -/
def execRegWrite (r : InstrRef) (s : State) : Out :=
  .next (s.control r (fun f => wOp f.words == 0x71 && !(isFpcsrWrite f.path f.words) && !(isHintWrite f.words))
    fun f s => .ok (s.doRegWrite f))

/-- GRN_FPCSR_WRITE (R65, R66, R278). -/
def execGrnFpcsrWrite (r : InstrRef) (s : State) : Out :=
  .next (s.control r (fun f => isFpcsrWrite f.path f.words) fun f s => .ok (s.doRegWrite f))

/-- PWR_HINT_WRITE (R278, R478). -/
def execPwrHintWrite (r : InstrRef) (s : State) : Out :=
  .next (s.control r (fun f => isHintWrite f.words) fun f s => .ok (s.doRegWrite f))

/-- SIEVE_COMMIT (R119, R128 to R130, R279). -/
def execSieveCommit (r : InstrRef) (s : State) : Out :=
  .next (s.control r (fun f => wOp f.words == 0x72) fun f s =>
    match f.ctx.plan with
    | some p => s.commitAll r.ctx f.path f.run.step p (commitNames f.words)
    | none => .ok s)

/-! ## Timeouts (R181, R264) -/

/-- What a wait that expires shows: the log, SYN_STATUS, and its timer stopped (R264). -/
def State.waitExpired (s : State) (r : InstrRef) (path ref : Nat) : State :=
  ((s.raise 0x4003 (ref % 65536) path r.ctx).mapCtx r.ctx fun c =>
    { c with syn := { c.syn with timedOut := true, timedOutAt := some s.now, ref } }).mapPlaced r fun p => { p with since := none }

/-- The reference of a wait whose timer expired in the cycle in which another expiry made the context HELD (R264). -/
def State.expiredToo (s : State) (f : Found) (r : InstrRef) : Option Nat :=
  if f.ctx.phase = .held ∧ f.ctx.lgl.heldCode = 0x4003 ∧ f.p.since.isSome ∧ !(s.arbiter.queue.contains r) ∧
      f.p.since.map (· + f.ctx.waitUs) = f.ctx.syn.timedOutAt then
    s.waitingOn { f with ctx := { f.ctx with phase := .running, holdAsked := false } } r
  else none

/-- WAIT_TIMEOUT (R264): the expiry is logged and the context goes HELD, once for the waits that expire in one cycle; a
promote that waits for pool pages fails instead (R232). -/
def execWaitTimeout (r : InstrRef) (s : State) : Out :=
  match s.found? r with
  | none => .next s
  | some f =>
    match s.waitingOn f r with
    | none => match s.expiredToo f r with
      | some ref => .next (s.waitExpired r f.path ref)
      | none => .next s
    | some ref =>
      let s := s.advanceTo (f.p.since.getD s.now + f.ctx.waitUs)
      if s.arbiter.queue.contains r then
        let s := { s with arbiter := { s.arbiter with queue := s.arbiter.queue.erase r } }
        .next (s.fault r.ctx f.path (Fail.mk' 0x4003 (ref % 65536)))
      else
        let s := (s.waitExpired r f.path ref).mapCtx r.ctx fun c => c.holdWith 0x4003 (ref % 65536)
        .next (s.notify r.ctx 0x4003 (ref % 65536) f.run.step [])

/-- UPDATE_STALL (R181, R195): logged and counted once for the gate wait, by the threshold in force when the wait began;
the wait continues. -/
def execUpdateStall (r : InstrRef) (s : State) : Out :=
  match s.found? r with
  | none => .next s
  | some f =>
    match f.p.gateDue, s.gateMissing f with
    | some due, .ok missing =>
      if f.p.phase = .issued ∧ wOp f.words = 0x32 ∧ !f.p.stalled ∧ 0 < missing ∧ f.ctx.placing ∧
          due - f.p.issuedAt < f.ctx.waitUs then
        let s := s.advanceTo due
        let s := s.raise 0x4101 missing f.path r.ctx
        let s := s.mapPlaced r fun p => { p with stalled := true }
        let s := s.mapCtx r.ctx fun c => { c with upd := { c.upd with stalls := satAdd 0xFFFF c.upd.stalls 1 } }
        match (f.ctx.plan.bind fun p => p.tensors[wLo f.words 4]?) with
        | none => .next s
        | some t =>
          match (do
            let w ← s.readWv f.ctx t.version
            s.wrNat r.ctx (t.version + 48) 4 (satAdd 0xFFFFFFFF w.stalls 1) : Except Fail State) with
          | .ok s' => .next s'
          | .error e => .next (s.fault r.ctx f.path e)
      else .next s
    | _, _ => .next s

end Sys2Proof.Machine
end

