-- ==== Sys2Proof/Machine/Boundary.lean ====
section
/-! DEFINITION. Step boundaries (R267, R268): STEP_END and LOOP_END, the actions of a boundary, degraded steps and
replays (R136, R137), and the placing of a step's streams (R266). -/

namespace Sys2Proof.Machine

/-- A step's streams placed on their peds' queues at a moment (R266); the contributor mask starts at all ones (R319). -/
def Plan.place (p : Plan) (step tag at_ iter first maxTokens : Nat) : StepRun :=
  { step, tag, at_, iter, first, maxTokens
    placed := p.instructions.map fun i =>
      { stream := i.1, index := i.2.1, phase := .placed, accepted := [], rdir := [], issuedAt := 0, since := none, gateDue := none,
        stalled := false, upd := none, flags := [], masks := [] }
    mask := BitVec.allOnes 256, snapDecided := none, nonfinite := [], colls := [] }

/-- The products of a step with no grant formed for it: all that are wanted stay narrow (R134, R136; log entry
19). -/
def State.noGrant (s : State) (id step : Nat) : State :=
  match s.ctx? id with
  | none => s
  | some c =>
    if c.sieve.grantStep = some step then s
    else
      let s := s.dropGrant id
      let denied := match c.plan with
        | none => 0
        | some p => match s.wantedWide c p with
          | .ok l => l.length
          | .error _ => 0
      s.mapCtx id fun c => { c with sieve := { c.sieve with granted := [], denied, grantStep := some step } }

/-- Whether a boundary of the step in front would take a snapshot: the decision made, or the one to be made now, by the T
that the boundary computes (R268, R389). -/
def State.boundaryMark (s : State) (c : Ctx) (run : StepRun) : SnapMark :=
  run.snapDecided.getD (s.snapDecision c (s.ckptInterval c))

/-- The actions of a boundary (R267): the records of R213, the marks and the next grant, the snapshot when one is
due, and the release of the next step. -/
def State.boundary (s : State) (id path : Nat) (degraded : Bool) : State :=
  match s.ctx? id with
  | none => s
  | some c =>
    match c.steps, c.plan with
    | run :: rest, some p =>
      let mark := s.boundaryMark c run
      let asked := run.snapDecided.isNone && c.snapAsked
      let s := s.mapCtx id fun c => { c with spr := { c.spr with step := run.step, tag := run.tag } }
      match (do (← s.setMarks id p).grant id (run.step + 1) p [] : Except Fail State) with
      | .error e => s.fault id path e
      | .ok s =>
        let s := s.mapCtx id fun c =>
          { c with steps := rest, snapAsked := c.snapAsked && !asked, heldDegraded := false
                   sieve := { c.sieve with jit := c.sieve.jit.filter (· != run.step), replay := false, lent := 0, degraded } }
        let s := s.updateCadence id
        let s := (if mark = .no then s else s.takeSnapshot id mark).mapCtx id fun c =>
          { c with phase := if c.phase = .running ∧ rest.isEmpty then .ready else c.phase }
        s.notify id 0x0010 (flag degraded) run.step []
    | _, _ => s

/-- The uncorrectable error that fails the copy back of a replay, if any (R237): in the record page or a filled slot. -/
def State.replayError (s : State) (c : Ctx) : Option Fail :=
  c.snap.bind fun sn =>
    let pages := sn.area :: (sn.slots.zipIdx.filter fun q => !(sn.pending.contains q.1)).map Prod.snd
    pages.findSome? fun j => (c.pages.area[j]?).bind fun d => s.ueIn (pageAddr d) pageSize

/-- The replay of a degraded step (R137): restored from the step snapshot with the lent pages granted, or none when
no valid step snapshot exists, one of the plan now loaded, or the grant still leaves a wanted product narrow. Its grant
logs FALLBACK_TAKEN a second time for the step: R136 has it once for the step, and does not say whether a replay, which
forms a grant of its own under R134, is another run of it (log entry 146). -/
def State.replay (s : State) (id : Nat) : Option State :=
  match s.ctx? id with
  | none => none
  | some c =>
    match c.snap, c.steps, c.plan, (c.snap.bind fun q => c.pages.area[q.area]?) with
    | some sn, run :: rest, some p, some rec =>
      if sn.step + 1 ≠ run.step ∨ !sn.ofPlan then none
      else
        let img := s.readRecord rec
        let lent := (c.pages.area.zipIdx.filter fun q => decide (sn.slots.length ≤ q.2) && q.2 != sn.area).map Prod.fst
        let filled := sn.slots.zipIdx.filter fun q => !(sn.pending.contains q.1)
        let s := filled.foldl (fun s q => s.restoreSlot c q.2 q.1) s
        let s := s.mapCtx id fun c =>
          { c with
            counters := s.keepCommons c (imageCounters img.counters)
            grains := (s.restoreRegs c img.regs).grains
            snap := c.snap.map fun q => { q with dirty := [] }
            steps := { p.place run.step run.tag run.at_ run.iter run.first run.maxTokens with snapDecided := run.snapDecided } :: rest
            sieve := { c.sieve with counts := [], jit := c.sieve.jit.filter (· != run.step) } }
        let s := s.bringResidency id img.residency
        match s.grant id run.step p lent with
        | .error _ => none
        | .ok s =>
          if (s.ctx? id).any fun c => c.sieve.denied == 0 then
            some (s.mapCtx id fun c => { c with sieve := { c.sieve with replay := true } })
          else none
    | _, _, _, _ => none

/-- The context is HELD with the degraded step's results in place (R136, R137). -/
def State.holdDegraded (s : State) (id detail step : Nat) : State :=
  (s.mapCtx id fun c => { c.holdWith 0x1202 detail with heldDegraded := true }).notify id 0x1202 detail step []

/-- Raises FALLBACK_SATURATED (R136, R137, R141): the step that has completed is tagged degraded. -/
def State.saturated (s : State) (id detail : Nat) : State :=
  (s.raise 0x1202 detail pkgPath id).mapCtx id fun c => { c with sieve := { c.sieve with fbSat := true, degraded := true } }

/-- What follows when the last instruction of a step has retired: the boundary, or the policy after a degraded step
(R136, R137). Answers whether the boundary has taken place. -/
def State.stepEnded (s : State) (id path : Nat) : State × Bool :=
  match s.ctx? id with
  | none => (s, false)
  | some c =>
    match c.steps with
    | [] => (s, false)
    | run :: _ =>
      if c.sieve.denied = 0 ∨ c.sieve.grantStep ≠ some run.step then (s.boundary id path false, true)
      else
        let s := s.saturated id 1
        match c.config.policy with
        | .cont => (s.boundary id path true, true)
        | .hold => (s.holdDegraded id 1 run.step, false)
        | .replayWide =>
          match s.replay id with
          | none => ((s.saturated id 2).holdDegraded id 2 run.step, false)
          | some s' => match s.replayError c with
            | some f => (s.fault id path f, false)
            | none => (s', false)

/-- Whether every other instruction of the step has retired (R267). -/
def StepRun.othersRetired (run : StepRun) (p : Placed) : Bool :=
  run.placed.all fun q => (q.stream == p.stream && q.index == p.index) || q.phase == .retired

/-- Whether a step end may retire: it is in front, its wait holds, every other instruction has retired, and no export
holds a boundary that would take a snapshot (R267, R357). -/
def State.endReady (s : State) (f : Found) (op : Nat) : Bool :=
  wOp f.words == op && s.issuable f && f.run.othersRetired f.p &&
  (f.ctx.steps.head?.any fun r => r.step == f.run.step) &&
  !(f.ctx.exporting && s.boundaryMark f.ctx f.run != .no)

/-- STEP_END (R267). -/
def execStepEnd (r : InstrRef) (s : State) : Out :=
  match s.found? r with
  | none => .next s
  | some f =>
    if s.endReady f 0x73 then
      let s := s.completeInstr r f
      if (s.ctx? r.ctx).any fun c => c.phase == .running then .next (s.stepEnded r.ctx f.path).1 else .next s
    else .next s

/-- Whether the next iteration would take a grow tensor past its length (R286). -/
def Plan.growEnds (p : Plan) (iter : Nat) : Bool := p.tensors.any fun t => t.grow != 0 && t.len0 + iter + 1 == t.d1

/-- Whether every sequence has ended (R286). -/
def State.allEnded (s : State) (c : Ctx) (arg : List Byte) : Except Fail Bool := do
  let words ← (List.range (leAt arg 8 4)).mapM fun j => s.rdNat c (leAt arg 0 6 + 4 * j) 4
  return words.all fun w => bitOf w 0

/-- A generation run ends (R286, R351). -/
def State.runDone (s : State) (id detail step iters : Nat) : State :=
  let s := s.mapCtx id fun c => { c with phase := .ready, lgl := { c.lgl with nextStep := step + 1 } }
  s.notify id 0x0011 detail step [iters]

/-- What LOOP_END does once the boundary of iteration `run` has taken place (R286). Iteration i of the loop is step
n_first + i of the plan, whichever RUN_STEP places it; the maximum token count and the iterations that RUN_DONE reports are
those of the run, which R286 names by the same i (log entry 152). -/
def State.loopNext (s : State) (id path : Nat) (run : StepRun) (arg : List Byte) : State :=
  match s.ctx? id with
  | none => s
  | some c =>
    match c.plan, s.allEnded c arg with
    | none, _ => s
    | some _, .error e => s.fault id path e
    | some p, .ok ended =>
      let start (s : State) : State := (s.mapCtx id fun c =>
        { c with steps := [p.place (run.step + 1) run.tag run.at_ (run.iter + 1) run.first run.maxTokens] }).noGrant id (run.step + 1)
      let done := run.iter + 1 - run.first
      if c.phase = .resetting then s
      else if ended || done == run.maxTokens then s.runDone id 0 run.step done
      else if p.growEnds run.iter then s.runDone id 1 run.step done
      else if c.holdAsked then (start s).mapCtx id fun c => c.holdWith 0x0031 0
      else (start s).mapCtx id fun c => { c with phase := if c.phase = .ready then .running else c.phase }

/-- LOOP_END (R286): it acts as STEP_END does, then decides whether the loop ends. -/
def execLoopEnd (r : InstrRef) (s : State) : Out :=
  match s.found? r with
  | none => .next s
  | some f =>
    if s.endReady f 0x74 then
      let s := s.completeInstr r f
      if (s.ctx? r.ctx).any fun c => c.phase == .running then
        let res := s.stepEnded r.ctx f.path
        if res.2 then
          .next (res.1.loopNext r.ctx f.path f.run ((f.ctx.plan.map fun p => p.arg (wLo f.words 4)).getD []))
        else .next res.1
      else .next s
    else .next s

end Sys2Proof.Machine
end

