-- ==== Sys2Proof/Machine/Sched.lean ====
section
/-! DEFINITION. The operand-ready scheduler of a grain (R153 to R162, R168, R169). -/

namespace Sys2Proof.Machine

/-- A grain's scheduler with nothing in it. -/
def Sched.empty : Sched :=
  { accepts := 0, cycle := [], queue := [], fwd := [], bwd := [], running := [], turnFwd := 0, turnBwd := 0 }

/-- The scheduler of a grain. -/
def State.sched (s : State) (g : Nat) : Sched := getKey .empty s.scheds g

/-- Replaces the scheduler of a grain. -/
def State.setSched (s : State) (g : Nat) (q : Sched) : State := { s with scheds := setKey s.scheds g q }

/-- The panels a grain takes of an array product (R280, R281): first and after the last. -/
def State.panelShare (s : State) (f : Found) (g : Nat) : Nat × Nat :=
  match f.ctx.plan.bind (fun p => p.unitCount f.words f.run.iter) with
  | none => (0, 0)
  | some n => match (s.divide f.path n).find? (fun sh => sh.1 == g) with
    | some sh => sh.2
    | none => (0, 0)

/-- Whether a grain has a share of an array product. -/
def State.hasShare (s : State) (f : Found) (g : Nat) : Bool :=
  decide ((s.panelShare f g).1 < (s.panelShare f g).2)

/-- Whether every earlier product of the same path and stream that has a share on the grain has been accepted there:
the handshake queues of R155 keep stream order. -/
def State.queueOrder (s : State) (f : Found) (g : Nat) : Bool :=
  f.ctx.steps.all fun r => r.placed.all fun q =>
    !(q.stream == f.p.stream && q.phase != .retired &&
      (decide (r.step < f.run.step) || (r.step == f.run.step && decide (q.index < f.p.index))) &&
      laneOf (f.ctx.words q.stream q.index) == laneOf f.words && !(q.accepted.contains g) &&
      s.hasShare { f with run := r, p := q, words := f.ctx.words q.stream q.index } g)

/-- INSTRUCTION_ACCEPT (R153, R155): the grain takes its share of a product as work items under one stamp; the arrival of
work wakes it first (R464). -/
def execInstructionAccept (g : Nat) (r : InstrRef) (sameCycle : Bool) (s : State) : Out :=
  let s := s.decideEntry r
  match s.found? r with
  | none => .next s
  | some f =>
    let held := f.ctx.plan.any fun p => s.judgedHold p f.words f.path f.run.iter
    if isProduct f.words && f.p.phase == .placed && f.ctx.placing && f.ctx.entered f.run &&
        !(f.ctx.eligibleHeld f.run f.words) && !held && s.grainOk g && s.hasShare f g &&
        !(f.p.accepted.contains g) && s.queueOrder f g then
      let s := s.enable g
      let q := s.sched g
      let backward := wOp f.words == 0x11
      let wide := !backward && f.ctx.runsWide r.step r.stream r.index
      let key := (r.ctx, backward)
      let same := sameCycle && !q.cycle.isEmpty && !(q.cycle.contains key)
      let stamp := if same then q.accepts else q.accepts + 1
      let sh := s.panelShare f g
      let items := (List.range (sh.2 - sh.1)).map fun i =>
        { ref := r, number := sh.1 + i, stamp, backward, wide,
          bsel := if backward then (productOf f.words).bsel else 0, preferFwd := false : Item }
      let q := { q with accepts := stamp, cycle := if same then q.cycle ++ [key] else [key], queue := q.queue ++ items }
      if !(s.active g) then .next s
      else .next ((((s.meetKeys r.ctx (f.ctx.plan.any fun p => p.drawsKey f.words)).setSched g q).mapCtx r.ctx fun c =>
          c.workArrives f.path [g]).mapPlaced r fun p =>
        { p with accepted := p.accepted ++ [g] })
    else .next s

/-- Whether an item belongs to the backward window: backward work and wide forward products (R154). -/
def Item.inBackward (i : Item) : Bool := i.backward || i.wide

/-- Which of two equally old items of the backward window goes first (R159): backward work before wide forward work,
reversed where the item's context prefers forward work. Items of different contexts are each ranked by their own
context's bit, which orders two backward items of contexts that differ in it too: R159 reverses the rule for a context and
does not say whose bit applies between two (log entry 139). -/
def Item.rank (i : Item) : Nat := if i.inBackward then flag (i.backward == i.preferFwd) else 0

/-- Whether `a` goes before `b`, of two that are each the oldest of their instruction: smaller stamp (R155), then R159's
rule, then the lower item number, the model's choice between equally old ones (log entry 121). -/
def Item.before (a b : Item) : Bool :=
  if a.stamp ≠ b.stamp then decide (a.stamp < b.stamp)
  else if a.rank ≠ b.rank then decide (a.rank < b.rank)
  else decide (a.number < b.number)

/-- The first of a list of items in the order of `Item.before`. -/
def firstItem : List Item → Option Item
  | [] => none
  | i :: is => match firstItem is with
    | none => some i
    | some j => if j.before i then some j else some i

/-- Whether `j` is an older item of the same instruction as `i` (R155). -/
def Item.follows (i j : Item) : Bool := j.ref == i.ref && j.stamp == i.stamp && decide (j.number < i.number)

/-- The oldest of a list of items (R155, R159): only the oldest item of each instruction can be it. -/
def oldestItem (l : List Item) : Option Item := firstItem (l.filter fun i => !(l.any i.follows))

/-- The mask word offset of an item's panel, when its product names a write mask (R167, R273). -/
def Found.maskOff (f : Found) (panel : Nat) : Option Nat :=
  if wHi f.words 6 = 0xFFFF then none
  else f.ctx.plan.map fun p => leAt (p.arg (wHi f.words 6)) 0 6 + 2 * panel

/-- Whether an item may enter a window: the items of a masked product are passed over until its wait holds (R169). -/
def State.mayEnter (s : State) (i : Item) : Bool :=
  match s.found? i.ref with
  | none => false
  | some f => f.ctx.placing && (wHi f.words 6 == 0xFFFF || s.waitHolds f)

/-- The context whose turn it is among those with items that may enter (R156): the next id after the last one. R156 gives
the round robin no order: the model goes by ascending context id with a turn of its own for each window, and an item that
its mask skips uses its context's turn (log entry 140). -/
def nextTurn (ids : List Nat) (last : Nat) : Option Nat :=
  let later := ids.filter fun i => decide (last < i)
  let pick (l : List Nat) : Option Nat := l.foldl (fun acc i => some (min (acc.getD i) i)) none
  if later.isEmpty then pick ids else pick later

/-- The item that enters a window next (R156). -/
def State.nextEntry (s : State) (g : Nat) (backward : Bool) : Option Item :=
  let q := s.sched g
  let items := (q.queue.filter fun i => i.inBackward == backward && s.mayEnter i).map fun i =>
    { i with preferFwd := (s.ctx? i.ref.ctx).any fun c => (c.grain g).preferFwd }
  let turn := if backward then q.turnBwd else q.turnFwd
  match nextTurn (items.map fun i => i.ref.ctx) turn with
  | none => none
  | some id => oldestItem (items.filter fun i => i.ref.ctx == id)

/-- ITEM_ENTER_WINDOW (R156, R159, R168, R169): the next item enters when a slot is free; a masked item whose mask
word is 0 is skipped and needs none, and the word read here decides which tiles are kept. The 16 slots of the backward
window are one bound on the items of both backward arrays: R156 gives '8 for each array' and R26 the slots that each
reserves, and an item that either array may run belongs to neither, so the model bounds the sum only (log entry 141). -/
def execItemEnterWindow (g : Nat) (backward : Bool) (s : State) : Out :=
  match s.nextEntry g backward with
  | none => .next s
  | some i =>
    match s.found? i.ref with
    | none => .next s
    | some f =>
      let q := s.sched g
      let room := if backward then decide (q.bwd.length < 16) else decide (q.fwd.length < 8)
      let q := { q with
        queue := q.queue.filter fun x => !(x.ref == i.ref && x.number == i.number)
        turnFwd := if backward then q.turnFwd else i.ref.ctx
        turnBwd := if backward then i.ref.ctx else q.turnBwd }
      let enter : State :=
        s.setSched g (if backward then { q with bwd := q.bwd ++ [i] } else { q with fwd := q.fwd ++ [i] })
      match f.maskOff i.number with
      | none => if room then .next enter else .next s
      | some off =>
        let note (w : Nat) (s : State) : State := s.mapPlaced i.ref fun p => { p with masks := setKey p.masks i.number w }
        match s.rdNat f.ctx off 2 with
        | .error e => .next (s.fault i.ref.ctx f.path e)
        | .ok 0 => .next (note 0 (s.setSched g q))
        | .ok w => if room then .next (note w enter) else .next s

/-- Whether an array may run an item (R158): array 0 is the forward array, 1 and 2 the backward arrays. -/
def Item.runsOn (i : Item) (a : Nat) : Bool :=
  if a = 0 then !i.inBackward
  else if a = 1 then i.inBackward && i.bsel != 2
  else i.inBackward && i.bsel != 1

/-- Whether an array of a grain is in an engine reset. -/
def State.arrayResetting (s : State) (g a : Nat) : Bool :=
  s.engines.any fun e => e.resetting.isSome &&
    e.engine == (if a = 0 then .forward g else if a = 1 then .backward0 g else .backward1 g)

/-- The item a free array issues: the oldest satisfied one in its window that it may run (R157, R158). -/
def State.nextIssue (s : State) (g a : Nat) : Option Item :=
  let q := s.sched g
  if (q.running.any fun r => r.1 == a) || s.arrayResetting g a || !(decide (a < 3)) then none
  else oldestItem ((q.window a).filter fun i => i.runsOn a && s.satisfied i &&
    (s.ctx? i.ref.ctx).any Ctx.placing)

/-- ITEM_ISSUE (R158): when both backward arrays are free, backward array 0 chooses first; an item that is ready wakes its
grain, and is issued once the grain is active (R371, R464). -/
def execItemIssue (g a : Nat) (s : State) : Out :=
  if a = 2 ∧ (s.nextIssue g 1).isSome then .next s
  else match s.nextIssue g a with
  | none => .next s
  | some i =>
    let s := s.enable g
    let q := s.sched g
    let drop (l : List Item) : List Item := l.filter fun x => !(x.ref == i.ref && x.number == i.number)
    if !(s.active g) then .next s
    else .next (s.setSched g { q with fwd := drop q.fwd, bwd := drop q.bwd, running := q.running ++ [(a, i, s.now)] })

/-- ITEM_COMPLETE (R161): the array is free again; its engine has retired an item (R371). -/
def execItemComplete (g a : Nat) (s : State) : Out :=
  let q := s.sched g
  if q.running.any fun r => r.1 == a then
    let e : Engine := if a = 0 then .forward g else if a = 1 then .backward0 g else .backward1 g
    let s := s.setSched g { q with running := q.running.filter fun r => r.1 != a }
    .next (s.engineRetires e)
  else .next s

end Sys2Proof.Machine
end

