-- ==== Sys2Proof/Machine/Arrays.lean ====
section
/-! DEFINITION. Array products (R68 to R87, R133, R154, R167, R168, R177, R273): MM_FWD and MM_BWD. -/

namespace Sys2Proof.Machine

/-- What an array reads at one operand: the view, the format its cells see, the code of its scale reader in
CVU_SKEW_SRC (R100) and whether FP32 elements are narrowed to BF16 first (R133). -/
structure ArrayOperand where
  view : TView
  fmt : ElemFmt
  reader : Nat
  toBf16 : Bool

/-- The operands of a product in a step: narrow operands of a product granted wide are read from their wide sources
(R133, R177). -/
def State.productOperand (s : State) (c : Ctx) (p : Plan) (i step iter reader : Nat) (wide : Bool) :
    Except Fail ArrayOperand :=
  match p.tensors[i]? with
  | none => .error windowViolation
  | some t =>
    match (if wide && t.narrow then p.wideSource t else none) with
    | some _ => do
      let v ← s.operand c p t.wide step iter
      return { view := v, fmt := .bf16, reader, toBf16 := v.t.elem == .fp32 }
    | none => do
      let v ← s.operand c p i step iter
      return { view := v, fmt := if wide && v.t.elem == .fp32 then .bf16 else v.t.elem, reader,
               toBf16 := wide && v.t.elem == .fp32 }

/-- One block of 32 reduction positions of an operand: its scale and codes; `at_` gives the element at a position
(R69, R95). -/
def State.operandBlock (s : State) (c : Ctx) (o : ArrayOperand) (src : Nat) (at_ : Nat → Coord) (lo n : Nat) :
    Except Fail (Scale × List Nat) := do
  let sc ← s.readScale c o.view.t (at_ lo) o.reader src
  let codes ← (List.range n).mapM fun j => s.readCode c o.view.t (at_ (lo + j))
  return (sc, if o.toBf16 then codes.map fun x => bf16.ofNum .rne (fp32.decode x) else codes)

/-- The rows of A, the columns of B and the length of the reduction (R273). In an iteration of a generation loop where only
one operand's reduction length grows the two differ, and R68's K is not said: the model takes A's, reading B beyond its
own as the storage holds it (log entry 142). -/
def productDims (pr : Product) (a b : TView) : Nat × Nat × Nat :=
  (if pr.ta then a.t.d0 else a.rows, if pr.tb then b.rows else b.t.d0, if pr.ta then a.rows else a.t.d0)

/-- Element (row, k) of operand A (R273). -/
def aAt (ta : Bool) (v : TView) (i2 i3 row k : Nat) : Coord :=
  if ta then { c0 := row, c1 := v.row0 + k, c2 := i2, c3 := i3 } else { c0 := k, c1 := v.row0 + row, c2 := i2, c3 := i3 }

/-- Element (k, col) of operand B; its one matrix serves every matrix of A when it has only one (R273). -/
def bAt (tb : Bool) (v : TView) (i2 i3 k col : Nat) : Coord :=
  let i2 := if v.t.d2 = 1 then 0 else i2
  let i3 := if v.t.d3 = 1 then 0 else i3
  if tb then { c0 := k, c1 := v.row0 + col, c2 := i2, c3 := i3 } else { c0 := col, c1 := v.row0 + k, c2 := i2, c3 := i3 }

/-- What one output element came to: the chain and the Sieve's counts of its blocks (R83). -/
structure ElementOut where
  code : Nat
  nonfinite : Nat
  blockOver : Nat
  chainOver : Nat

/-- What two readers of one instruction answer: when both find a mismatch at the same block, both are reported (R98). -/
def bothReaders {α : Type} (x y : Except Fail α) : Except Fail (α × α) :=
  match x, y with
  | .ok a, .ok b => .ok (a, b)
  | .error e, .error f => .error { e with also := if e.skew.isSome then e.also ++ f.skew.toList else e.also }
  | .error e, _ => .error e
  | _, .error f => .error f

/-- One output element: its block results in k order, then the chain (R68, R77 to R79). -/
def State.productElement (s : State) (c : Ctx) (a b : ArrayOperand) (pr : Product) (src i2 i3 row col klen : Nat)
    (start bias : Option Nat) : Except Fail ElementOut := do
  let rs ← (List.range (ceilDiv klen 32)).mapM fun blk => do
    let lo := 32 * blk
    let n := min 32 (klen - lo)
    let (x, y) ← bothReaders (s.operandBlock c a src (fun k => aAt pr.ta a.view i2 i3 row k) lo n)
      (s.operandBlock c b src (fun k => bAt pr.tb b.view i2 i3 k col) lo n)
    return blockResult a.fmt b.fmt x.1 y.1 x.2 y.2
  let ch := chainOf start (rs.map BlockRes.code) bias
  return { code := ch.c, nonfinite := (rs.filter BlockRes.nonfinite).length,
           blockOver := (rs.filter BlockRes.overflow).length, chainOver := ch.overflows }

/-- The mask word of a panel, as it was read when the panel's item entered a window; all ones without a mask (R167 to
R169). -/
def Found.maskWord (f : Found) (panel : Nat) : Nat :=
  if wHi f.words 6 = 0xFFFF then 0xFFFF else getKey 0 f.p.masks panel

/-- The first element of every block of a view along its scale axis, each block once (R95). -/
def TView.blocks (v : TView) : List Coord :=
  let axis := v.t.scale.axis
  let base := if axis = 1 then v.row0 else 0
  (v.rowsAlong axis).flatMap fun row => (List.range (ceilDiv (v.length axis) 32)).map fun j => row.set axis (base + 32 * j)

/-- Blocks of an operand, of those that are read, with an unusable scale (R47): SCALE_NAN counts one for each, once for
the instruction. It is counted only: R47, R62 and R124 count it and no rule raises it, though R481 lists the code among
those logged with severity 3 (log entry 143). -/
def State.badScales (s : State) (c : Ctx) (o : ArrayOperand) (src : Nat) (blocks : List Coord) : Except Fail Nat :=
  if o.fmt.isWide then .ok 0
  else do
    let bad ← blocks.mapM fun k => do return flag ((← s.readScale c o.view.t k o.reader src).unusable o.fmt)
    return sumNat bad

/-- Raises NONFINITE_SEEN once for a tensor in a step (R83). Its source is the path the instruction is addressed to: R83
names none, and the tensor's blocks may come from many grains (log entry 144). -/
def State.nonfiniteSeen (s : State) (id step tensor path : Nat) : State :=
  match (s.ctx? id).bind fun c => c.steps.find? fun r => r.step == step with
  | none => s
  | some run =>
    if run.nonfinite.contains tensor then s
    else (s.raise 0x1001 0 path id).mapCtx id fun c => c.mapRun step fun r => { r with nonfinite := r.nonfinite ++ [tensor] }

/-- The element of the product that an element of C as written holds: row and column (R273). -/
def Product.place (pr : Product) (k : Coord) : Nat × Nat := if pr.tc then (k.c0, k.c1) else (k.c1, k.c0)

/-- The value of an association list of output elements. -/
def valueAt (l : List (Coord × Nat)) (k : Coord) : Num :=
  match l.find? (fun p => p.1 == k) with
  | some p => fp32.decode p.2
  | none => .fin false 0 0

/-- The accumulator element a chain continues from (R79). -/
def State.startValue (s : State) (c : Ctx) (p : Plan) (pr : Product) (k : Coord) : Except Fail (Option Nat) :=
  if pr.cont then
    match p.tensors[pr.acc]? with
    | some acc => (s.readCode c acc k).map some
    | none => .error windowViolation
  else .ok none

/-- The bias operand of a product, when it names one: an image's is read from the step's buffer (R78, R177). -/
def State.biasOperand (s : State) (c : Ctx) (p : Plan) (i step iter : Nat) : Except Fail (Option TView) :=
  if i = 0xFFFF then .ok none else (s.operand c p i step iter).map some

/-- Bias element `j` in logical order, as FP32 (R78, R204). -/
def State.biasValue (s : State) (c : Ctx) (v : Option TView) (j reader src : Nat) : Except Fail (Option Nat) :=
  match v with
  | some v =>
    let k : Coord := { c0 := j % v.t.d0, c1 := v.row0 + j / v.t.d0 % v.rows, c2 := j / v.t.d0 / v.rows % v.t.d2,
                       c3 := j / v.t.d0 / v.rows / v.t.d2 }
    (s.readNum c v.t k reader src).map fun x => some (fp32.ofNum .rne x)
  | none => .ok none

/-- The first elements of the blocks that lie along the reduction from each of a list of elements, each block once
(R69, R95); `onRows` when the reduction runs along d1. -/
def blocksFrom (onRows : Bool) (klen : Nat) (firsts : List Coord) : List Coord :=
  firsts.eraseDups.flatMap fun r => (List.range (ceilDiv klen 32)).map fun j =>
    if onRows then { r with c1 := r.c1 + 32 * j } else { r with c0 := r.c0 + 32 * j }

/-- An array product's whole effect (R68, R77 to R83, R133, R168, R177, R273). -/
def State.product (s : State) (f : Found) (p : Plan) (out : Tensor) (outIdx : Nat) : Except Fail State := do
  let pr := productOf f.words
  let c := f.ctx
  let id := c.id
  let wide := c.runsWide f.run.step f.p.stream f.p.index
  let rd := if pr.forward && !wide then 0 else if pr.bsel = 2 then 4 else 2
  let a ← s.productOperand c p pr.a f.run.step f.run.iter rd wide
  let b ← s.productOperand c p pr.b f.run.step f.run.iter (rd + 1) wide
  let v := out.view f.run.iter
  let klen := (productDims pr a.view b.view).2.2
  let biasView ← s.biasOperand c p pr.bias f.run.step f.run.iter
  let coords := v.coords.filter fun k => f.maskWord (panelOf v k) != 0
  let grain (k : Coord) : Nat := s.grainOfUnit f.path (panelCount v) (panelOf v k)
  let place (k : Coord) : Nat × Nat := pr.place { k with c1 := k.c1 - v.row0 }
  let els ← coords.mapM fun k => do
    let q := place k
    let src := grain k
    let start ← s.startValue c p pr k
    let bias ← s.biasValue c biasView q.2 rd src
    let e ← s.productElement c a b pr src k.c2 k.c3 q.1 q.2 klen start bias
    return (k, e)
  let kept (k : Coord) : Bool := bitOf (f.maskWord (panelOf v k)) (tileInPanel k)
  let mine := els.filter fun x => kept x.1
  let sum (g : ElementOut → Nat) : Nat := sumNat (mine.map fun x => g x.2)
  let nf := sum ElementOut.nonfinite
  let src := s.grainOfUnit f.path (panelCount v) 0
  let aBlocks := blocksFrom pr.ta klen (coords.map fun k => aAt pr.ta a.view k.c2 k.c3 (place k).1 0)
  let bBlocks := blocksFrom (!pr.tb) klen (coords.map fun k => bAt pr.tb b.view k.c2 k.c3 0 (place k).2)
  let bad := (← s.badScales c a src aBlocks) + (← s.badScales c b src bBlocks)
  let s := s.credit id out f.run.step [0, 0, 0, 0, 0, 0, nf, sum ElementOut.blockOver, sum ElementOut.chainOver, 0, 0, bad]
  let s := if nf = 0 then s else s.nonfiniteSeen id f.run.step outIdx f.path
  let sp : WriteSpec := { src := .fp32, rnd := .rne, nanm := false, step := f.run.step, run := f.run.step,
                          mb := wMb f.words, grain }
  s.writeTensor id v sp kept (valueAt (els.map fun x => (x.1, x.2.code)))

/-- Whether every grain with a share of a product has accepted it (R155). -/
def State.allAccepted (s : State) (f : Found) : Bool :=
  (s.grains.filter fun g => s.hasShare f g).all fun g => f.p.accepted.contains g

/-- The output tensor of a product: the accumulator with to_acc (R273). -/
def Product.output (pr : Product) : Nat := if pr.toAcc then pr.acc else pr.c

/-- Runs an array product of a path once its grains have accepted it, its waits hold (R157) and every item has run: the
output of a product takes effect as one, and of one whose items are discarded nothing does (R160, R161; log entry 145). -/
def State.runProduct (s : State) (r : InstrRef) (op : Nat) : State :=
  match s.found? r with
  | none => s
  | some f =>
    if wOp f.words == op && f.p.phase == .placed && s.allAccepted f && !(s.itemsLeft r) && f.ctx.phase != .resetting && s.waitHolds f then
      match f.ctx.plan with
      | none => s
      | some p =>
        let i := (productOf f.words).output
        match p.tensors[i]? with
        | none => s.fault r.ctx f.path windowViolation
        | some out =>
          match s.product f p out i with
          | .ok s' => s'.setPhase r .executed
          | .error e => (s.undefView r.ctx (out.view f.run.iter)).fault r.ctx f.path e
    else s

/-- MM_FWD (R68, R273). -/
def execMmFwd (r : InstrRef) (s : State) : Out := .next (s.runProduct r 0x10)

/-- MM_BWD (R68, R154, R273). -/
def execMmBwd (r : InstrRef) (s : State) : Out := .next (s.runProduct r 0x11)

end Sys2Proof.Machine
end

