-- ==== Sys2Proof/Machine/Vector.lean ====
section
/-! DEFINITION. The vector unit's element-wise operations and reductions (R64, R66, R86, R274, R289, R482): VEC_ELT,
VEC_ROWRED, and the row statistics of R164. -/

namespace Sys2Proof.Machine

/-- Runs a lane instruction's whole effect once it has been issued: on success it is executed, on failure `undo`
leaves its output undefined, the failed operation ends and the context faults (R98). In a context reset it is only
stopped (R377), and an engine in a reset runs nothing (R378). -/
def State.runIssuedWith (s : State) (r : InstrRef) (ok : Found → Bool) (undo : Found → Plan → State → State)
    (act : Found → Plan → State → Except Fail State) : State :=
  match s.found? r with
  | none => s
  | some f =>
    if ok f && f.p.phase == .issued && f.ctx.phase != .resetting && !(s.engineStopped f) then
      match f.ctx.plan with
      | none => s
      | some p =>
        match act f p s with
        | .ok s' => s'.setPhase r .executed
        | .error e => ((undo f p s).setPhase r .retired).fault r.ctx f.path e
    else s

/-- Makes what an iteration writes of tensors undefined, by their indices (R98, R271). -/
def State.undefTensors (s : State) (id : Nat) (p : Plan) (iter : Nat) (l : List Nat) : State :=
  (l.filterMap fun i => p.tensors[i]?).foldl (fun s t => s.undefView id (t.view iter)) s

/-- The same with output tensors given by index. -/
def State.runIssued (s : State) (r : InstrRef) (ok : Found → Bool) (outs : Found → Plan → List Nat)
    (act : Found → Plan → State → Except Fail State) : State :=
  s.runIssuedWith r ok (fun f p s => s.undefTensors r.ctx p f.run.iter (outs f p)) act

/-- The layout of an operation's precision (R482). -/
def precOf (wide64 : Bool) : FloatFmt := if wide64 then fp64 else fp32

/-- The element format of an operation's results as they reach the conversion unit. -/
def precFmt (wide64 : Bool) : ElemFmt := if wide64 then .fp64 else .fp32

/-- An operand element widened to the operation's precision (R48, R482). -/
def State.vecRead (s : State) (c : Ctx) (t : Tensor) (k : Coord) (w64 : Bool) : Except Fail FV := do
  return FV.of (widen t.elem.layout (precOf w64) (← s.readCode c t k))

/-- Where operand `v` holds the value for element `k` of destination `d`: the same shape, a row vector, a column
vector or a single element (R482). -/
def broadcast (v d : TView) (k : Coord) : Coord :=
  let r := k.c1 - d.row0
  if v.rows = d.rows ∧ v.t.d0 = d.t.d0 ∧ v.t.d2 = d.t.d2 ∧ v.t.d3 = d.t.d3 then { k with c1 := v.row0 + r }
  else if v.t.d2 = 1 ∧ v.t.d3 = 1 ∧ v.rows = 1 ∧ v.t.d0 = d.t.d0 then { c0 := k.c0, c1 := v.row0, c2 := 0, c3 := 0 }
  else if v.t.d2 = 1 ∧ v.t.d3 = 1 ∧ v.t.d0 = 1 ∧ v.rows = d.rows then { c0 := 0, c1 := v.row0 + r, c2 := 0, c3 := 0 }
  else { c0 := 0, c1 := v.row0, c2 := 0, c3 := 0 }

/-- Whether any of an instruction's named tensors is FP64. -/
def Plan.any64 (p : Plan) (l : List Nat) : Bool := l.any fun i => (p.tensors[i]?).any fun t => t.elem == .fp64

/-- The operand view of an index, when one is named. -/
def State.vecOperand (s : State) (f : Found) (p : Plan) (i : Nat) : Except Fail (Option TView) :=
  if i = 0xFFFF then .ok none else (s.operand f.ctx p i f.run.step f.run.iter).map some

/-- An operand's value for an element; +0 where none is named. -/
def State.vecArg (s : State) (f : Found) (v : Option TView) (d : TView) (k : Coord) (w64 : Bool) : Except Fail FV :=
  match v with
  | some v => s.vecRead f.ctx v.t (broadcast v d k) w64
  | none => .ok (0, 0)

/-- A write by a vector instruction: RNE, saturating, no random words. -/
def Found.writeSpec (f : Found) (src : ElemFmt) (grain : Coord → Nat) : WriteSpec :=
  { src, rnd := .rne, nanm := false, step := f.run.step, run := f.run.step, mb := wMb f.words, grain }

/-- Writes the elements of a result and keeps their flags, on their grains, for the retirement; `unit` tells an element's
unit and `n` the number of units (R64, R66, R281). -/
def State.finishVec (s : State) (f : Found) (v : TView) (src : ElemFmt) (n : Nat) (unit : Coord → Nat)
    (l : List (Coord × FV)) : Except Fail State := do
  let val (k : Coord) : Num := match l.find? (fun p => p.1 == k) with
    | some p => src.layout.decode p.2.1
    | none => .fin false 0 0
  let grain (k : Coord) : Nat := s.grainOfUnit f.path n (unit k)
  let s ← s.writeTensor f.ctx.id v (f.writeSpec src grain) keepAll val
  return s.holdFlags f.ref ((l.filter fun p => p.2.2 != 0).map fun p => (grain p.1, p.2.2))

/-- The operation of VEC_ELT on one element, for the operations that use only the element's own position (R274). The
multiplication of 0x0B rounds by RNE, as the function it completes does: R274 gives RNE except where R64 lets rdir apply,
and neither says whether R64 means this product (log entry 136). -/
def vecOp (op : Nat) (fm : FloatFmt) (rm : Rm) (x y z arg : FV) : FV :=
  match op with
  | 0x00 => fm.addF rm x y
  | 0x01 => fm.subF rm x y
  | 0x02 => fm.mulF rm x y
  | 0x03 => fm.fmaF rm x y z
  | 0x04 => fm.maxF x y
  | 0x05 => fm.minF x y
  | 0x06 => FV.elem exp32 x
  | 0x07 => FV.elem log32 x
  | 0x08 => FV.elem rsqrt32 x
  | 0x09 => FV.elem recip32 x
  | 0x0A => FV.elem sigmoid32 x
  | 0x0B => fm.mulF .rne x (FV.elem sigmoid32 x)
  | 0x0C => fm.mulF rm x arg
  | _ => x

/-- The signed value of a 32-bit word. -/
def signed32 (w : Nat) : Int := if w < 2 ^ 31 then w else (w : Int) - 2 ^ 32

/-- Causal: −∞ where the column passes the row by more than o (R274). -/
def causal (fm : FloatFmt) (o : Int) (r c : Nat) (x : FV) : FV :=
  if (r : Int) + o < c then (fm.infCode true, 0) else x

/-- The row of X that a GATHER index names, if it is an integer in 0 to `n` − 1 (R274). -/
def gatherIndex (fm : FloatFmt) (y n : Nat) : Option Nat :=
  match fm.decode y with
  | .fin neg m e =>
    let i := if 0 ≤ e then m * 2 ^ e.toNat else m / 2 ^ (-e).toNat
    let whole := decide (0 ≤ e) || m % 2 ^ (-e).toNat == 0
    if whole && decide (i < n) && (!neg || m == 0) then some i else none
  | _ => none

/-- MERGE of one row's element (R289): the two maxima, sums and output elements; `col` is the element's column. -/
def mergeElt (col : Nat) (m1 s1 o1 m2 s2 o2 : FV) : FV :=
  let m := fp32.maxF m1 m2
  if m.1 = fp32.infCode true then (if col = 0 then m else (0, 0))
  else
    let a := FV.elem exp32 (fp32.subF .rne m1 m)
    let b := FV.elem exp32 (fp32.subF .rne m2 m)
    if col = 0 then m
    else if col = 1 then fp32.fmaF .rne a s1 (fp32.mulF .rne b s2)
    else fp32.fmaF .rne a o1 (fp32.mulF .rne b o2)

/-- D := X of VEC_ELT 0x10 (R64, R274): between FP64 and FP32 it is the vector unit's conversion, by rdir and with flags;
every other change of format is left to the conversion unit (log entry 137). -/
def vecConvert (rm : Rm) (src dst : ElemFmt) (x : FV) : FV :=
  if src = .fp64 ∧ dst = .fp32 then FV.toFp32 rm x
  else if src = .fp32 ∧ dst = .fp64 then FV.toFp64 x
  else x

/-- The format in which a VEC_ELT's results reach the conversion unit (R274, R482). -/
def vecOut (op : Nat) (w64 : Bool) (dst : ElemFmt) : ElemFmt := if op = 0x10 ∧ dst = .fp32 then .fp32 else precFmt w64

/-- The elements of a VEC_ELT's destination with their values (R274, R482). -/
def State.vecElements (s : State) (f : Found) (p : Plan) (x y z : Option TView) (d : TView) (w64 : Bool) (n : Nat)
    (unit : Coord → Nat) : Except Fail (List (Coord × FV)) :=
  let op := bitsOf (wCf f.words) 4 0
  let fm := precOf w64
  let arg := p.arg (wLo f.words 6)
  let sArg := FV.of (if w64 then widen fp32 fp64 (leAt arg 0 4) else leAt arg 0 4)
  d.coords.mapM fun k => do
    let r := k.c1 - d.row0
    match op with
    | 0x0D => do
      let a ← s.vecArg f x d k w64
      return (k, causal fm (signed32 (leAt arg 0 4)) r k.c0 a)
    | 0x0E =>
      match x, y with
      | some xv, some yv => do
        let yk : Coord := if yv.t.d2 = 1 ∧ yv.t.d3 = 1 then { c0 := 0, c1 := yv.row0 + r, c2 := 0, c3 := 0 }
          else { c0 := 0, c1 := yv.row0 + r, c2 := k.c2, c3 := k.c3 }
        let i ← s.vecRead f.ctx yv.t yk w64
        match gatherIndex fm i.1 xv.rows with
        | none => return (k, (fm.nanCode, 0))
        | some i => do
          let one := xv.t.d2 = 1 ∧ xv.t.d3 = 1
          let xk : Coord := { c0 := k.c0, c1 := xv.row0 + i, c2 := if one then 0 else k.c2, c3 := if one then 0 else k.c3 }
          return (k, ← s.vecRead f.ctx xv.t xk w64)
      | _, _ => .error windowViolation
    | 0x0F => do
      let at_ (v : Option TView) (col : Nat) := s.vecArg f v d { k with c0 := col } w64
      return (k, mergeElt k.c0 (← at_ x 0) (← at_ x 1) (← at_ x k.c0) (← at_ y 0) (← at_ y 1) (← at_ y k.c0))
    | 0x10 => do
      let a ← s.vecArg f x d k w64
      return (k, vecConvert (f.p.rdirOf (s.grainOfUnit f.path n (unit k))) ((x.map fun v => v.t.elem).getD .fp32) d.t.elem a)
    | _ => do
      let a ← s.vecArg f x d k w64
      let b ← s.vecArg f y d k w64
      let c ← s.vecArg f z d k w64
      return (k, vecOp op fm (f.p.rdirOf (s.grainOfUnit f.path n (unit k))) a b c sArg)

/-- The half words of a vector instruction that name tensors it reads. -/
def vectorReads (ws : List Nat) : List Nat :=
  let sel := wCf ws % 4
  match wOp ws with
  | 0x20 =>
    let k := wCf ws % 32
    [0] ++ (if k ≤ 5 ∨ k = 0x0E ∨ k = 0x0F then [1] else []) ++ (if k = 3 then [2] else [])
  | 0x21 => [0] ++ if sel = 3 then [1] else []
  | 0x22 => [0] ++ (if sel < 2 then [1] else []) ++ if sel = 1 then [2] else []
  | 0x23 => [0] ++ (if sel < 2 then [1] else []) ++ [2]
  | 0x24 => [0]
  | 0x26 => [0]
  | 0x27 => [0]
  | _ => []

/-- Whether the instruction operates in FP32 only, so that an FP64 read operand is refused (R287, R482):
the elementary functions, MERGE, which forms exponentials (R289; log entry 126), and the row statistics. -/
def fp32Only (ws : List Nat) : Bool :=
  let k := wCf ws % 32
  match wOp ws with
  | 0x20 => (decide (0x06 ≤ k) && decide (k ≤ 0x0B)) || k == 0x0F
  | 0x22 => true
  | 0x23 => true
  | _ => false

/-- VEC_ELT's effect. -/
def State.vecElt (s : State) (f : Found) (p : Plan) : Except Fail State := do
  let x ← s.vecOperand f p (wLo f.words 4)
  let reads := vectorReads f.words
  let yi := if reads.contains 1 then wHi f.words 4 else 0xFFFF
  let zi := if reads.contains 2 then wLo f.words 5 else 0xFFFF
  let y ← s.vecOperand f p yi
  let z ← s.vecOperand f p zi
  match p.tensors[wHi f.words 5]? with
  | none => .error windowViolation
  | some dt => do
    let d := dt.view f.run.iter
    let w64 := !(fp32Only f.words) && p.any64 [wLo f.words 4, yi, zi, wHi f.words 5]
    let n := (p.unitCount f.words f.run.iter).getD 1
    let unit (k : Coord) : Nat := if bitsOf (wCf f.words) 4 0 = 0x0E then d.rowOf k else tileOf d k
    let l ← s.vecElements f p x y z d w64 n unit
    s.finishVec f d (vecOut (bitsOf (wCf f.words) 4 0) w64 dt.elem) n unit l

/-- VEC_ELT (R274, R482). -/
def execVecElt (r : InstrRef) (s : State) : Out :=
  .next (s.runIssued r (fun f => wOp f.words == 0x20) (fun f _ => [wHi f.words 5]) fun f p s => s.vecElt f p)

/-! ## Row reductions -/

/-- The elements of one row of a view. -/
def State.rowVals (s : State) (f : Found) (v : TView) (i1 i2 i3 : Nat) (w64 : Bool) : Except Fail (List FV) :=
  (List.range v.t.d0).mapM fun i0 => s.vecRead f.ctx v.t { c0 := i0, c1 := v.row0 + i1, c2 := i2, c3 := i3 } w64

/-- The maximum of a row, exact (R64). -/
def maxOrder (fm : FloatFmt) (xs : List Nat) : Nat × Flags :=
  fold1 (fun a b => FV.join (fm.maximum a.1 b.1) (a.2 ||| b.2)) (0, 0) (xs.map FV.of)

/-- A row reduction of R274 in the order of R86. -/
def rowReduce (op : Nat) (fm : FloatFmt) (xs ys : List Nat) : FV :=
  match op with
  | 0 => sumOrder fm xs
  | 1 => dotOrder fm xs xs
  | 2 => maxOrder fm xs
  | _ => dotOrder fm xs ys

/-- Every row of a view: its index within the matrix and the matrix. -/
def TView.rowList (v : TView) : List (Nat × Nat × Nat) :=
  (List.range v.t.d3).flatMap fun i3 => (List.range v.t.d2).flatMap fun i2 => (List.range v.rows).map fun i1 => (i1, i2, i3)

/-- VEC_ROWRED's effect. -/
def State.vecRowred (s : State) (f : Found) (p : Plan) : Except Fail State := do
  let op := bitsOf (wCf f.words) 1 0
  let x ← s.operand f.ctx p (wLo f.words 4) f.run.step f.run.iter
  let y ← s.vecOperand f p (if op = 3 then wHi f.words 4 else 0xFFFF)
  match p.tensors[wLo f.words 5]? with
  | none => .error windowViolation
  | some dt => do
    let d := dt.view f.run.iter
    let w64 := p.any64 [wLo f.words 4, if op = 3 then wHi f.words 4 else 0xFFFF, wLo f.words 5]
    let l ← x.rowList.mapM fun q => do
      let xs ← s.rowVals f x q.1 q.2.1 q.2.2 w64
      let ys ← match y with
        | some yv => s.rowVals f yv q.1 q.2.1 q.2.2 w64
        | none => .ok []
      return (({ c0 := 0, c1 := d.row0 + q.1, c2 := q.2.1, c3 := q.2.2 } : Coord),
        rowReduce op (precOf w64) (xs.map Prod.fst) (ys.map Prod.fst))
    s.finishVec f d (precFmt w64) ((p.unitCount f.words f.run.iter).getD 1) d.rowOf l

/-- VEC_ROWRED (R86, R274, R482). -/
def execVecRowred (r : InstrRef) (s : State) : Out :=
  .next (s.runIssued r (fun f => wOp f.words == 0x21) (fun f _ => [wLo f.words 5]) fun f p s => s.vecRowred f p)

/-! ## Row statistics (R164) -/

/-- FP32 operations by RNE that gather flags. -/
def addV (a b : FV) : FV := fp32.addF .rne a b
/-- FP32 subtraction. -/
def subV (a b : FV) : FV := fp32.subF .rne a b
/-- FP32 multiplication. -/
def mulV (a b : FV) : FV := fp32.mulF .rne a b
/-- FP32 division. -/
def divV (a b : FV) : FV := fp32.divF .rne a b
/-- FP32 fused multiply-add. -/
def fmaV (a b c : FV) : FV := fp32.fmaF .rne a b c

/-- The flags of a list of values. -/
def flagsOf (l : List FV) : Flags := l.foldl (fun a x => a ||| x.2) 0

/-- A sum in the order of R86 with the flags of its terms. -/
def sumV (l : List FV) : FV := FV.join (sumOrder fp32 (l.map Prod.fst)) (flagsOf l)

/-- A dot product in the order of R86 with the flags of its factors. -/
def dotV (a b : List FV) : FV := FV.join (dotOrder fp32 (a.map Prod.fst) (b.map Prod.fst)) (flagsOf a ||| flagsOf b)

/-- The statistics of a row: the mean subtracted from its elements (none for RMS), and r; or the terms and their sum
of a soft maximum. -/
structure RowStat where
  centred : List FV
  r : FV
  probs : List FV

/-- The statistics of R164 for a row: cf[1:0] 0 RMS, 1 layer, 2 soft maximum. -/
def rowStat (op : Nat) (eps : Nat) (xs : List FV) : RowStat :=
  let n := FV.of (nat32 xs.length)
  match op with
  | 0 =>
    let ms := divV (dotV xs xs) n
    { centred := xs, r := FV.elem rsqrt32 (addV ms (FV.of eps)), probs := [] }
  | 1 =>
    let mu := divV (sumV xs) n
    let ds := xs.map fun x => subV x mu
    let v := divV (dotV ds ds) n
    { centred := ds, r := FV.elem rsqrt32 (addV v (FV.of eps)), probs := [] }
  | _ =>
    let mx := FV.join (maxOrder fp32 (xs.map Prod.fst)) (flagsOf xs)
    let ts := xs.map fun x => FV.elem exp32 (subV x mx)
    let t := sumV ts
    { centred := xs, r := t, probs := ts.map fun e => divV e t }

/-- The forward output of a row (R164). -/
def rowForward (op : Nat) (st : RowStat) (g b : List FV) : List FV :=
  match op with
  | 0 => (st.centred.zip g).map fun p => mulV (mulV p.1 st.r) p.2
  | 1 => (st.centred.zip (g.zip b)).map fun p => fmaV (mulV p.1 st.r) p.2.1 p.2.2
  | _ => st.probs

/-- The backward output of a row (R164). -/
def rowBackward (op : Nat) (st : RowStat) (g dy : List FV) : List FV :=
  let n := FV.of (nat32 dy.length)
  match op with
  | 0 =>
    let h := (g.zip dy).map fun p => mulV p.1 p.2
    let a := divV (dotV st.centred h) n
    let ra := mulV (mulV st.r st.r) a
    (st.centred.zip h).map fun p => mulV st.r (subV p.2 (mulV p.1 ra))
  | 1 =>
    let h := (g.zip dy).map fun p => mulV p.1 p.2
    let xh := st.centred.map fun x => mulV x st.r
    let a := divV (sumV h) n
    let b := divV (dotV xh h) n
    (xh.zip h).map fun p => mulV st.r (subV (subV p.2 a) (mulV p.1 b))
  | _ =>
    let d := dotV st.probs dy
    (st.probs.zip dy).map fun p => mulV p.1 (subV p.2 d)

/-- A per-column parameter row of `n` elements; +0 where none is named. -/
def State.paramRow (s : State) (f : Found) (v : Option TView) (n : Nat) : Except Fail (List FV) :=
  match v with
  | some v => (List.range n).mapM fun i => s.vecRead f.ctx v.t { c0 := i, c1 := v.row0, c2 := 0, c3 := 0 } false
  | none => .ok (List.replicate n (0, 0))

/-- A row-statistic instruction's effect; `dy` is the gradient operand of a backward one. -/
def State.rowStatistic (s : State) (f : Found) (p : Plan) (out : Nat) (dy beta : Nat) (backward : Bool) :
    Except Fail State := do
  let op := bitsOf (wCf f.words) 1 0
  let eps := leAt (p.arg (wLo f.words 6)) 0 4
  let x ← s.operand f.ctx p (wLo f.words 4) f.run.step f.run.iter
  let g ← s.vecOperand f p (if op < 2 then wHi f.words 4 else 0xFFFF)
  let b ← s.vecOperand f p (if op = 1 then beta else 0xFFFF)
  let dyv ← s.vecOperand f p dy
  match p.tensors[out]? with
  | none => .error windowViolation
  | some dt => do
    let d := dt.view f.run.iter
    let gs ← s.paramRow f g x.t.d0
    let bs ← s.paramRow f b x.t.d0
    let l ← x.rowList.mapM fun q => do
      let xs ← s.rowVals f x q.1 q.2.1 q.2.2 false
      let dys ← match dyv with
        | some v => s.rowVals f v q.1 q.2.1 q.2.2 false
        | none => .ok []
      let st := rowStat op eps xs
      let ys := if backward then rowBackward op st gs dys else rowForward op st gs bs
      return (ys.zipIdx).map fun y => (({ c0 := y.2, c1 := d.row0 + q.1, c2 := q.2.1, c3 := q.2.2 } : Coord), y.1)
    s.finishVec f d .fp32 ((p.unitCount f.words f.run.iter).getD 1) d.rowOf (l.flatMap id)

/-- ROWSTAT_FWD (R164, R165, R482). -/
def execRowstatFwd (r : InstrRef) (s : State) : Out :=
  .next (s.runIssued r (fun f => wOp f.words == 0x22) (fun f _ => [wHi f.words 5])
    fun f p s => s.rowStatistic f p (wHi f.words 5) 0xFFFF (wLo f.words 5) false)

/-- ROWSTAT_BWD (R164 to R166, R482). -/
def execRowstatBwd (r : InstrRef) (s : State) : Out :=
  .next (s.runIssued r (fun f => wOp f.words == 0x23) (fun f _ => [wHi f.words 5])
    fun f p s => s.rowStatistic f p (wHi f.words 5) (wLo f.words 5) 0xFFFF true)

end Sys2Proof.Machine
end

