-- ==== Sys2Proof/Machine/Optim.lean ====
section
/-! DEFINITION. Global norm clipping (R190 to R192, R276), conversions (R56, R57, R277) and the fused optimiser step
(R176 to R189, R193, R195, R277): CLIP_SUM, CLIP_FINISH, CONVERT and OPTIMISE. -/

namespace Sys2Proof.Machine

/-! ## CLIP_SUM (R191, R276) -/

/-- The element at a storage index of a tensor; none for a padding position (R149). -/
def coordAt (t : Tensor) (i : Nat) : Option Coord := if t.inside (storagePos t i) then some (storagePos t i) else none

/-- The sums of each level of pairs: sums 2i and 2i + 1 are added, an unpaired last one passes up (R191). -/
def pairSums : List Nat → List Nat
  | a :: b :: rest => add64 a b :: pairSums rest
  | l => l

/-- The pairwise combination of segment sums (R191); `fuel` bounds the levels. -/
def combinePairs : Nat → List Nat → Nat
  | 0, l => l.headD 0
  | fuel + 1, l => if l.length ≤ 1 then l.headD 0 else combinePairs fuel (pairSums l)

/-- One segment's sum of squares in the order of R86, padding adding +0 (R191). -/
def State.segmentSum (s : State) (f : Found) (t : Tensor) (n seg : Nat) : Except Fail FV := do
  let lo := 65536 * seg
  let gs ← (List.range (min 65536 (storageElems t - lo))).mapM fun i =>
    match coordAt t (lo + i) with
    | none => .ok (FV.of 0)
    | some k => do return divV (← s.vecRead f.ctx t k false) (FV.of (nat32 n))
  let wide := gs.map fun g => widen fp32 fp64 g.1
  return FV.join (dotOrder fp64 wide wide) (flagsOf gs)

/-- CLIP_SUM's effect: phases 1 to 3 of R191 for one shard. The flags of phase 1 go to the grains of the segments;
phases 2 and 3 run at the ped and raise none (log entry 22). -/
def State.clipSum (s : State) (f : Found) (p : Plan) : Except Fail State := do
  let arg := p.arg (wHi f.words 4)
  let g ← s.operand f.ctx p (wLo f.words 4) f.run.step f.run.iter
  let n ← s.rdNat f.ctx (leAt arg 8 6) 4
  let segs := ceilDiv (storageElems g.t) 65536
  let sums ← (List.range segs).mapM fun i => s.segmentSum f g.t n i
  let shard := combinePairs (segs + 1) (sums.map Prod.fst)
  let total ← if bitOf (wCf f.words) 0 then .ok shard
    else (s.rdNat f.ctx (leAt arg 0 6) 8).map fun old => add64 old shard
  let s ← s.wrNat f.ctx.id (leAt arg 0 6) 8 total
  return s.holdFlags f.ref (sums.zipIdx.map fun q => (s.grainOfUnit f.path segs q.2, q.1.2))

/-- CLIP_SUM (R191, R276). -/
def execClipSum (r : InstrRef) (s : State) : Out :=
  .next (s.runIssuedWith r (fun f => wOp f.words == 0x27)
    (fun f p s => s.undefRange r.ctx (leAt (p.arg (wHi f.words 4)) 0 6) 8) fun f p s => s.clipSum f p)

/-! ## CLIP_FINISH (R190 to R192) -/

/-- A clip record (R190). -/
structure ClipRec where
  maxNorm : Nat
  eps : Nat
  f : Nat
  enable : Bool
  nonfinite : Bool
  deriving DecidableEq, Repr

/-- Reads a clip record. -/
def State.readClip (s : State) (c : Ctx) (off : Nat) : Except Fail ClipRec := do
  let b ← s.rdBytes c off 32
  return { maxNorm := leAt b 0 8, eps := leAt b 8 8, f := leAt b 24 4, enable := bitOf (leAt b 28 4) 0,
           nonfinite := bitOf (leAt b 28 4) 1 }

/-- The clip factor (R191 phase 5): min(1, max_norm / (norm + eps)) as FP32; 1 when the sum of squares and so the norm
is 0 (R192). -/
def clipFactor (norm : Nat) (k : ClipRec) : Nat :=
  let f64 := (fp64.minimum (nat64 1) ((fp64.div .rne k.maxNorm (add64 norm k.eps)).1)).1
  if norm % 2 ^ 63 = 0 then 0x3F800000 else fp32.ofNum .rne (fp64.decode f64)

/-- CLIP_FINISH's effect (R191 phase 5, R192, R195). -/
def State.clipFinish (s : State) (f : Found) (p : Plan) : Except Fail State := do
  let arg := p.arg (wLo f.words 4)
  let off := leAt arg 8 6
  let k ← s.readClip f.ctx off
  if !k.enable then return s
  else do
    let sum ← s.rdNat f.ctx (leAt arg 0 6) 8
    let bad := (fp64.decode sum).nonfinite
    let norm := (fp64.sqrt .rne sum).1
    let factor := if bad then fp32.nanCode else clipFactor norm k
    let s ← s.wrNat f.ctx.id (off + 16) 8 norm
    let s ← s.wrNat f.ctx.id (off + 24) 4 factor
    let s ← s.wrNat f.ctx.id (off + 28) 4 (1 + placed (flag bad) 1)
    return s.mapCtx f.ctx.id fun c => { c with upd := { c.upd with norm, normNonfinite := bad } }

/-- CLIP_FINISH (R190 to R192, R276). -/
def execClipFinish (r : InstrRef) (s : State) : Out :=
  .next (s.runIssuedWith r (fun f => wOp f.words == 0x28)
    (fun f p s => s.undefRange r.ctx (leAt (p.arg (wLo f.words 4)) 8 6 + 16) 16) fun f p s => s.clipFinish f p)

/-! ## CONVERT (R56, R57, R277) -/

/-- CONVERT's effect: the source's scales are read by the conversion unit's reader (R100), and unusable ones are
counted for the destination (R47). -/
def State.convert (s : State) (f : Found) (p : Plan) : Except Fail State := do
  let c := f.ctx
  let x ← s.operand c p (wLo f.words 4) f.run.step f.run.iter
  match p.tensors[wHi f.words 4]? with
  | none => .error windowViolation
  | some dt => do
    let d := dt.view f.run.iter
    let n := tileCount d
    let grain (k : Coord) : Nat := s.grainOfUnit f.path n (tileOf d k)
    let l ← d.coords.mapM fun k => do
      let v ← s.readNum c x.t { k with c1 := x.row0 + (k.c1 - d.row0) } (f.cvReader (tileOf d k)) (grain k)
      return (k, v)
    let val (k : Coord) : Num := match l.find? (fun q => q.1 == k) with
      | some q => q.2
      | none => .fin false 0 0
    let bad ← s.badScales c { view := x, fmt := x.t.elem, reader := f.cvReader 0, toBf16 := false }
      (s.grainOfUnit f.path n 0) x.blocks
    let s := s.credit c.id dt f.run.step [0, 0, 0, 0, 0, 0, 0, 0, 0, 0, 0, bad]
    let sp : WriteSpec := { src := x.t.elem, rnd := Rnd.ofCode (bitsOf (wCf f.words) 1 0), nanm := bitOf (wCf f.words) 2,
                            step := f.run.step, run := f.run.step, mb := wMb f.words, grain }
    s.writeTensor c.id d sp keepAll val

/-- CONVERT (R56, R57, R277). -/
def execConvert (r : InstrRef) (s : State) : Out :=
  .next (s.runIssued r (fun f => wOp f.words == 0x30) (fun f _ => [wHi f.words 4]) fun f p s => s.convert f p)

/-! ## OPTIMISE (R176 to R189, R277) -/

/-- The scalars of the parameter block (R187). -/
structure UpdParams where
  lr : Nat
  b1 : Nat
  a1 : Nat
  b2 : Nat
  a2 : Nat
  eps : Nat
  wd : Nat
  c1 : Nat
  c2 : Nat

/-- Reads the parameter block (R187). -/
def State.readParams (s : State) (c : Ctx) (off : Nat) : Except Fail UpdParams := do
  let b ← s.rdBytes c off 36
  let g (i : Nat) : Nat := leAt b (4 * i) 4
  return { lr := g 0, b1 := g 1, a1 := g 2, b2 := g 3, a2 := g 4, eps := g 5, wd := g 6, c1 := g 7, c2 := g 8 }

/-- What one element's update came to (R188): the new master, first and second moment. -/
structure UpdOut where
  w : FV
  m : FV
  v : FV

/-- The update of one element (R188); `g` is the divided and clipped gradient. -/
def updateElement (adaptive : Bool) (q : UpdParams) (w m v g : FV) : UpdOut :=
  let k (x : Nat) : FV := FV.of x
  let m' := if adaptive then fmaV (k q.b1) m (mulV (k q.a1) g) else fmaV (k q.b1) m g
  let v' := if adaptive then fmaV (k q.b2) v (mulV (k q.a2) (mulV g g)) else v
  let u := if adaptive then divV (mulV m' (k q.c1)) (addV (fp32.sqrtF .rne (mulV v' (k q.c2))) (k q.eps)) else m'
  { w := fmaV (k (neg32 q.lr)) (fmaV (k q.wd) w u) w, m := m', v := v' }

/-- The operands of an OPTIMISE (R272, R277). -/
structure UpdOperands where
  high : Tensor
  low : Tensor
  g : Option Tensor
  m : Option Tensor
  v : Option Tensor
  fwd : Option Tensor
  bwd : Option Tensor
  arg : List Byte

/-- Looks the operands of an OPTIMISE up. -/
def Plan.updOperands (p : Plan) (ws : List Nat) : Except Fail UpdOperands :=
  match p.tensors[wLo ws 4]?, p.tensors[wHi ws 4]? with
  | some high, some low =>
    .ok { high, low, g := p.tensors[wLo ws 5]?, m := p.tensors[wHi ws 5]?, v := p.tensors[wLo ws 6]?, fwd := p.tensors[wHi ws 6]?,
          bwd := p.tensors[wLo ws 7]?, arg := p.arg (wHi ws 7) }
  | _, _ => .error windowViolation

/-- The value of a moment as FP32, decoded exactly from a narrow tensor (R188). -/
def State.momentValue (s : State) (f : Found) (t : Option Tensor) (k : Coord) (reader src : Nat) : Except Fail Nat :=
  match t with
  | some t => (s.readNum f.ctx t k reader src).map fun x => fp32.ofNum .rne x
  | none => .ok 0

/-- An element of the reduced gradient; a derive-only OPTIMISE may name none (R183, R277). -/
def State.readGradient (s : State) (c : Ctx) (g : Option Tensor) (k : Coord) : Except Fail Nat :=
  match g with
  | some t => s.readCode c t k
  | none => .error windowViolation

/-- Writes element codes one by one, for tensors written where they are updated only (R188, R189). -/
def State.writeCodes (s : State) (id : Nat) (t : Tensor) (l : List (Coord × Nat)) : Except Fail State :=
  l.foldlM (fun s p => s.wrNat id (t.base + storageIndex t p.1 * t.elem.width / 8) (t.elem.width / 8) p.2) s

/-- Writes FP32 or BF16 codes of a wide tensor where they are updated, and credits each infinity or NaN among them to the
record its descriptor names (R63, R124). -/
def State.writeWide (s : State) (id step : Nat) (t : Tensor) (l : List (Coord × Nat)) : Except Fail State := do
  let bad := (l.filter fun p => (t.elem.layout.decode p.2).nonfinite).length
  return (← s.writeCodes id t l).credit id t step [l.length, 0, 0, bad, 0, 0, 0, 0, 0, 0, 0, 0]

/-- Writes a moment tensor after an update (R188, R189): reference moments element by element, compact ones block by
block through the conversion unit with stochastic rounding, blocks without an updated element left alone. `grain` is the
grain that takes an element. -/
def State.writeMoment (s : State) (f : Found) (t : Option Tensor) (new : List (Coord × Nat)) (reader : Coord → Nat)
    (grain : Coord → Nat) : Except Fail State :=
  match t with
  | none => .ok s
  | some t =>
    if !t.narrow then s.writeWide f.ctx.id f.run.step t new
    else do
      let axis := t.scale.axis
      let blockOf (k : Coord) : Coord := k.set axis (k.along axis / 32 * 32)
      let touched := (new.map fun p => blockOf p.1).eraseDups
      let v := t.view 0
      let l ← (v.coords.filter fun k => touched.contains (blockOf k)).mapM fun k =>
        match new.find? (fun p => p.1 == k) with
        | some p => .ok (k, p.2)
        | none => do return (k, fp32.ofNum .rne (← s.readNum f.ctx t k (reader k) (grain k)))
      s.writeTensor f.ctx.id v { src := .fp32, rnd := .sr, nanm := false, step := f.run.step, run := f.run.step, mb := 0, grain }
        (fun k => touched.contains k) (valueAt l)

/-- The update proper (R188, R189, R192): answers the state and what the completion reports. -/
def State.updateWeights (s : State) (f : Found) (o : UpdOperands) (w : WvRec) : Except Fail (State × (Nat × Nat)) := do
  let c := f.ctx
  let n ← s.rdNat c (leAt o.arg 0 6) 4
  let clip ← s.readClip c (leAt o.arg 16 6)
  if n = 0 then return (s, (0, 1 + flag (clip.enable && clip.nonfinite) * 2))
  else if clip.enable && clip.nonfinite then return (s, (n, 2))
  else do
    let q ← s.readParams c (leAt o.arg 8 6)
    let hv := o.high.view f.run.iter
    let mask ← if w.masked then (List.range (panelCount hv)).mapM fun i => s.rdNat c (leAt o.arg 24 6 + 2 * i) 2
      else .ok (List.replicate (panelCount hv) 0xFFFF)
    let units := tileCount hv
    let grain (k : Coord) : Nat := s.grainOfUnit f.path units (tileOf hv k)
    let reader (k : Coord) : Nat := f.cvReader (tileOf hv k)
    let live := hv.coords.filter fun k => bitOf (mask.getD (panelOf hv k) 0) (tileInPanel k)
    let outs ← live.mapM fun k => do
      let src := grain k
      let g0 := divV (FV.of (← s.readGradient c o.g k)) (FV.of (nat32 n))
      let g := if clip.enable then mulV g0 (FV.of clip.f) else g0
      let master := (← s.readCode c o.high k) * 65536 + (← s.readCode c o.low k)
      let m ← s.momentValue f o.m k (reader k) src
      let v ← s.momentValue f o.v k (reader k) src
      return (k, src, g, updateElement (w.opt == 0) q (FV.of master) (FV.of m) (FV.of v) g)
    let good := outs.filter fun x => isFin32 x.2.2.1.1
    let s ← s.writeWide c.id f.run.step o.high (good.map fun x => (x.1, x.2.2.2.w.1 / 65536))
    let s ← s.writeCodes c.id o.low (good.map fun x => (x.1, x.2.2.2.w.1 % 65536))
    let s ← s.writeMoment f o.m (good.map fun x => (x.1, x.2.2.2.m.1)) reader grain
    let s ← if w.opt = 0 then s.writeMoment f o.v (good.map fun x => (x.1, x.2.2.2.v.1)) reader grain else .ok s
    let s := s.holdFlags f.ref (outs.map fun x =>
      (x.2.1, if isFin32 x.2.2.1.1 then x.2.2.2.w.2 ||| x.2.2.2.m.2 ||| x.2.2.2.v.2 else x.2.2.1.2))
    return (s, (n, if good.length < outs.length then 4 else 0))

/-- Derives one image of the set of step n + 1 into buffer `b` from the high half (R175, R178, R188). -/
def State.deriveImage (s : State) (f : Found) (high : Tensor) (img : Option Tensor) (b : Nat) : Except Fail State :=
  match img with
  | none => .ok s
  | some t => do
    let l ← (high.view 0).coords.mapM fun k => do return (k, bf16.decode (← s.readCode f.ctx high k))
    let val (k : Coord) : Num := match l.find? (fun q => q.1 == k) with
      | some q => q.2
      | none => .fin false 0 0
    let hv := high.view f.run.iter
    let grain (k : Coord) : Nat := s.grainOfUnit f.path (tileCount hv) (tileOf hv k)
    s.writeTensor f.ctx.id ((t.buffer b).view 0)
      { src := .bf16, rnd := .rne, nanm := false, step := f.run.step + 1, run := f.run.step, mb := 0, grain } keepAll val

/-- The buffer an OPTIMISE writes (R178, R184). -/
def WvRec.target (w : WvRec) (step : Nat) : Nat := if w.frozen then 0 else (step + 1) % 2

/-- Whether a frozen tensor's image set stands already (R184). -/
def WvRec.derived (w : WvRec) : Bool := w.frozen && w.valid.getD 0 false && w.tags.getD 0 0 == frozenTag

/-- Writes the valid bit of a buffer (R178). -/
def State.setValid (s : State) (id off b : Nat) (valid : Bool) : Except Fail State :=
  s.wrNat id (off + 30 + 8 * b) 1 (flag valid)

/-- What a derive-only OPTIMISE reports: it reads the count and updates nothing (R183, R189, R195; log entry 42). -/
def State.deriveReport (s : State) (f : Found) (o : UpdOperands) : Except Fail (Nat × Nat) := do
  let n ← s.rdNat f.ctx (leAt o.arg 0 6) 4
  return (n, flag (n == 0))

/-- OPTIMISE's effect and what its completion reports; one that finds a frozen set derived completes at once and reads
nothing (R176 to R189, R195). -/
def State.optimise (s : State) (f : Found) (p : Plan) : Except Fail (State × Option (Nat × Nat)) := do
  let o ← p.updOperands f.words
  let id := f.ctx.id
  let w ← s.readWv f.ctx o.high.version
  if w.derived then return (s, none)
  else do
    let b := w.target f.run.step
    let s ← s.setValid id o.high.version b false
    let (s, rep) ← if w.opt = 2 then (s.deriveReport f o).map fun q => (s, some q)
      else (s.updateWeights f o w).map fun q => (q.1, some q.2)
    let s ← s.deriveImage f o.high o.fwd b
    let s ← s.deriveImage f o.high o.bwd b
    let s ← s.wrNat id (o.high.version + 24 + 8 * b) 6 (if w.frozen then frozenTag else (f.run.step + 1) % 2 ^ 48)
    let s ← s.setValid id o.high.version b true
    let s ← s.wrNat id (o.high.version + 40) 6 f.run.step
    return (s, rep)

/-- What a failed OPTIMISE leaves: its buffer not valid, its outputs undefined (R98, R178). -/
def State.optimiseFailed (s : State) (f : Found) (p : Plan) : State :=
  match p.updOperands f.words with
  | .error _ => s
  | .ok o =>
    let id := f.ctx.id
    let b := match s.readWv f.ctx o.high.version with
      | .ok w => w.target f.run.step
      | .error _ => (f.run.step + 1) % 2
    let s := match s.setValid id o.high.version b false with
      | .ok s' => s'
      | .error _ => s
    let imgs := (o.fwd.toList ++ o.bwd.toList).map fun t => t.buffer b
    ([o.high, o.low] ++ o.m.toList ++ o.v.toList ++ imgs).foldl (fun s t => s.undefView id (t.view f.run.iter)) s

/-- OPTIMISE (R176 to R189, R277): it runs once its gate wait holds (R180). -/
def execOptimise (r : InstrRef) (s : State) : Out :=
  match s.found? r with
  | none => .next s
  | some f =>
    if wOp f.words = 0x32 ∧ f.p.phase = .issued ∧ f.ctx.placing then
      match f.ctx.plan, s.gateMissing f with
      | some p, .ok missing =>
        if missing = 0 then
          match s.optimise f p with
          | .ok (s', rep) => .next (s'.mapPlaced r fun q => { q with phase := .executed, upd := rep, gateDue := none })
          | .error e => .next ((s.optimiseFailed f p).fault r.ctx f.path e)
        else .next s
      | some p, .error e => .next ((s.optimiseFailed f p).fault r.ctx f.path e)
      | none, _ => .next s
    else .next s

end Sys2Proof.Machine
end

