-- ==== Sys2Proof/Machine/Links.lean ====
section
/-! DEFINITION. Rinan ports: bindings (R311), the link layer (R296 to R299), port states and partners (R300 to R308),
authentication and keys (R309, R310), and the delivery of port copies at the receiver (R312, R313). -/

namespace Sys2Proof.Machine

/-! ## Ports -/

/-- A port of the package. -/
def State.port? (s : State) (p : Nat) : Option Port := s.ports[p]?

/-- Replaces a port. -/
def State.mapPort (s : State) (p : Nat) (f : Port → Port) : State := { s with ports := modifyAt s.ports p f }

/-- The ped path of a port (R22). -/
def portPath (p : Nat) : Nat := 0x600 + p

/-- A port's event. -/
def State.raisePort (s : State) (p code detail : Nat) : State := s.raise code detail (portPath p) noCtx

/-- Buffer flits of each VC (R298). -/
def vcBuffer (vc : Nat) : Nat := if vc < 2 then 512 else 64

/-! ## Bindings (R311) -/

/-- The context and binding behind a binding number of a port. -/
def State.bindingAt (s : State) (p num : Nat) : Option (Ctx × Binding) :=
  s.ctxs.findSome? fun c => (c.bindings.find? fun b => b.port == p && b.number == num).map fun b => (c, b)

/-- The partner's number of the binding with the same job tag; none when the binding is not matched. -/
def State.partnerOf (s : State) (p num : Nat) : Option Nat :=
  match s.bindingAt p num, s.port? p with
  | some (_, b), some port => (port.partner.find? fun e => e.2 == b.tag).map Prod.fst
  | _, _ => none

/-- Whether a context receives messages (R313). -/
def Ctx.receiving (c : Ctx) : Bool := c.phase != .resetting && !(c.phase == .held && c.spr.posWait)

/-- A message discarded for a context that is not receiving (R313, R323). -/
def State.countDrop (s : State) (id : Nat) : State :=
  s.mapCtx id fun c => { c with syn := { c.syn with drop := satAdd 0xFFFFFFFF c.syn.drop 1 } }

/-- Puts a message on a port's queue. -/
def State.enqueue (s : State) (p vc bind : Nat) (bytes : List Byte) : State :=
  s.mapPort p fun port => { port with link := { port.link with
    waiting := port.link.waiting ++ [{ vc, bind, started := false, since := s.now, peer := none, bytes }] } }

/-- A binding table as a message of the management VC: number and job tag of each entry. The spec gives no layout (R311, log
entry 150). -/
def tableBytes (t : List (Nat × Nat)) : List Byte := t.flatMap fun e => leBytes 2 e.1 ++ leBytes 8 e.2

/-- The binding table of a port (R311). -/
def State.bindingTable (s : State) (p : Nat) : List (Nat × Nat) :=
  s.ctxs.flatMap fun c => (c.bindings.filter fun b => b.port == p).map fun b => (b.number, b.tag)

/-- A port that is UP sends its binding table (R311). -/
def State.sendTable (s : State) (p : Nat) : State :=
  if (s.port? p).any fun q => q.phase == .up then s.enqueue p 3 0 (tableBytes (s.bindingTable p)) else s

/-- The ports whose bindings change send their tables (R311). -/
def State.sendTables (s : State) (ports : List Nat) : State := ports.eraseDups.foldl (fun s p => s.sendTable p) s

/-! ## Going down (R302, R303, R313) -/

/-- A port copy ends without completing: it counts as retired and performs no signal (R313). -/
def State.copyEnded (s : State) (r : InstrRef) (p : Nat) : State :=
  (s.raise 0x3001 0 (portPath p) r.ctx).retire r

/-- The port a COPY_PORT names (R283). -/
def copyPortOf (ws : List Nat) : Nat := bitsOf (wordAt ws 5) 20 16

/-- Every port copy on a port that has not completed ends (R313). -/
def State.endCopies (s : State) (p : Nat) : State :=
  let refs := s.ctxs.flatMap fun c => c.allPlaced.filterMap fun rp =>
    let ws := c.words rp.2.stream rp.2.index
    if wOp ws = 0x44 ∧ copyPortOf ws = p ∧ (rp.2.phase = .issued ∨ rp.2.phase = .executed) then
      some { ctx := c.id, step := rp.1.step, stream := rp.2.stream, index := rp.2.index : InstrRef } else none
  refs.foldl (fun s r => s.copyEnded r p) s

/-- A link's start in the next epoch: nothing crosses but collective messages of which nothing was sent (R303,
R321). -/
def Link.restart (l : Link) : Link :=
  { Link.fresh with waiting := l.waiting.filter fun m => m.vc == 1 && !m.started }

/-- A port leaves service for the state `dst`: its epoch's flits, credits and partial messages are gone and its copies
end (R302, R303, R313). -/
def State.portLeave (s : State) (p : Nat) (dst : PortPhase) : State :=
  (s.mapPort p fun port => { port with
    phase := dst, lanes := 0, crypt := false, starved := [false, false, false, false], recal := none, widthChange := false, partner := [],
    link := port.link.restart }).endCopies p

/-- A port goes down into PROBE; LINK_DOWN is logged when it was UP (R301, R302). -/
def State.portDown (s : State) (p : Nat) : State :=
  match s.port? p with
  | none => s
  | some port =>
    let s := if port.phase = .up then s.raisePort p 0x3001 0 else s
    s.portLeave p .probe

/-- The hold time of a quarantine that begins now (R306). -/
def Port.hold (port : Port) (now : Nat) : Nat :=
  if port.quarantines ≠ 0 ∧ now ≤ port.quarUntil + 3600000000 then min (2 * port.quarHold) 86400 else port.cfg.quarS

/-- A port is quarantined (R304, R306). -/
def State.quarantine (s : State) (p : Nat) : State :=
  match s.port? p with
  | none => s
  | some port =>
    let s := (s.raisePort p 0x3103 0).raisePort p 0x3001 0
    let h := port.hold s.now
    (s.portLeave p .quarantine).mapPort p fun q =>
      { q with quarHold := h, quarUntil := s.now + h * 1000000, quarantines := satAdd 0xFF q.quarantines 1 }

/-! ## Sending (R298, R299) -/

/-- Whether a waiting message can be sent: a management message and one whose receiver is settled always, any other once its
binding is matched, unless its context is in a reset (R311, R313). -/
def State.sendable (s : State) (p : Nat) (m : OutMsg) : Bool :=
  m.vc == 3 || m.peer.isSome ||
  ((s.bindingAt p m.bind).any fun cb => cb.1.phase != .resetting) && (s.partnerOf p m.bind).isSome

/-- Drops what a context in a reset has waiting on a port, but for the completions it returns (R313). -/
def State.purge (s : State) (p : Nat) : State :=
  s.mapPort p fun port => { port with link := { port.link with waiting := port.link.waiting.filter fun m =>
    m.vc == 3 || m.peer.isSome || !((s.bindingAt p m.bind).any fun cb => cb.1.phase == .resetting) } }

/-- The message whose turn it is on a VC (R298): the one under way, else the first of the next binding in turn. -/
def State.nextMsg (s : State) (p vc : Nat) (l : Link) : Option OutMsg :=
  let ms := l.waiting.filter fun m => m.vc == vc && s.sendable p m
  match ms.find? fun m => m.started with
  | some m => some m
  | none => (nextTurn (ms.map fun m => m.bind + 1) (l.turns.getD vc 0)).bind fun b => ms.find? fun m => m.bind + 1 == b

/-- Whether a VC has a flit to send and a credit. -/
def State.vcReady (s : State) (p vc : Nat) (l : Link) : Bool :=
  (s.nextMsg p vc l).isSome && decide (0 < l.credits.getD vc 0)

/-- Whether management or control stays within its 1/16 share, or nothing else waits (R298). -/
def State.shareOk (s : State) (p vc : Nat) (l : Link) : Bool :=
  decide ((l.recent.filter (· == vc)).length < 256) ||
  !((List.range 4).any fun v => v != vc && s.vcReady p v l)

/-- The VC that sends next (R298). In AUTH only management is carried (R300). -/
def State.pickVc (s : State) (p : Nat) (port : Port) : Option Nat :=
  let l := port.link
  if s.vcReady p 3 l && s.shareOk p 3 l then some 3
  else if port.phase ≠ .up then none
  else if s.vcReady p 2 l && s.shareOk p 2 l then some 2
  else
    let pair := if l.dataTurn then [0, 1] else [1, 0]
    pair.find? fun v => s.vcReady p v l

/-- The type of a flit of a VC's message (R297). -/
def flitType (vc : Nat) (head : Bool) : Nat :=
  match vc with
  | 0 => if head then 2 else 3
  | 1 => if head then 4 else 5
  | 2 => 6
  | _ => 7

/-- Sequence numbers are modulo 2^24 (R297). -/
def seqMod (n : Nat) : Nat := n % 2 ^ 24

/-- The VC whose credits a flit returns next, and how many: at most 63 (R296). -/
def Link.giveBack (l : Link) : Nat × Nat :=
  match (List.range 4).find? fun v => decide (0 < l.owed.getD v 0) with
  | some v => (v, min 63 (l.owed.getD v 0))
  | none => (0, 0)

/-- The trailer's ack (R296): the last flit received in order. -/
def Link.ackNow (l : Link) : Nat := seqMod (l.rxSeq + 2 ^ 24 - 1)

/-- A flit of the link itself, which belongs to no VC (R297): idle, or a retry request with the expected sequence. It
carries no ciphertext (log entry 9). -/
def Port.linkFlit (port : Port) (type : Nat) (payload : List Byte) : Flit :=
  let g := port.link.giveBack
  { vc := 0, type, last := false, crypt := false, bind := 0, epoch := port.epoch % 256, seq := port.link.txSeq,
    fill := payload.length, reserved := 0, payload, ack := port.link.ackNow, creditVc := g.1, credits := g.2 }

/-- The link after a flit has been put on the wire (R298). -/
def Link.put (l : Link) (f : Flit) : Link :=
  { l with sent := [f], recent := (l.recent ++ [f.share]).drop (l.recent.length + 1 - 4095) }

/-- The link after a new flit has been put on the wire: it takes the next sequence number, returns its credits and is kept
until it is acknowledged (R298, R299). -/
def Link.putNew (l : Link) (f : Flit) (now : Nat) : Link :=
  let l := l.put f
  { l with
    txSeq := seqMod (l.txSeq + 1), replay := l.replay ++ [(f, 0)]
    owed := l.owed.set f.creditVc (l.owed.getD f.creditVc 0 - f.credits)
    lastAckAt := if l.replay.isEmpty then now else l.lastAckAt }

/-- The next flit of a message (R297, R310, R312). -/
def Port.dataFlit (port : Port) (vc peer : Nat) (m : OutMsg) : Flit :=
  let cap := if port.crypt then 224 else 240
  let chunk := m.bytes.take cap
  let g := port.link.giveBack
  let f : Flit :=
    { vc, type := flitType vc (!m.started), last := decide (m.bytes.length ≤ cap), crypt := port.crypt, bind := peer,
      epoch := port.epoch % 256, seq := port.link.txSeq, fill := chunk.length, reserved := 0, payload := chunk
      ack := port.link.ackNow, creditVc := g.1, credits := g.2 }
  if port.crypt then f.seal port.keyTx (linkNonce port.epoch port.keyGen port.keyFlits) else f

/-- A port after it has sent the next flit of a message. -/
def Port.sendData (port : Port) (f : Flit) (vc now : Nat) (m : OutMsg) : Port :=
  let l := port.link.putNew f now
  let rest : OutMsg := { m with started := true, bytes := m.bytes.drop (if port.crypt then 224 else 240) }
  { port with
    keyFlits := if port.crypt then port.keyFlits + 1 else port.keyFlits
    sentBytes := port.sentBytes + f.fill
    link := { l with
      credits := l.credits.set vc (l.credits.getD vc 0 - 1)
      dryAt := if l.credits.getD vc 0 ≤ 1 then l.dryAt.set vc now else l.dryAt
      waiting := if f.last then l.waiting.erase m else l.waiting.replace m rest
      dataTurn := if vc = 0 then false else if vc = 1 then true else l.dataTurn
      turns := l.turns.set vc (m.bind + 1) } }

/-- FLIT_SEND (R298, R299): flits to send again first, then a retry request, then the next flit by VC priority and credit,
else an idle flit. While the replay buffer holds 2,048 flits no new flit goes. -/
def execFlitSend (p : Nat) (s : State) : Out :=
  let s := s.purge p
  match s.port? p with
  | none => .next s
  | some port =>
    let l := port.link
    if (port.phase ≠ .up ∧ port.phase ≠ .auth) ∨ port.widthChange then .next s
    else match l.resend with
    | f :: fs => .next (s.mapPort p fun q => { q with link := { q.link.put { f with ack := l.ackNow } with resend := fs } })
    | [] =>
      if 2048 ≤ l.replay.length then .next s
      else if l.retryPending then
        let f := port.linkFlit 1 (leBytes 3 l.rxSeq)
        .next (s.mapPort p fun q => { q with link := { q.link.putNew f s.now with retryPending := false } })
      else match s.pickVc p port with
      | none => .next (s.mapPort p fun q => { q with link := q.link.putNew (port.linkFlit 0 []) s.now })
      | some vc =>
        match s.nextMsg p vc l with
        | none => .next s
        | some m =>
          let f := port.dataFlit vc (m.peer.getD ((s.partnerOf p m.bind).getD 0)) m
          .next (s.mapPort p fun q => q.sendData f vc s.now m)

/-! ## Sending again (R299, R302) -/

/-- The unacknowledged flits from a sequence number on. -/
def Link.fromSeq (l : Link) (seq : Nat) : List (Flit × Nat) := l.replay.dropWhile fun q => q.1.seq != seq

/-- The link once every unacknowledged flit from a sequence number on is to be sent again, each counted once more. -/
def Link.again (l : Link) (seq : Nat) : Link :=
  let tail := l.fromSeq seq
  { l with
    resend := tail.map Prod.fst
    replay := (l.replay.takeWhile fun x => x.1.seq != seq) ++ tail.map fun x => (x.1, x.2 + 1) }

/-- Whether sending again from a sequence number would send a flit again that has been sent again 8 times (R302). -/
def Link.spent (l : Link) (seq : Nat) : Bool := (l.fromSeq seq).any fun q => decide (8 ≤ q.2)

/-- The sender sends again from a sequence number: LANE_RETRY is logged and counted (R304, R322); a flit that has been
sent again 8 times takes the port down (R302). -/
def State.sendAgain (s : State) (p seq : Nat) : State :=
  match s.port? p with
  | none => s
  | some port =>
    if (port.phase ≠ .up ∧ port.phase ≠ .auth) ∨ (port.link.fromSeq seq).isEmpty then s
    else if port.link.spent seq then s.portDown p
    else
      let s := s.raisePort p 0x3101 0
      s.mapPort p fun q => { q with retries := satAdd 0xFFFF q.retries 1, link := q.link.again seq }

/-- Both sides re-stripe over other lanes: the port pauses and sends every unacknowledged flit again on the new width (R301,
R305); a flit that has been sent again 8 times takes the port down (R302). -/
def State.restripe (s : State) (p lanes : Nat) : State :=
  match s.port? p with
  | none => s
  | some port =>
    let seq := (port.link.replay.head?.map fun x => x.1.seq).getD 0
    if port.link.spent seq then s.portDown p
    else s.mapPort p fun q => { q with
      lanes, recal := q.recal.filter fun l => bitOf lanes l || !(bitOf q.lanes l), widthChange := true, link := q.link.again seq }

/-- RETRY_REQUEST (R299). -/
def execRetryRequest (p seq : Nat) (s : State) : Out := .next (s.sendAgain p (seqMod seq))

/-- ACK_TIMEOUT (R299): 20 µs without an ack while flits are unacknowledged. -/
def execAckTimeout (p : Nat) (s : State) : Out :=
  match s.port? p with
  | none => .next s
  | some port =>
    match port.link.replay with
    | [] => .next s
    | q :: _ =>
      let s := s.advanceTo (port.link.lastAckAt + 20)
      .next ((s.sendAgain p q.1.seq).mapPort p fun port => { port with link := { port.link with lastAckAt := s.now } })

/-! ## Receiving (R299, R303, R304) -/

/-- The trailer of an accepted flit: the ack frees the replay buffer, credits return (R296, R298). -/
def Port.trailer (port : Port) (f : Flit) (now : Nat) : Port :=
  let l := port.link
  let covered := l.replay.any fun q => q.1.seq == f.ack
  let replay := if covered then (l.replay.dropWhile fun q => q.1.seq != f.ack).drop 1 else l.replay
  let credits := l.credits.set f.creditVc (min (vcBuffer f.creditVc) (l.credits.getD f.creditVc 0 + f.credits))
  { port with
    starved := if f.credits = 0 then port.starved else port.starved.set f.creditVc false
    link := { l with
      replay, credits
      resend := l.resend.filter fun x => replay.any fun q => q.1.seq == x.seq
      lastAckAt := if covered then now else l.lastAckAt } }

/-- The VC each flit type must travel on (R297). -/
def typeVc (type : Nat) : Nat :=
  match type with
  | 2 => 0
  | 3 => 0
  | 4 => 1
  | 5 => 1
  | 6 => 2
  | 7 => 3
  | _ => 0

/-- Whether an accepted flit is malformed (R304). -/
def State.malformed (s : State) (p : Nat) (port : Port) (f : Flit) : Bool :=
  decide (8 ≤ f.type) || f.reserved != 0 || decide ((if f.crypt then 224 else 240) < f.fill) ||
  (if f.type < 2 then f.vc != 0 || f.bind != 0 || f.last
   else f.vc != typeVc f.type || (f.vc != 3 && (s.bindingAt p f.bind).isNone) ||
     decide (vcBuffer f.vc ≤ port.link.owed.getD f.vc 0)) ||
  (port.phase == .auth && decide (2 ≤ f.type) && f.vc != 3)

/-- A malformed flit is counted and logged; past the threshold within a second the port is quarantined (R304). -/
def State.countMalformed (s : State) (p : Nat) : State :=
  let s := s.raisePort p 0x3108 0
  let sec := s.now / 1000000
  let s := s.mapPort p fun q => { q with
    malformed := satAdd 0xFFFFFFFF q.malformed 1, malSec := sec
    malInterval := if q.malSec = sec then q.malInterval + 1 else 1 }
  if (s.port? p).any fun q => decide (q.cfg.malThr < q.malInterval) then s.quarantine p else s

/-- Whether a range of a context's window is mapped writable. -/
def State.writable (s : State) (c : Ctx) (off len : Nat) : Bool :=
  let pages := (List.range ((off % pageSize + len + pageSize - 1) / pageSize)).map fun i =>
    if i = 0 then off else off / pageSize * pageSize + i * pageSize
  pages.all fun a => match s.translate c a with
    | some (_, w) => w
    | none => false

/-- Replaces the message being received on a VC for a binding. -/
def Port.setRx (port : Port) (vc bind : Nat) (m : Option RxMsg) : Port :=
  let rest := port.link.messages.filter fun x => !(x.vc == vc && x.bind == bind)
  { port with link := { port.link with messages := rest ++ m.toList } }

/-- The receiver returns a completion on the control VC, to the binding that is the partner's now: a reset of the context or
the end of the binding here does not keep it from the sender (R312, R313). The spec gives no content for it. -/
def State.returnCompletion (s : State) (p num : Nat) : State :=
  let (k, s) := s.draw
  let bytes := (List.range (Config.freeNat k % 241)).map (Config.freeByte k)
  s.mapPort p fun port => { port with link := { port.link with
    waiting := port.link.waiting ++ [{ vc := 2, bind := num, started := false, since := s.now, peer := s.partnerOf p num, bytes }] } }

/-- Where a message head goes (R312, R313). -/
def State.openRx (s : State) (p num : Nat) (c : Ctx) (head : List Byte) : State :=
  let m : RxMsg := { vc := 0, bind := num, dest := leAt head 0 6, total := leAt head 6 4 * 64, done := 0, bad := false }
  if !c.receiving then (s.countDrop c.id).mapPort p fun q => q.setRx 0 num (some { m with bad := true })
  else if !(s.writable c m.dest m.total) then
    (s.fault c.id pkgPath { windowViolation with src := some (portPath p) }).mapPort p fun q =>
      q.setRx 0 num (some { m with bad := true })
  else s.mapPort p fun q => q.setRx 0 num (some m)

/-- The data bytes of a message are written as they arrive; the last flit signals the arrival counter (R312, R313). -/
def State.takeData (s : State) (p num : Nat) (data : List Byte) (last : Bool) : State :=
  match (s.port? p).bind fun q => q.link.messages.find? fun m => m.vc == 0 && m.bind == num, s.bindingAt p num with
  | some m, some (c, b) =>
    let gone := !m.bad && !c.receiving
    let s := if gone then s.countDrop c.id else s
    let m := { m with bad := m.bad || gone }
    let part := data.take (m.total - m.done)
    let (s, m) :=
      if m.bad then (s, m)
      else match s.wrBytes c.id (m.dest + m.done) part with
      | .ok s' => (s', { m with done := m.done + part.length })
      | .error e => (s.fault c.id pkgPath { e with src := some (portPath p) }, { m with bad := true })
    if last then
      let s := s.mapPort p fun q => q.setRx 0 num none
      let s := if m.bad then s else s.signal c.id pkgPath b.arrival 1
      s.returnCompletion p num
    else s.mapPort p fun q => q.setRx 0 num (some m)
  | _, _ => s

/-- Delivers an accepted flit. Control, management and collective flits carry what rows of their own say. -/
def State.deliver (s : State) (p : Nat) (f : Flit) (data : List Byte) : State :=
  match f.type with
  | 1 => s.sendAgain p (leAt data 0 3)
  | 2 =>
    match s.bindingAt p f.bind with
    | some (c, _) => (s.openRx p f.bind c data).takeData p f.bind (data.drop 48) f.last
    | none => s
  | 3 => s.takeData p f.bind data f.last
  | _ => s

/-- A failed check: the flit is discarded and a retry asked for (R299). -/
def State.askRetry (s : State) (p : Nat) : State :=
  s.mapPort p fun q => { q with link := { q.link with
    retryPending := q.link.retryPending || !q.link.retryAsked, retryAsked := true } }

/-- What a received flit carries once opened (R310): none when its tag fails or its encryption is not the link's. -/
def Port.opened (port : Port) (f : Flit) : Option (List Byte) :=
  if f.type < 2 then some (f.payload.take f.fill)
  else if f.crypt ≠ port.crypt then none
  else if f.crypt then (f.unseal port.keyRx (linkNonce port.epoch port.keyGen port.rxFlits)).map fun b => b.take f.fill
  else some (f.payload.take f.fill)

/-- A port once it has accepted a flit: the next sequence number is expected, and a flit of a VC holds a place of its buffer
(R298, R299). -/
def Port.accepted (port : Port) (f : Flit) (now : Nat) : Port :=
  let q := port.trailer f now
  let l : Link := { q.link with rxSeq := seqMod (q.link.rxSeq + 1), retryAsked := false, retryPending := false }
  if f.type < 2 then { q with link := l }
  else { q with
    receivedBytes := q.receivedBytes + f.fill
    rxFlits := if f.crypt then q.rxFlits + 1 else q.rxFlits
    link := { l with owed := l.owed.set f.vc (min (vcBuffer f.vc) (l.owed.getD f.vc 0 + 1)) } }

/-- A port takes a flit whose codewords and check are good (R299, R303, R304, R312). -/
def State.takeFlit (s : State) (p : Nat) (port : Port) (f : Flit) : State :=
  if f.epoch ≠ port.epoch % 256 then
    (s.raisePort p 0x3107 0).mapPort p fun q => { q with stale := satAdd 0xFFFFFFFF q.stale 1 }
  else if f.seq ≠ port.link.rxSeq then s.askRetry p
  else match port.opened f with
  | none => s.askRetry p
  | some data =>
    let bad := s.malformed p port f
    let s := s.mapPort p fun q => q.accepted f s.now
    if bad then s.countMalformed p else s.deliver p f data

/-- FLIT_RECEIVE (R296, R299, R303, R304, R312): `clean` tells that every codeword of the flit was correctable. -/
def execFlitReceive (p : Nat) (bytes : List Byte) (clean : Bool) (s : State) : Out :=
  match s.port? p with
  | none => .next s
  | some port =>
    if port.phase ≠ .up ∧ port.phase ≠ .auth then .next s
    else if clean && crcGood bytes then .next (s.takeFlit p port (Flit.ofBytes bytes))
    else .next (s.askRetry p)

/-! ## Down, lock loss, slow partners, failing lanes (R301, R302, R304, R305) -/

/-- LINK_DOWN (R302): an UP port heard no good flit for 8 µs. -/
def execLinkDown (p : Nat) (s : State) : Out :=
  match s.port? p with
  | some port => if port.phase = .up then .next (s.portDown p) else .next s
  | none => .next s

/-- LANE_LOCK_LOSS (R302): `lanes` has a bit for each data lane that lost lock; with 4 or more in service the port goes
down. -/
def execLaneLockLoss (p lanes : Nat) (s : State) : Out :=
  match s.port? p with
  | some port =>
    if port.phase = .up ∧ 4 ≤ laneCount (port.lanes &&& lanes) then .next (s.portDown p) else .next s
  | none => .next s

/-- Since when a VC with a flit waiting holds no credit (R304): since its last credit went and since its oldest message
waits. -/
def Link.drySince (l : Link) (vc : Nat) : Nat :=
  max (l.dryAt.getD vc 0) (((l.waiting.filter fun m => m.vc == vc).map OutMsg.since).min?.getD 0)

/-- PEER_SLOW (R304): logged once per episode of credit starvation of a VC, after RIN_TIMERS.starve_ms. -/
def execPeerSlow (p vc : Nat) (s : State) : Out :=
  match s.port? p with
  | some port =>
    if port.phase = .up ∧ port.starved.getD vc false = false ∧ port.link.credits.getD vc 0 = 0 ∧ vc < 4 ∧
        (s.nextMsg p vc port.link).isSome then
      let s := s.advanceTo (port.link.drySince vc + port.cfg.starveMs * 1000)
      .next ((s.raisePort p 0x3105 0).mapPort p fun q => { q with starved := q.starved.set vc true })
    else .next s
  | none => .next s

/-- Whether a lane exceeds its limits in an interval (R305). -/
def laneFails (e : LaneErrors) (cfg : PortCfg) : Bool :=
  decide (e.symbols < e.symbolErrors * 2 ^ cfg.serExp) || decide (cfg.ucw ≤ e.codewords)

/-- LANE_ERROR_INTERVAL (R305): failing lanes are retired and the port re-stripes; with fewer than 4 left it goes down
instead. The recalibration of a retired lane ends (R467). -/
def execLaneErrorInterval (p : Nat) (errs : List LaneErrors) (s : State) : Out :=
  match s.port? p with
  | none => .next s
  | some port =>
    let bad := (List.range 8).filter fun i => bitOf port.lanes i && (errs[i]?).any fun e => laneFails e port.cfg
    if port.phase ≠ .up ∨ bad.isEmpty then .next s
    else if laneCount port.lanes < 4 + bad.length then .next (s.portDown p)
    else
      let s := bad.foldl (fun s _ => s.raisePort p 0x3102 0) s
      let s := s.mapPort p fun q => { q with laneRet := satAdd 0xFF q.laneRet bad.length }
      .next (s.restripe p (bad.foldl (fun m i => m - 2 ^ i) port.lanes))

/-- LANE_WIDTH_CHANGE_DONE (R301, R305): where the partner retired lanes, this side re-stripes with it: its width narrows and
it sends again what is unacknowledged. -/
def execLaneWidthChangeDone (w : WidthChange) (s : State) : Out :=
  match s.port? w.port with
  | none => .next s
  | some port =>
    let lanes := port.lanes &&& w.kept
    if port.phase ≠ .up then .next s
    else if laneCount lanes < 4 then .next (s.portDown w.port)
    else
      let s := if lanes = port.lanes then s else s.restripe w.port lanes
      .next (s.mapPort w.port fun q => { q with widthChange := false })

/-! ## Probe, train, authenticate (R300, R301, R306, R307, R309, R310) -/

/-- PROBE_BURST (R300): a burst goes out; nothing else changes. -/
def execProbeBurst (_p : Nat) (s : State) : Out := .next s

/-- Whether a die is in a partition reset. -/
def State.dieResetting (s : State) (d : Nat) : Bool := s.resets.parts.any fun r => r.die == d

/-- PORT_BURST_HEARD (R300, R301): a port in PROBE answers and trains, unless its reference clock is lost (R458) or its die
is in a partition reset, whose ports are silent until it returns (R302, R379). -/
def execPortBurstHeard (p : Nat) (s : State) : Out :=
  if s.dieResetting (p / 8) then .next s
  else .next (s.mapPort p fun q => if q.phase = .probe ∧ !(s.power.sdsLost.getD (p / 8) false) then { q with phase := .train } else q)

/-- A port is retired for good (R8, R307). -/
def State.retirePort (s : State) (p : Nat) : State :=
  let bit : BitVec 32 := BitVec.ofNat 32 (2 ^ p)
  let s := s.portLeave p .retired
  let s := { s with caps := { s.caps with ports := s.caps.ports &&& ~~~bit }
                    flash := { s.flash with retiredPorts := s.flash.retiredPorts ||| bit } }
  (s.saveRetired.raisePort p 0x3106 0).notifyOps 0x3106 0

/-! ## The handshake (R309, R310) -/

/-- This side's hello (R309). -/
def State.ownHello (s : State) (port : Port) : List Byte :=
  helloBytes port.handshake.nonce port.epoch (p384Point (p384Public port.handshake.secret)) (s.caps.units.getLsbD 3) port.cfg.cryptReq

/-- The transcript of a handshake on port `p`: both hellos, both chains and both port numbers, the lower unit identity first
(R309). -/
def State.transcript (s : State) (p : Nat) (port : Port) (h : LinkHello) : List Byte :=
  let own := [s.ownHello port, Config.unitChain, leBytes 1 p]
  let peer := [h.bytes, h.chain, leBytes 1 h.port]
  ((if h.ownLower then own.zip peer else peer.zip own).flatMap fun x => x.1 ++ x.2)

/-- The link key of the direction in which the side of the lower or of the higher identity sends (R309): HKDF from the ECDH
shared secret with both nonces as salt. The info string is free (log entry 9). -/
def linkKey (port : Port) (h : LinkHello) (lower : Bool) : List Byte :=
  let salt := if h.ownLower then port.handshake.nonce ++ h.nonce else h.nonce ++ port.handshake.nonce
  hkdf384 salt (ecdhSecret port.handshake.secret h.ecdh) (Config.linkInfo lower) 32

/-- Steps 1 and 2 of R309: a fresh nonce and a fresh ECDH key, and the hello and the chain sent on the management VC. -/
def State.sendHello (s : State) (p : Nat) : State :=
  let (k, s) := s.draw
  let (k', s) := s.draw
  let s := s.mapPort p fun q => { q with handshake :=
    { nonce := (List.range 32).map (Config.freeByte k), secret := Config.freeNat k' % (p384N - 1) + 1, sent := [] } }
  match s.port? p with
  | none => s
  | some port =>
    let msgs := [s.ownHello port, Config.unitChain]
    let s := s.mapPort p fun q => { q with handshake := { q.handshake with sent := msgs } }
    msgs.foldl (fun s m => s.enqueue p 3 0 m) s

/-- Step 3 of R309: the signature over the transcript, sent on the management VC. -/
def State.sendProof (s : State) (p : Nat) (port : Port) (h : LinkHello) : State :=
  let (sig, s) := s.unitSign (s.transcript p port h)
  (s.mapPort p fun q => { q with handshake := { q.handshake with sent := q.handshake.sent ++ [sig] } }).enqueue p 3 0 sig

/-- Step 5 of R309: the link keys, with their flit counts at 0. -/
def Port.takeKeys (port : Port) (h : LinkHello) (now : Nat) : Port :=
  { port with
    keyTx := linkKey port h h.ownLower, keyRx := linkKey port h (!h.ownLower), keyFlits := 0, rxFlits := 0, keyAt := now }

/-- A port's loopback self-test: one failed in two successive trainings retires the port (R307). -/
def State.selfTested (s : State) (p : Nat) (passed : Bool) : State :=
  match s.port? p with
  | none => s
  | some port =>
    if passed then s.mapPort p fun q => { q with selfTestFails := 0 }
    else if 1 ≤ port.selfTestFails then s.retirePort p
    else s.mapPort p fun q => { q with selfTestFails := 1 }

/-- PORT_TRAIN_DONE (R301, R307, R467): `lanes` has a bit for each data lane that passed, and bit 8 for the calibration
lane. -/
def execPortTrainDone (p : Nat) (selfTest : Bool) (lanes : Nat) (s : State) : Out :=
  match s.port? p with
  | none => .next s
  | some port =>
    if port.phase ≠ .train then .next s
    else if !selfTest then .next ((s.mapPort p fun q => { q with phase := .probe }).selfTested p false)
    else if 4 ≤ laneCount lanes then
      .next ((s.mapPort p fun q => { q with
        phase := .auth, selfTestFails := 0, lanes := lanes % 256, calOk := bitOf lanes 8 }).sendHello p)
    else .next (s.mapPort p fun q => { q with phase := .probe, selfTestFails := 0 })

/-- Why a handshake fails (R309, R310); none when it succeeds. Without an identity every one fails (R400), as without
leave to sign (R399); without an installation trust anchor no chain verifies. -/
def State.authFailure (s : State) (p : Nat) (port : Port) (h : LinkHello) : Option Nat :=
  let on := port.cfg.cryptReq || h.cryptReq
  if !s.maySign then some 2
  else if !h.chainOk || (s.applying 3).isNone || decide (8192 < h.chain.length) then some 1
  else if !(ecdsaVerify h.unitKey (sha384 (s.transcript p port h)) h.sig) then some 2
  else if on && !(s.caps.units.getLsbD 3 && h.hasCrypto) then some 3
  else none

/-- A failed handshake (R301, R310); a port that was UP goes down. -/
def State.authFailed (s : State) (p detail : Nat) : State := (s.raisePort p 0x3104 detail).portDown p

/-- The link-up of a port (R303, R309 to R311): keys, epoch, the partner's digest and table, and this side's table sent. -/
def State.linkUp (s : State) (p : Nat) (h : LinkHello) : State :=
  let s := s.mapPort p fun q => { q.takeKeys h s.now with
    phase := .up, epoch := (max q.epoch h.epoch + 1) % 2 ^ 32, crypt := q.cfg.cryptReq || h.cryptReq
    fabric := h.fabric, peer := h.digest, partner := h.table, keyGen := 0
    link := q.link.restart }
  (s.raisePort p 0x3002 0).sendTable p

/-- PORT_AUTH_DONE (R303, R309 to R311). -/
def execPortAuthDone (p : Nat) (h : LinkHello) (s : State) : Out :=
  match s.port? p with
  | none => .next s
  | some port =>
    if port.phase ≠ .auth then .next s
    else
      let s := if s.maySign then s.sendProof p port h else s
      match s.authFailure p port h with
      | some d => .next (s.authFailed p d)
      | none => .next (s.linkUp p h)

/-- PEER_AUTH_TIMEOUT (R310). -/
def execPeerAuthTimeout (p : Nat) (s : State) : Out :=
  match s.port? p with
  | some port => if port.phase = .auth then .next (s.authFailed p 4) else .next s
  | none => .next s

/-- QUARANTINE_EXPIRY (R301, R306). -/
def execQuarantineExpiry (p : Nat) (s : State) : Out :=
  match s.port? p with
  | some port =>
    if port.phase = .quarantine then
      .next ((s.advanceTo port.quarUntil).mapPort p fun q => { q with phase := .probe })
    else .next s
  | none => .next s

/-- LINK_KEY_UPDATE (R309, R310): after 2^40 flits or 24 h on one key, steps 1 to 5 run again on the management VC. The port
stays up unless a verification fails. -/
def execLinkKeyUpdate (x : PortHello) (s : State) : Out :=
  match s.port? x.port with
  | some port =>
    if port.phase = .up ∧ port.crypt then
      let s := if 2 ^ 40 ≤ port.keyFlits ∨ 2 ^ 40 ≤ port.rxFlits then s else s.advanceTo (port.keyAt + 86400000000)
      let s := s.sendHello x.port
      match s.port? x.port with
      | none => .next s
      | some port =>
        let s := if s.maySign then s.sendProof x.port port x.hello else s
        match s.authFailure x.port port x.hello with
        | some d => .next (s.authFailed x.port d)
        | none => .next (s.mapPort x.port fun q => { q.takeKeys x.hello s.now with keyGen := (q.keyGen + 1) % 2 ^ 16 })
    else .next s
  | none => .next s

/-- BINDING_TABLE_EXCHANGE (R311). -/
def execBindingTableExchange (p : Nat) (table : List (Nat × Nat)) (s : State) : Out :=
  .next (s.mapPort p fun q => if q.phase = .up then { q with partner := table } else q)

end Sys2Proof.Machine
end

