-- ==== Sys2Proof/Machine/Copy.lean ====
section
/-! DEFINITION. Copies (R283 to R285) and port copies at their sender (R312, R313). -/

namespace Sys2Proof.Machine

/-! ## COPY (R283, R285) -/

/-- The source offset of a copy. -/
def copySrc (ws : List Nat) : Nat := wordAt ws 4 + wLo ws 5 * 2 ^ 32

/-- The destination offset of a COPY. -/
def copyDst (ws : List Nat) : Nat := wHi ws 5 + wordAt ws 6 * 2 ^ 16

/-- The length of a COPY in bytes. -/
def copyLen (ws : List Nat) : Nat := wordAt ws 7 * 64

/-- Whether a ped path names an island (R22). -/
def pathKnown (p : Nat) : Bool :=
  let i := p % 256
  match p / 256 with
  | 5 => decide (i < 64)
  | 6 => decide (i < 32)
  | 7 => decide (i < 12)
  | 8 => if i / 64 = 0 then decide (i % 64 < 4) else decide (i % 64 < 2)
  | 9 => decide (i % 64 < 2)
  | 10 => decide (i < 2)
  | l => decide (l ≤ 4) && i % 4 ^ l == 0

/-- A word of a context's management window (R255): the capability block, a register block, or a counter; none where
nothing lies. Blocks out of service, offsets without a register and counters not reserved read as 0. -/
def State.mgmtWord (s : State) (c : Ctx) (off : Nat) : Option Nat :=
  let a := off - 0xFF00000000
  if a < 0x1000 then some ((s.capBlock a).getD 0)
  else if 0x1000000 ≤ a && a < 0x2000000 then
    let p := (a - 0x1000000) / 4096
    if pathKnown p then
      some (if s.blockServed p then (s.pathBlock c p (a % 4096)).getD 0 else 0)
    else none
  else if 0x2000000 ≤ a && a < 0x2080000 then
    let i := (a - 0x2000000) / 4
    some (if c.hasCounter i then c.counter i else 0)
  else none

/-- The source bytes of a copy, the management window included (R235, R255). -/
def State.copyBytes (s : State) (c : Ctx) (off n : Nat) : Except Fail (List Byte) :=
  if 0xFF00000000 ≤ off then
    match (List.range (n / 4)).mapM fun i => s.mgmtWord c (off + 4 * i) with
    | some ws => .ok (ws.flatMap (leBytes 4))
    | none => .error windowViolation
  else s.rdBytes c off n

/-- The bytes of a COPY moved, all or none (R285). -/
def State.moveCopy (s : State) (c : Ctx) (ws : List Nat) : Except Fail State := do
  s.wrBytes c.id (copyDst ws) (← s.copyBytes c (copySrc ws) (copyLen ws))

/-- A copy ends on its engine: the bytes it moved are counted and the engine has retired an operation (R371, R448). -/
def State.copyRetires (s : State) (ws : List Nat) (n : Nat) : State :=
  (s.engineMoved (wCf ws % 64) n).engineRetires (.copy (wCf ws % 64))

/-- COPY (R285): the engine moves the bytes; a failed copy leaves its destination undefined. -/
def execCopy (r : InstrRef) (s : State) : Out :=
  .next (s.runIssuedWith r (fun f => wOp f.words == 0x40)
    (fun f _ s => s.undefRange r.ctx (copyDst f.words) (copyLen f.words)) fun f _ s => s.moveCopy f.ctx f.words)

/-- COPY_COMPLETE (R285): the whole destination is written, and the copy signals and retires. -/
def execCopyComplete (r : InstrRef) (s : State) : Out :=
  match s.found? r with
  | some f =>
    if wOp f.words = 0x40 ∧ f.p.phase = .executed then
      .next ((s.copyRetires f.words (copyLen f.words)).completeInstr r f)
    else .next s
  | none => .next s

/-! ## COPY_PORT (R283, R312, R313) -/

/-- The destination of a COPY_PORT in the peer context's window. -/
def portDst (ws : List Nat) : Nat := wordAt ws 6 + wLo ws 7 * 2 ^ 32

/-- The length of a COPY_PORT in lines. -/
def portLines (ws : List Nat) : Nat := wHi ws 7

/-- The context's lowest-numbered binding on a port (R312). -/
def Ctx.lowestBinding (c : Ctx) (p : Nat) : Option Binding :=
  (c.bindings.filter fun b => b.port == p).foldl (fun acc b =>
    match acc with
    | none => some b
    | some a => if b.number < a.number then some b else some a) none

/-- The message of a port copy: its descriptor, then its data (R312). -/
def copyMessage (ws : List Nat) (step : Nat) (data : List Byte) : List Byte :=
  leBytes 6 (portDst ws) ++ leBytes 4 (portLines ws) ++ leBytes 6 step ++ List.replicate 32 0 ++ data

/-- COPY_PORT (R312, R313): it is sent as one message; on a port that is down it ends at once, and it waits while its
binding is not matched. -/
def execCopyPort (r : InstrRef) (s : State) : Out :=
  match s.found? r with
  | none => .next s
  | some f =>
    let p := copyPortOf f.words
    if wOp f.words ≠ 0x44 ∨ f.p.phase ≠ .issued ∨ s.engineStopped f then .next s
    else if !((s.port? p).any fun q => q.phase == .up) then .next (s.copyEnded r p)
    else match f.ctx.lowestBinding p with
    | none => .next s
    | some b =>
      if (s.partnerOf p b.number).isNone then .next s
      else match s.copyBytes f.ctx (copySrc f.words) (portLines f.words * 64) with
      | .error e => .next (s.fault r.ctx f.path e)
      | .ok data => .next ((s.enqueue p 0 b.number (copyMessage f.words r.step data)).setPhase r .executed)

/-- PORT_COPY_COMPLETION (R312, R313). -/
def execPortCopyCompletion (r : InstrRef) (how : CopyEnd) (s : State) : Out :=
  match s.found? r with
  | none => .next s
  | some f =>
    if wOp f.words = 0x44 ∧ f.p.phase = .executed then
      match how with
      | .written => .next ((s.copyRetires f.words (portLines f.words * 64)).completeInstr r f)
      | .notReceiving => .next (s.copyEnded r (copyPortOf f.words))
      | .violation => .next (s.fault r.ctx f.path windowViolation)
    else .next s

end Sys2Proof.Machine
end

