-- ==== Sys2Proof/Machine/Collect.lean ====
section
/-! DEFINITION. Collective operations (R314 to R321, R323): ALL_REDUCE, REDUCE_SCATTER, ALL_GATHER, RING_PASS,
COLL_MESSAGE_RECEIVE and COLL_TIMEOUT. -/

namespace Sys2Proof.Machine

/-! ## Groups (R315, R316, R319) -/

/-- A member of a group: port, binding number and micro-batch group. -/
structure Member where
  port : Nat
  bind : Nat
  group : Nat
  deriving DecidableEq, Repr

/-- A group argument block with its member table. -/
structure Group where
  size : Nat
  rank : Nat
  budget : Nat
  id : Nat
  serial : Nat
  count : Nat
  mask : Nat
  expect : Nat
  reservedOk : Bool
  members : List Member
  deriving DecidableEq, Repr

/-- No offset named. -/
def noOffset : Nat := 0xFFFFFFFFFFFF

/-- The group argument block of an index (R315). -/
def Plan.group (p : Plan) (i : Nat) : Group :=
  let b := p.arg i
  let n := leAt b 0 2
  let entry (r : Nat) : Nat := leAt (p.arg (i + 1 + r / 16)) (4 * (r % 16)) 4
  { size := n, rank := leAt b 2 1, budget := leAt b 3 1, id := leAt b 4 4, serial := leAt b 8 2, count := leAt b 16 6,
    mask := leAt b 24 6, expect := leAt b 32 32
    reservedOk := leAt b 10 6 == 0 && leAt b 22 2 == 0 && leAt b 30 2 == 0 &&
      (List.range n).all fun r => bitsOf (entry r) 31 25 == 0
    members := (List.range n).map fun r =>
      { port := bitsOf (entry r) 4 0, bind := bitsOf (entry r) 16 5, group := bitsOf (entry r) 24 17 } }

/-- A member's micro-batch group. -/
def Group.groupOf (g : Group) (r : Nat) : Nat := ((g.members[r]?).map Member.group).getD 0

/-- The effective mask of a collective of a step (R319). -/
def Group.effective (g : Group) (run : StepRun) : Nat := g.expect &&& run.mask.toNat

/-- The ranks present under a mask (R316). -/
def Group.present (g : Group) (eff : Nat) : List Nat := (List.range g.size).filter fun r => eff.testBit (g.groupOf r)

/-- The mask tag (R315). -/
def maskTag (eff : Nat) : Word := BitVec.ofNat 32 (crc32c (leBytes 32 eff))

/-- The number of distinct micro-batch groups among ranks (R318). -/
def Group.groups (g : Group) (ranks : List Nat) : Nat := (ranks.map g.groupOf).eraseDups.length

/-- What a collective instruction does. -/
inductive CollMode where
  | reduceAll
  | scatter
  | sieve
  | gather
  | ring
  deriving DecidableEq, Repr

/-- The mode of a collective's words (R314, R318). -/
def collMode (ws : List Nat) : CollMode :=
  match wOp ws with
  | 0x60 => if bitOf (wCf ws) 2 then .sieve else .reduceAll
  | 0x61 => .scatter
  | 0x62 => .gather
  | _ => .ring

/-- Everything a collective of a placed instruction works with. -/
structure CollEnv where
  f : Found
  plan : Plan
  g : Group
  mode : CollMode
  src : Tensor
  dst : Tensor
  eff : Nat
  present : List Nat

/-- The environment of a collective instruction. -/
def Found.collEnv (f : Found) : Option CollEnv :=
  match f.ctx.plan with
  | none => none
  | some plan =>
    match plan.tensors[wLo f.words 4]?, plan.tensors[wHi f.words 4]? with
    | some src, some dst =>
      let g := plan.group (wLo f.words 5)
      let eff := g.effective f.run
      let mode := collMode f.words
      some { f, plan, g, mode, src, dst, eff,
             present := if mode = .ring then List.range g.size else g.present eff }
    | _, _ => none

/-- Runs of 32 storage elements of S (R316). -/
def CollEnv.runs (e : CollEnv) : Nat := ceilDiv (storageElems e.src) 32

/-- The runs a present rank owns (R316). -/
def CollEnv.owned (e : CollEnv) (r : Nat) : Nat × Nat :=
  let j := e.present.idxOf r
  let n := max 1 e.present.length
  if e.present.contains r then (j * e.runs / n, (j + 1) * e.runs / n) else (0, 0)

/-- Bytes of a run slot (R316). -/
def slotBytes : ElemFmt → Nat
  | .fp32 => 128
  | .fp64 => 256
  | _ => 64

/-- Words combined as unsigned counts (cf 0b01), or the maximum (cf 0b10). -/
def CollEnv.isInt (e : CollEnv) : Bool := bitsOf (wCf e.f.words) 1 0 == 1

/-- The source of a collective unit's events: its die's ped-3 (R318); for a level-4 stream the lowest die in service
(log entry 23). -/
def State.collSource (s : State) (path : Nat) : Nat :=
  if path / 256 = 3 then path else 0x300 + 64 * (((List.range 4).find? s.dieOk).getD 0)

/-! ## Reading S (R316, R318) -/

/-- One run of S in staging slot form: an E5M2 slot holds 32 codes and the run's E8M0 entry. -/
def State.runSlot (s : State) (e : CollEnv) (run : Nat) : Except Fail (List Byte) :=
  let t := e.src
  let c := e.f.ctx
  if t.elem = .e5m2 then do
    let codes ← s.rdBytes c (t.base + 32 * run) 32
    let k := storagePos t (32 * run)
    let entry ← if t.inside k then s.readScale c t k 0 (s.collSource e.f.path) else .ok (.e8m0 127)
    let b := match entry with
      | .e8m0 v => v
      | _ => 127
    return codes ++ leBytes 1 b ++ List.replicate 31 0
  else s.rdBytes c (t.base + run * 4 * t.elem.width) (4 * t.elem.width)

/-- Runs `lo` to `hi` − 1 of S in staging slot form. -/
def State.runSlots (s : State) (e : CollEnv) (lo hi : Nat) : Except Fail (List Byte) := do
  return ((← (List.range (hi - lo)).mapM fun i => s.runSlot e (lo + i))).flatMap id

/-! ## Combining (R317, R318) -/

/-- The elements of a contribution, decoded exactly to D's format; unsigned words stay as they are (R186, R318). -/
def CollEnv.decode (e : CollEnv) (data : List Byte) : List Nat :=
  let sb := slotBytes e.src.elem
  let w := e.src.elem.width / 8
  (List.range (data.length / sb)).flatMap fun i =>
    let slot := sliceBytes data (i * sb) sb
    (List.range 32).map fun j =>
      let raw := leAt slot (j * w) w
      if e.isInt then raw
      else if e.src.elem = .e5m2 then fp32.ofNum .rne (decodeElem .e5m2 (.e8m0 (leAt slot 32 1)) raw)
      else e.dst.elem.layout.ofNum .rne (e.src.elem.layout.decode raw)

/-- combine (R317, R318). -/
def CollEnv.combine (e : CollEnv) (a b : Nat) : Nat :=
  match bitsOf (wCf e.f.words) 1 0 with
  | 1 => satAdd 0xFFFFFFFF a b
  | 2 => (e.dst.elem.layout.maximum a b).1
  | _ => (e.dst.elem.layout.add .rne a b).1

/-- One level of the tree of rank positions (R317). -/
def treeLevel (f : Nat → Nat → Nat) : List (Option (List Nat)) → List (Option (List Nat))
  | a :: b :: rest =>
    (match a, b with
     | some x, some y => some ((x.zip y).map fun p => f p.1 p.2)
     | some x, none => some x
     | none, y => y) :: treeLevel f rest
  | l => l

/-- The tree of R317; `fuel` bounds its levels. -/
def treeCombine (f : Nat → Nat → Nat) : Nat → List (Option (List Nat)) → List Nat
  | 0, l => (l.headD none).getD []
  | fuel + 1, l => if l.length ≤ 1 then (l.headD none).getD [] else treeCombine f fuel (treeLevel f l)

/-! ## The record of a collective in progress -/

/-- The collective of a placed instruction. -/
def Found.coll? (f : Found) : Option Coll := f.run.colls.find? fun k => k.stream == f.p.stream && k.index == f.p.index

/-- Replaces or removes the collective of a placed instruction. -/
def State.setColl (s : State) (r : InstrRef) (k : Option Coll) : State :=
  s.mapCtx r.ctx fun c => c.mapRun r.step fun run =>
    { run with colls := (run.colls.filter fun x => !(x.stream == r.stream && x.index == r.index)) ++ k.toList }

/-- Changes the collective of a placed instruction. -/
def State.mapColl (s : State) (r : InstrRef) (f : Coll → Coll) : State :=
  s.mapCtx r.ctx fun c => c.mapRun r.step fun run =>
    { run with colls := run.colls.map fun x => if x.stream = r.stream ∧ x.index = r.index then f x else x }

/-- Queues a message to a member. The spec gives no layout of it: a head of free bytes goes before the data (log
entry 24). -/
def State.sendColl (s : State) (e : CollEnv) (rank : Nat) (data : List Byte) : State :=
  match e.g.members[rank]? with
  | none => s
  | some m =>
    let (k, s) := s.draw
    s.enqueue m.port 1 m.bind ((List.range 240).map (Config.freeByte k) ++ data)

/-- Queues a message to every other present member. -/
def State.sendOthers (s : State) (e : CollEnv) (data : List Byte) : State :=
  (e.present.filter (· != e.g.rank)).foldl (fun s r => s.sendColl e r data) s

/-- Writes a number where the group block names an offset for it. -/
def State.writeOpt (s : State) (id off n v : Nat) : Except Fail State :=
  if off = noOffset then .ok s else s.wrNat id off n v

/-- The collective completes: count word and result mask are written, it retires and signals (R318, R319). -/
def State.collFinish (s : State) (e : CollEnv) (r : InstrRef) (zero : Bool) : Except Fail State := do
  let own := e.owned e.g.rank
  let none_ := zero || ((e.mode == .reduceAll || e.mode == .scatter) && own.1 == own.2)
  let counts := zero || e.mode == .reduceAll || e.mode == .scatter || e.mode == .sieve
  let s ← if counts then s.writeOpt r.ctx e.g.count 4 (if none_ then 0 else e.g.groups e.present) else .ok s
  let s ← if counts then s.writeOpt r.ctx e.g.mask 32 (if none_ then 0 else e.eff) else .ok s
  return (s.setColl r none).completeInstr r e.f

/-! ## Writing D (R318, R320) -/

/-- Writes combined runs from run `lo` of S into D, element by element. -/
def State.writeRuns (s : State) (e : CollEnv) (lo : Nat) (vals : List Nat) : Except Fail State :=
  let l := (vals.zipIdx.map fun p => (storagePos e.src (32 * lo + p.2), p.1)).filter fun p =>
    decide (p.1.c2 < e.dst.d2) && decide (p.1.c3 < e.dst.d3)
  s.writeCodes e.f.ctx.id e.dst l

/-- The bytes of combined runs, as a result message carries them. -/
def CollEnv.pack (e : CollEnv) (vals : List Nat) : List Byte := vals.flatMap fun v => leBytes (e.dst.elem.width / 8) v

/-- The values of a result message. -/
def CollEnv.unpack (e : CollEnv) (data : List Byte) : List Nat :=
  let w := e.dst.elem.width / 8
  (List.range (data.length / w)).map fun i => leAt data (w * i) w

/-- A scale line with its tag raised (R320). -/
def raiseTag (line : List Byte) (by_ : Nat) : List Byte :=
  let h := leAt line 0 4
  leBytes 4 ((h / 256 + by_) % 2 ^ 24 * 256 + h % 256) ++ line.drop 4

/-- Writes S's bytes into slot `r` of D (R320). -/
def State.writeSlot (s : State) (e : CollEnv) (r : Nat) (elems scales : List Byte) : Except Fail State := do
  let s ← s.wrBytes e.f.ctx.id (e.dst.base + r * storageBytes e.src) elems
  let blocks := scaleRows e.src * blocksPerRow e.src
  let lines := (List.range (scales.length / 64)).flatMap fun i => raiseTag (sliceBytes scales (64 * i) 64) (r * blocks)
  s.wrBytes e.f.ctx.id (e.dst.scale.base + r * scaleBytes e.src) lines

/-! ## Progress -/

/-- Combines the owner's runs once every present contribution is there (R317, R318). -/
def State.combineOwned (s : State) (e : CollEnv) (r : InstrRef) (k : Coll) : Except Fail State := do
  let own := e.owned e.g.rank
  if k.results.contains e.g.rank || own.1 == own.2 || !(e.present.all fun i => k.contribs.any fun c => c.1 == i) then return s
  else
    let decoded := (List.range e.g.size).map fun i =>
      if e.present.contains i then some (e.decode (getKey [] k.contribs i)) else none
    let bad := if e.isInt then 0
      else sumNat (decoded.map fun o => ((o.getD []).filter fun x => (e.dst.elem.layout.decode x).nonfinite).length)
    let s := if bad = 0 then s
      else s.mapCtx r.ctx fun c => { c with syn := { c.syn with nonfin := satAdd 0xFFFFFFFF c.syn.nonfin bad } }
    let s := if bad = 0 ∨ k.nonfinite then s
      else (s.raise 0x1001 0 (s.collSource e.f.path) r.ctx).mapColl r fun k => { k with nonfinite := true }
    let vals := treeCombine e.combine (e.g.size + 1) decoded
    let s ← s.writeRuns e own.1 vals
    let s := s.mapColl r fun k => { k with results := k.results ++ [e.g.rank] }
    return if e.mode = .reduceAll then s.sendOthers e (e.pack vals) else s

/-- Whether a collective is complete (R318, R320). -/
def CollEnv.complete (e : CollEnv) (k : Coll) : Bool :=
  let full (r : Nat) : Bool := (e.owned r).1 != (e.owned r).2
  match e.mode with
  | .reduceAll => (e.present.filter full).all k.results.contains
  | .scatter => !(full e.g.rank) || k.results.contains e.g.rank
  | .sieve => e.present.all fun r => k.counts.any fun c => c.1 == r
  | .gather => e.present.all k.gathered.contains
  | .ring => k.blockIn && k.blockOut

/-- The sum of the members' count vectors, written into the tensor's record (R318). -/
def State.writeCounts (s : State) (e : CollEnv) (k : Coll) : Except Fail State :=
  let vecs := (List.range e.g.size).map fun i =>
    if e.present.contains i then some ((getKey [] k.counts i).map BitVec.toNat) else none
  s.wrBytes e.f.ctx.id (e.src.sieve + 16) ((treeCombine (satAdd 0xFFFFFFFF) (e.g.size + 1) vecs).flatMap (leBytes 4))

/-- Moves a collective on: its owner's runs are combined, and it completes when everything it must write is written. -/
def State.collAdvance (s : State) (e : CollEnv) (r : InstrRef) : Except Fail State := do
  match (s.found? r).bind Found.coll? with
  | none => return s
  | some k =>
    let s ← if e.mode = .reduceAll ∨ e.mode = .scatter then s.combineOwned e r k else .ok s
    match (s.found? r).bind Found.coll? with
    | none => return s
    | some k =>
      if e.complete k then
        let s ← if e.mode = .sieve then s.writeCounts e k else .ok s
        s.collFinish e r false
      else return s

/-- Where a rank's contribution is staged (R316). -/
def CollEnv.stageOff (e : CollEnv) (rank : Nat) : Option Nat :=
  (e.plan.tensors[wHi e.f.words 5]?).map fun t =>
    t.base + rank * ceilDiv e.runs (e.g.size - e.g.budget) * slotBytes e.src.elem

/-- Stages a contribution in its rank's slot (R316). -/
def State.stage (s : State) (e : CollEnv) (r : InstrRef) (rank : Nat) (data : List Byte) : Except Fail State := do
  let s ← match e.stageOff rank with
    | some off => s.wrBytes r.ctx off data
    | none => .ok s
  return s.mapColl r fun k => { k with contribs := setKey k.contribs rank data }

/-- What a member sends and writes when its collective starts or restarts (R316, R318, R320). -/
def State.collSends (s : State) (e : CollEnv) (r : InstrRef) : Except Fail State :=
  match e.mode with
  | .sieve => do
    let words := wordsOf (← s.rdBytes e.f.ctx (e.src.sieve + 16) 48)
    let s := s.mapColl r fun k => { k with counts := [(e.g.rank, words.map (BitVec.ofNat 32))] }
    return s.sendOthers e (words.flatMap (leBytes 4))
  | .gather => do
    let elems ← s.rdBytes e.f.ctx e.src.base (storageBytes e.src)
    let scales ← s.rdBytes e.f.ctx e.src.scale.base (scaleBytes e.src)
    let s ← s.writeSlot e e.g.rank elems scales
    return (s.mapColl r fun k => { k with gathered := [e.g.rank] }).sendOthers e (elems ++ scales)
  | .ring => do
    let elems ← s.rdBytes e.f.ctx e.src.base (storageBytes e.src)
    let scales ← s.rdBytes e.f.ctx e.src.scale.base (scaleBytes e.src)
    if e.g.size = 1 then
      let s ← s.writeSlot e 0 elems scales
      return s.mapColl r fun k => { k with blockIn := true, blockOut := true }
    else return s.sendColl e ((e.g.rank + 1) % e.g.size) (elems ++ scales)
  | _ =>
    e.present.foldlM (fun s rank => do
      let own := e.owned rank
      if own.1 == own.2 then return s
      else
        let data ← s.runSlots e own.1 own.2
        if rank = e.g.rank then s.stage e r rank data else return s.sendColl e rank data) s

/-- A collective starts (R314, R316), or restarts under a changed mask (R319). It reads S as any instruction reads an operand:
an image from the buffer of its step, after the check of R177. Its NONFINITE_SEEN is once for all its instances (R318). -/
def State.collBegin (s : State) (e : CollEnv) (r : InstrRef) (restart : Bool) : Except Fail State := do
  if !(e.eff.testBit (e.g.groupOf e.g.rank)) then s.collFinish e r true
  else if e.mode != .ring && decide (e.present.length < e.g.size - e.g.budget) then
    let s := s.raise 0x3203 e.g.serial (s.collSource e.f.path) r.ctx
    let s := s.mapCtx r.ctx fun c => c.holdWith 0x3203 e.g.serial
    return s.notify r.ctx 0x3203 e.g.serial r.step []
  else
    let s := if restart then
        (s.raise 0x3202 e.g.serial (s.collSource e.f.path) r.ctx).mapCtx r.ctx fun c =>
          { c with syn := { c.syn with restarted := true } }
      else s
    let src ← s.operand e.f.ctx e.plan (wLo e.f.words 4) e.f.run.step e.f.run.iter
    let e := { e with src := src.t }
    let k : Coll := { stream := r.stream, index := r.index, maskTag := maskTag e.eff, contribs := [], counts := [],
                      results := [], gathered := [], blockIn := false, blockOut := false,
                      nonfinite := restart && e.f.coll?.any Coll.nonfinite,
                      since := s.now }
    let s := (s.setColl r (some k)).setPhase r .executed
    (← s.collSends e r).collAdvance e r

/-- A collective that fails (R98, R318). -/
def State.collFail (s : State) (e : CollEnv) (r : InstrRef) (x : Fail) : State :=
  ((s.undefView r.ctx (e.dst.view e.f.run.iter)).setColl r none).fault r.ctx e.f.path { x with src := some (s.collSource e.f.path) }

/-- Runs a part of a collective, with the consequences of a failure. -/
def State.collTry (s : State) (e : CollEnv) (r : InstrRef) (act : State → Except Fail State) : State :=
  match act s with
  | .ok s' => s'
  | .error x => s.collFail e r x

/-! ## Messages (R313, R315 to R317, R320) -/

/-- What a message of the current instance does. -/
def State.collTake (s : State) (e : CollEnv) (r : InstrRef) (m : CollMsg) : Except Fail State :=
  match m.part with
  | .contribution data => do
    let own := e.owned e.g.rank
    if (e.mode == .reduceAll || e.mode == .scatter) && data.length == (own.2 - own.1) * slotBytes e.src.elem then
      (← s.stage e r m.rank data).collAdvance e r
    else return s
  | .result data => do
    if e.mode == .reduceAll then
      let s ← s.writeRuns e (e.owned m.rank).1 (e.unpack data)
      (s.mapColl r fun k => { k with results := insertNew k.results m.rank }).collAdvance e r
    else return s
  | .counts words => do
    if e.mode == .sieve then
      (s.mapColl r fun k => { k with counts := setKey k.counts m.rank words }).collAdvance e r
    else return s
  | .gather elems scales => do
    if e.mode == .gather then
      let s ← s.writeSlot e m.rank elems scales
      (s.mapColl r fun k => { k with gathered := insertNew k.gathered m.rank }).collAdvance e r
    else return s
  | .block stretch elems scales => do
    if e.mode == .ring then
      let s ← s.writeSlot e stretch elems scales
      let want := (wLo e.f.words 6 + e.g.size - 1) % e.g.size
      let s := s.mapColl r fun k => { k with blockIn := k.blockIn || stretch == want }
      (s.sendColl e m.rank []).collAdvance e r
    else return s
  | .blockDone => do
    if e.mode == .ring then (s.mapColl r fun k => { k with blockOut := true }).collAdvance e r else return s

/-- The placed collective instruction that a message's group id and serial name in its step. -/
def Ctx.collRef (c : Ctx) (m : CollMsg) : Option InstrRef :=
  match c.plan, c.steps.find? (fun run => run.step == m.step) with
  | some p, some run =>
    (run.placed.find? fun q =>
      let ws := c.words q.stream q.index
      laneOf ws == some .collective && (p.group (wLo ws 5)).id == m.group.toNat &&
      (p.group (wLo ws 5)).serial == m.serial && q.phase != .retired).map fun q =>
        { ctx := c.id, step := m.step, stream := q.stream, index := q.index }
  | _, _ => none

/-- Whether the step of a message has not been placed here yet. -/
def Ctx.stepAhead (c : Ctx) (m : CollMsg) : Bool :=
  c.plan.isSome && (decide (c.lgl.nextStep ≤ m.step) || c.steps.any fun run => decide (run.step < m.step)) &&
  !(c.steps.any fun run => run.step == m.step)

/-- A collective message reaches its context: it is taken by the current instance, staged for one that has not
started here, or discarded (R313, R315). -/
def State.collDeliver (s : State) (c : Ctx) (m : CollMsg) : State :=
  let keep (s : State) : State := s.mapCtx c.id fun c => { c with early := c.early ++ [m] }
  match c.collRef m with
  | none => if c.stepAhead m then keep s else s
  | some r =>
    match s.found? r with
    | none => s
    | some f =>
      match f.coll?, f.collEnv with
      | some k, some e =>
        if k.maskTag = m.maskTag ∧ e.present.contains m.rank then s.collTry e r fun s => s.collTake e r m else s
      | none, _ => keep s
      | _, none => s

/-- COLL_MESSAGE_RECEIVE (R313, R315, R317). -/
def execCollMessageReceive (p num : Nat) (m : CollMsg) (s : State) : Out :=
  match s.bindingAt p num with
  | none => .next s
  | some (c, _) => if c.receiving then .next (s.collDeliver c m) else .next (s.countDrop c.id)

/-- Hands the messages staged for a context to the collectives they belong to. -/
def State.collEarly (s : State) (id : Nat) : State :=
  match s.ctx? id with
  | none => s
  | some c =>
    c.early.foldl (fun s m => match s.ctx? id with
      | some c => s.collDeliver c m
      | none => s) (s.mapCtx id fun c => { c with early := [] })

/-! ## Meanings -/

/-- Starts a collective instruction of an opcode once its lane has issued it (R314). -/
def State.startColl (s : State) (r : InstrRef) (op : Nat) : State :=
  match s.found? r with
  | none => s
  | some f =>
    if wOp f.words == op && f.p.phase == .issued && f.ctx.placing then
      match f.collEnv with
      | none => s
      | some e => (s.collTry e r fun s => s.collBegin e r false).collEarly r.ctx
    else s

/-- ALL_REDUCE (R318). -/
def execAllReduce (r : InstrRef) (s : State) : Out := .next (s.startColl r 0x60)

/-- REDUCE_SCATTER (R316, R318). -/
def execReduceScatter (r : InstrRef) (s : State) : Out := .next (s.startColl r 0x61)

/-- ALL_GATHER (R320). -/
def execAllGather (r : InstrRef) (s : State) : Out := .next (s.startColl r 0x62)

/-- RING_PASS (R320). -/
def execRingPass (r : InstrRef) (s : State) : Out := .next (s.startColl r 0x63)

/-- The collectives of the oldest step restart where a new contributor mask changes their effective mask (R319);
`old` is the mask it replaced. -/
def State.collMaskChanged (s : State) (id : Nat) (old : BitVec 256) : State :=
  match (s.ctx? id).bind fun c => c.steps.head? with
  | none => s
  | some run =>
    run.colls.foldl (fun s k =>
      let r : InstrRef := { ctx := id, step := run.step, stream := k.stream, index := k.index }
      match (s.found? r).bind Found.collEnv with
      | none => s
      | some e =>
        if e.g.expect &&& old.toNat = e.eff then s else s.collTry e r fun s => s.collBegin e r true) s

/-- COLL_TIMEOUT (R321, R323). -/
def execCollTimeout (r : InstrRef) (s : State) : Out :=
  match s.found? r with
  | none => .next s
  | some f =>
    match f.coll?, f.collEnv with
    | some k, some e =>
      if f.ctx.phase = .running ∧ !f.ctx.holdAsked then
        let s := s.advanceTo (k.since + f.ctx.collUs)
        let s := s.raise 0x3201 e.g.serial (s.collSource f.path) r.ctx
        let s := s.mapCtx r.ctx fun c =>
          ({ c with syn := { c.syn with collTimedOut := true, serial := e.g.serial } }).holdWith 0x3201 e.g.serial
        .next (s.notify r.ctx 0x3201 e.g.serial r.step [])
      else .next s
    | _, _ => .next s

end Sys2Proof.Machine
end

