-- ==== Sys2Proof/Machine/Mailbox.lean ====
section
/-! DEFINITION. Ligil mailboxes (R326 to R341): connections, sessions, slots, the checks every command passes
(R335), responses, events, and CLIENT_CONNECT, SESSION_END, COMMAND_SLOT_RELEASE, EVENT_SLOT_RELEASE,
EVENT_DELIVER, HELLO. -/

namespace Sys2Proof

/-! ## Reading a slot (R331) -/

/-- Header word `i` of a command, 4 to 15. -/
def Slot.w (sl : Slot) (i : Nat) : Nat := (sl.args.getD (i - 4) 0).toNat

/-- A 48-bit value in words `i` and `i` + 1. -/
def Slot.w48 (sl : Slot) (i : Nat) : Nat := sl.w i + sl.w (i + 1) % 65536 * 2 ^ 32

/-- A 64-bit value in words `i` and `i` + 1. -/
def Slot.w64 (sl : Slot) (i : Nat) : Nat := sl.w i + sl.w (i + 1) * 2 ^ 32

/-- The command code. -/
def Slot.cmd (sl : Slot) : Nat := sl.code.toNat

/-- The command slot's number: the sequence modulo 16 (R332). -/
def Slot.number (sl : Slot) : Nat := sl.seq.toNat % 16

/-- The command codes of R340. -/
def commandCodes : List Nat :=
  [0x01, 0x02, 0x10, 0x11, 0x12, 0x13, 0x14, 0x20, 0x21, 0x30, 0x31, 0x32, 0x40, 0x41, 0x42, 0x50, 0x51, 0x60, 0x61,
   0x62, 0x63, 0x70, 0x71, 0x80, 0x81]

/-- The context commands that name a context in word 4 (R340). -/
def contextCodes : List Nat := [0x11, 0x12, 0x13, 0x14, 0x20, 0x21, 0x30, 0x31, 0x32, 0x40, 0x41, 0x42]

/-- The device-wide selectors of QUERY_STATS (R358). -/
def deviceSelector (sel : Nat) : Bool := sel == 0x10 || sel == 0x11 || sel == 0x12

/-- The context selectors of QUERY_STATS (R358). -/
def contextSelector (sel : Nat) : Bool := decide (1 ≤ sel) && decide (sel ≤ 4)

/-- The context a command names (R340, R358, R360). -/
def Slot.named (sl : Slot) : Option Nat :=
  if contextCodes.contains sl.cmd then some (sl.w 4 % 256)
  else if sl.cmd = 0x50 ∧ contextSelector (sl.w 5 % 256) then some (sl.w 4 % 256)
  else if sl.cmd = 0x80 ∧ sl.w 4 % 8 = 1 then some (sl.w 5)
  else none

/-- Whether the reserved bits of word 4 of a context command are 0 (R340). -/
def Slot.ctxOk (sl : Slot) : Bool := decide (sl.w 4 < 256)

/-- Whether a frame's head is that of a frame of a type whose body has a length (R333); over I3C there is no frame. -/
def FrameHead.ok (h : FrameHead) (conn type length : Nat) : Bool :=
  conn == 0 || (h.type == type && h.reserved == 0 && h.length == length)

/-- Order 1 of R335, but for the session id: the frame, the owner and the payload length. -/
def Slot.formOk (sl : Slot) : Bool :=
  sl.owner == 1 && sl.payload.length == sl.len && decide (sl.len ≤ 4032) && sl.head.ok sl.conn 1 (64 + sl.len)

/-- The header fields that a command leaves 0 (R331, R335): word 0 [29:16], and the status of word 3. -/
def Slot.headerOk (sl : Slot) : Bool := sl.reserved == 0 && sl.status == 0

end Sys2Proof

namespace Sys2Proof.Machine

/-! ## Sessions (R328 to R330) -/

/-- A session. -/
def State.session? (s : State) (id : Nat) : Option Session := s.ligil.sessions.find? fun x => x.id == id

/-- Replaces a session's record. -/
def State.mapSession (s : State) (id : Nat) (f : Session → Session) : State :=
  { s with ligil := { s.ligil with sessions := s.ligil.sessions.map fun x => if x.id = id then f x else x } }

/-- A connection. -/
def State.conn? (s : State) (conn : Nat) : Option Conn := s.ligil.conns.find? fun k => k.id == conn

/-- The session a connection carries; connection 0 is the tray controller's I3C with session 0 (R328). -/
def State.sessionOf (s : State) (conn : Nat) : Option Session :=
  if conn = 0 then s.session? 0
  else (s.conn? conn).bind fun k => k.session.bind s.session?

/-- A context's events that a session has not been given yet go back to the context (R330, R341). -/
def State.keepEvents (s : State) (se : Session) : State :=
  { s with ctxs := s.ctxs.map fun c =>
      if c.session = some se.id then { c with session := none, events := c.events ++ se.events.filter fun n => n.ctx == c.id }
      else c }

/-- A session ends (R330): its handles are cancelled, its contexts keep running without an orchestrating session, and
an update it was sending is dropped (R416). -/
def State.endSession (s : State) (se : Session) : State :=
  let s := s.cancelWhere fun h => se.handles.any fun x => x.id == h.id
  let s := s.keepEvents se
  let upd := s.boot.upd == .receiving && s.boot.offer.any fun o => o.1 == se.id
  let s := if upd then { s with boot := { s.boot with upd := .idle, offer := none }, flash := s.flash.setStaging s.updBank [] } else s
  { s with ligil := { s.ligil with sessions := s.ligil.sessions.filter fun x => x.id != se.id } }

/-- The slot a waiting Ligil command came in. -/
def slotOf : Instr → Option Slot
  | .hello sl | .attest sl | .admitCtx sl | .reserve sl | .release sl | .attachCommons sl | .attachCommonsGrant sl
  | .detachCommons sl | .detachCommonsRevoke sl | .loadPlan sl | .bindDataOpenIn sl | .bindDataOpenOut sl
  | .bindDataClose sl | .runStep sl | .hold sl | .resume sl | .snapshot sl | .restore sl | .exportSnapshot sl
  | .queryStats sl | .queryCaps sl | .fwOffer sl | .fwChunk sl | .fwActivate sl | .fwConfirm sl
  | .logReadRecords sl | .logReadConfig sl | .logWriteConfig sl | .logReadSet sl | .logWriteSet sl | .dumpRead sl
  | .resetReq sl | .powerPolicy sl => some sl
  | _ => none

/-- The connection a waiting command came over. -/
def cameOver (conn : Nat) (c : Instr) : Bool := (slotOf c).any fun sl => sl.conn == conn

/-- A connection closes, and its session with it (R330). The I3C session never closes. -/
def State.closeConn (s : State) (conn : Nat) : State :=
  if conn = 0 then s
  else
    let s := match s.sessionOf conn with
      | some se => s.endSession se
      | none => s
    { s with ligil := { s.ligil with
        conns := s.ligil.conns.filter fun k => k.id != conn
        deferred := s.ligil.deferred.filter fun c => !(cameOver conn c) } }

/-- The ped path a connection's own events name: its front port (R22); the package for I3C. -/
def State.connPath (s : State) (conn : Nat) : Nat :=
  match s.conn? conn with
  | some k => 0xA00 + k.front
  | none => pkgPath

/-- SESSION_PROTOCOL (R333): logged; over TLS the session closes, over I3C the write is ignored. -/
def State.protocolError (s : State) (conn : Nat) : State :=
  (s.raise 0x6022 0 (s.connPath conn) noCtx).closeConn conn

/-- Whether a connection's front port has stopped for want of its reference clock (R458). -/
def State.frontStopped (s : State) (conn : Nat) : Bool := (s.conn? conn).any fun k => s.power.sdsLost.getD k.front false

/-- Whether the management firmware serves Ligil (R403), or the ROM in recovery (R407). -/
def State.serving (s : State) (conn : Nat) : Bool :=
  (s.boot.phase == .running && !(s.frontStopped conn)) || (s.boot.phase == .recovery && conn == 0)

/-! ## Responses (R331 to R333) -/

/-- What the device writes in a command slot: over TLS the slot is free once its frame is sent (R331 to R333). -/
def response (owner : BitVec 2) (sl : Slot) (status detail : Nat) (words : List (Nat × Nat)) (payload : List Byte) : CmdSlot :=
  { number := sl.number, owner, code := sl.cmd, seq := sl.seq.toNat, status
    detail := min detail 0xFFFF, words := (List.range 12).map fun i => getKey 0 words (i + 4) % 2 ^ 32, payload }

/-- The response in a command slot: over TLS the slot is free once its frame is sent; over I3C the controller frees it,
and an in-band interrupt announces it (R328). -/
def State.answer (s : State) (id : Nat) (sl : Slot) (status detail : Nat) (words : List (Nat × Nat))
    (payload : List Byte) : State :=
  match s.session? id with
  | none => s
  | some _ =>
    let r := response (if id = 0 then 2 else 0) sl status detail words payload
    let s := s.mapSession id fun x => { x with slots := (x.slots.filter fun y => y.number != sl.number) ++ [r] }
    if id = 0 then { s with power := { s.power with ibi := s.power.ibi ++ [0xA1] } } else s

/-- A plain OK. -/
def State.ok (s : State) (id : Nat) (sl : Slot) : State := s.answer id sl 0 0 [] []

/-- A refusal: its status is logged from the package with the named context (R427, R481), and answered. -/
def State.refuseWith (s : State) (id : Nat) (sl : Slot) (status detail : Nat) (words : List (Nat × Nat)) : State :=
  (s.raise status detail pkgPath ((sl.named.map fun c => c % 256).getD noCtx)).answer id sl status detail words []

/-- A refusal without results. -/
def State.refuse (s : State) (id : Nat) (sl : Slot) (status detail : Nat) : State := s.refuseWith id sl status detail []

/-- CMD_INVALID for a payload length or an argument (R363). -/
def State.invalid (s : State) (id : Nat) (sl : Slot) (detail : Nat) : State := s.refuse id sl 0x4401 detail

/-- CTX_STATE with a reason (R363). -/
def State.badState (s : State) (id : Nat) (sl : Slot) (c : Ctx) (reason : Nat) : State :=
  s.refuse id sl 0x4403 (placed reason 8 + c.phase.code)

/-- The session's command waits for its response. -/
def State.setBusy (s : State) (id : Nat) (b : Busy) (sl : Slot) : State :=
  s.mapSession id fun x => { x with busy := x.busy ++ [(b, sl)] }

/-- Answers the waiting commands that `p` gives an outcome: status, detail and results. -/
def State.answerBusy (s : State) (p : Busy → Option (Nat × Nat × List (Nat × Nat))) : State :=
  s.ligil.sessions.foldl (fun s se => se.busy.foldl (fun s b =>
    match p b.1 with
    | some r => (s.answer se.id b.2 r.1 r.2.1 r.2.2 []).mapSession se.id fun x => { x with busy := x.busy.filter (· != b) }
    | none => s) s) s

/-! ## The checks of R335 -/

/-- Whether a path carries a command (R334, R350, R407). -/
def State.pathOk (s : State) (sl : Slot) : Bool :=
  if sl.conn ≠ 0 then true
  else if s.boot.phase = .recovery then [0x01, 0x60, 0x61, 0x62, 0x70].contains sl.cmd
  else [0x01, 0x02, 0x51, 0x60, 0x61, 0x62, 0x63, 0x70, 0x71, 0x80, 0x81].contains sl.cmd ||
    (sl.cmd == 0x50 && deviceSelector (sl.w 5 % 256))

/-- Whether a role grants a command (R327, R340). -/
def roleOk (roles : BitVec 3) (sl : Slot) : Bool :=
  let tenant := roles.getLsbD 0
  let operator := roles.getLsbD 2
  match sl.cmd with
  | 0x01 => true
  | 0x02 => true
  | 0x51 => true
  | 0x10 => tenant
  | 0x12 => tenant || operator
  | 0x50 => operator || !(deviceSelector (sl.w 5 % 256))
  | 0x80 => operator || (tenant && sl.w 4 % 8 == 1)
  | _ => if contextCodes.contains sl.cmd then tenant else operator

/-- Whether a session may act on the named context, under R338; the detail of the refusal when it may not. -/
def mayAct (se : Session) (c : Option Ctx) (sl : Slot) : Option Nat :=
  match c with
  | none => some 2
  | some c =>
    if (sl.cmd = 0x12 ∨ sl.cmd = 0x80) ∧ se.roles.getLsbD 2 then none
    else if c.config.owner ≠ se.identity then some 2
    else if sl.cmd = 0x50 ∨ c.session = some se.id then none
    else some 5

/-- The states in which a context command is accepted (R340). -/
def stateOk (sl : Slot) (ph : CtxPhase) : Bool :=
  let run := ph == .ready || ph == .running || ph == .held
  match sl.cmd with
  | 0x11 => if sl.w 5 % 2 = 1 then ph == .reserved || ph == .ready else ph == .admitted
  | 0x13 => ph == .reserved || ph == .ready || ph == .held
  | 0x14 => ph == .reserved || ph == .ready || ph == .held
  | 0x20 => ph == .reserved || ph == .ready
  | 0x21 => ph == .reserved || run
  | 0x30 => ph == .ready || ph == .running
  | 0x31 => ph != .admitted
  | 0x32 => ph == .held
  | 0x40 => run
  | 0x41 => ph == .reserved || ph == .ready || ph == .held
  | 0x42 => run
  | _ => true

/-- What the checks of orders 2 to 6 say of a command. -/
inductive Verdict where
  | refuse (status detail : Nat)
  | wait
  | go
  deriving DecidableEq, Repr

/-- The sequence a command must carry (R334): HELLO opens with 0. -/
def Session.expected (se : Session) (sl : Slot) : Nat := if sl.cmd = 1 ∧ !se.hello then 0 else se.nextSeq

/-- Orders 2 to 6 of R335. -/
def State.verdict (s : State) (se : Session) (sl : Slot) : Verdict :=
  if sl.seq.toNat ≠ se.expected sl ∨ (sl.cmd = 1 ∧ se.hello) then .refuse 0x4402 (se.expected sl)
  else if !(commandCodes.contains sl.cmd) then .refuse 0x4401 1
  else if !(s.pathOk sl) then .refuse 0x6021 3
  else if !(roleOk se.roles sl) then .refuse 0x6021 1
  else match sl.named with
  | none => .go
  | some id =>
    match mayAct se (s.ctx? id) sl with
    | some d => .refuse 0x6021 d
    | none =>
      match s.ctx? id with
      | none => .go
      | some c =>
        if c.phase = .resetting ∧ sl.cmd ≠ 0x50 ∧ sl.cmd ≠ 0x12 ∧ sl.cmd ≠ 0x80 then .wait
        else if stateOk sl c.phase then .go
        else .refuse 0x4403 c.phase.code

/-- The command waits at the device. -/
def State.deferCmd (s : State) (c : Instr) : State := { s with ligil := { s.ligil with deferred := s.ligil.deferred ++ [c] } }

/-- A command in sequence takes its place in it (R334). -/
def State.advanceSeq (s : State) (id : Nat) (sl : Slot) : State :=
  s.mapSession id fun x => { x with nextSeq := (sl.seq.toNat + 1) % 65536 }

/-- A session executes a command: orders 2 to 6, the header's reserved fields of order 7, then what the command's own row
does. -/
def State.execute (s : State) (se : Session) (c : Instr) (sl : Slot) (run : State → State) : State :=
  match s.verdict se sl with
  | .wait => s.deferCmd c
  | .refuse st d => (if st = 0x4402 then s else s.advanceSeq se.id sl).refuse se.id sl st d
  | .go =>
    let s := s.advanceSeq se.id sl
    if sl.headerOk then run s else s.invalid se.id sl 3

/-- The lowest free TLS session id (R329). -/
def State.freeSession (s : State) : Option Nat :=
  (lowestBelow 1023 fun i => (s.session? (i + 1)).isNone).map (· + 1)

/-- A HELLO that would open a session more than there are ids is refused, and its connection then closes (R329). -/
def State.sessionLimit (s : State) (k : Conn) (sl : Slot) : State :=
  let s := (s.raise 0x6020 0 pkgPath noCtx).closeConn k.id
  { s with ligil := { s.ligil with parting := s.ligil.parting ++ [(k.id, response 0 sl 0x6020 0 [] [])] } }

/-- A HELLO on a connection that carries no session opens one, where an id is free (R329). -/
def State.openSession (s : State) (k : Conn) : State × Option Session :=
  match s.freeSession with
  | none => (s, none)
  | some id =>
    let se : Session := { id, conn := k.id, roles := k.roles, identity := k.identity, nextSeq := 0, hello := false,
                          slots := [], evSlots := [], events := [], eventSeq := 0, lost := 0, handles := [], busy := [] }
    ({ s with ligil := { s.ligil with
        sessions := s.ligil.sessions ++ [se]
        conns := s.ligil.conns.map fun x => if x.id = k.id then { x with session := some id } else x } }, some se)

/-- Whether a session's command slot is not free for a new command (R332). -/
def State.slotBusy (s : State) (se : Session) (n : Nat) : Bool :=
  (se.busy.any fun b => b.2.number == n) || (se.slots.any fun x => x.number == n && x.owner == 2) ||
  s.ligil.deferred.any fun c => (slotOf c).any fun sl => sl.conn == se.conn && sl.number == n

/-- A Ligil command arrives (R332 to R335). `mine` tells whether its code is the row's own; `run` is what the command
does once the checks to order 6 have passed, with its session. A session executes one command at a time: a later one
waits. -/
def State.command (s : State) (c : Instr) (sl : Slot) (mine : Bool) (run : Session → State → State) : State :=
  if !(s.serving sl.conn) || (commandCodes.contains sl.cmd && !mine) then s
  else match s.sessionOf sl.conn with
  | some se =>
    if !sl.formOk || sl.session.toNat != se.id && (se.hello || se.id == 0) || s.slotBusy se sl.number ||
        (!se.hello && se.id != 0 && sl.cmd != 1) then s.protocolError sl.conn
    else if !se.busy.isEmpty || s.ligil.deferred.any (cameOver sl.conn) then s.deferCmd c
    else s.execute se c sl (run se)
  | none =>
    match s.conn? sl.conn with
    | none => s
    | some k =>
      if !sl.formOk || sl.cmd != 1 then s.protocolError sl.conn
      else match s.openSession k with
      | (s, some se) => s.execute se c sl (run se)
      | (s, none) => s.sessionLimit k sl

/-- Whether a waiting command can be taken now: its session is free and no earlier command of it waits, its context is
out of a reset, and a RESERVE's dies are (R228, R334, R335, R345). `reserveWaits` tells the last. -/
def State.takeable (s : State) (reserveWaits : Slot → Bool) (earlier : List Instr) (c : Instr) : Bool :=
  match slotOf c with
  | none => true
  | some sl =>
    match s.sessionOf sl.conn with
    | none => true
    | some se => se.busy.isEmpty && !(earlier.any (cameOver sl.conn)) && s.verdict se sl != .wait &&
        !(sl.cmd == 0x11 && reserveWaits sl)

/-! ## Connections, slots, events -/

/-- CLIENT_CONNECT (R326, R327): a chain that does not verify closes the connection. -/
def execClientConnect (conn front : Nat) (cert : CertVerdict) (s : State) : Out :=
  if s.boot.phase ≠ .running ∨ !s.boot.ident ∨ conn = 0 ∨ (s.conn? conn).isSome ∨ 2 ≤ front ∨
      s.power.sdsLost.getD front false then .next s
  else match cert with
  | .failed => .next (s.raise 0x6023 0 (0xA00 + front) noCtx)
  | .verified roles key =>
    let k : Conn := { id := conn, front, roles, identity := sha384Digest128 key, session := none }
    .next { s with ligil := { s.ligil with conns := s.ligil.conns ++ [k] } }

/-- SESSION_END (R330). -/
def execSessionEnd (conn : Nat) (s : State) : Out := .next (s.closeConn conn)

/-- COMMAND_SLOT_RELEASE (R332, R333): over I3C the controller frees a slot whose response it has read. Over TLS the
slot is free already, and a frame without owner 0b01 closes the session. -/
def execCommandSlotRelease (conn : Nat) (_head : FrameHead) (r : SlotRelease) (s : State) : Out :=
  match s.sessionOf conn with
  | none => .next s
  | some se =>
    if conn = 0 ∧ r.owner = 0 ∧ (se.slots.any fun x => x.number == r.slot && x.owner == 2) then
      .next (s.mapSession 0 fun x => { x with slots := x.slots.filter fun y => y.number != r.slot })
    else .next (s.protocolError conn)

/-- EVENT_SLOT_RELEASE (R332, R333): over TLS the slot's first 4 bytes come back in a frame. -/
def execEventSlotRelease (conn : Nat) (head : FrameHead) (r : SlotRelease) (s : State) : Out :=
  match s.sessionOf conn with
  | none => .next s
  | some se =>
    if head.ok conn 2 4 ∧ r.owner = 0 ∧ (se.evSlots.any fun x => x.number == r.slot) then
      .next (s.mapSession se.id fun x => { x with evSlots := x.evSlots.filter fun y => y.number != r.slot })
    else .next (s.protocolError conn)

/-- EVENT_DELIVER (R336): the oldest queued event goes into the session's lowest free event slot; the count of lost
events rides along. -/
def execEventDeliver (session : Nat) (s : State) : Out :=
  match s.session? session with
  | none => .next s
  | some se =>
    match se.events, lowestBelow 16 fun i => !(se.evSlots.any fun x => x.number == i) with
    | n :: rest, some i =>
      if s.boot.phase ≠ .running ∨ (!se.hello ∧ session ≠ 0) ∨ s.frontStopped se.conn then .next s
      else
        let s := s.mapSession session fun x => { x with
          events := rest, lost := 0, eventSeq := (x.eventSeq + 1) % 65536
          evSlots := x.evSlots ++ [{ number := i, code := 0xF0, seq := x.eventSeq, lost := x.lost, notice := n }] }
        .next (if session = 0 then { s with power := { s.power with ibi := s.power.ibi ++ [0xA1] } } else s)
    | _, _ => .next s

/-! ## HELLO (R341) -/

/-- A session takes orchestration of a context, with its queued events in their order. -/
def State.claim (s : State) (id : Nat) (c : Ctx) : State :=
  let old := match c.session with
    | some o => ((s.session? o).map fun x => x.events.filter fun n => n.ctx == c.id).getD []
    | none => []
  let s := match c.session with
    | some o => s.mapSession o fun x => { x with events := x.events.filter fun n => n.ctx != c.id }
    | none => s
  let s := (c.events ++ old).foldl (fun s n => s.notifySession id n) s
  let s := s.mapSession id fun x => { x with lost := x.lost + c.eventsLost }
  s.mapCtx c.id fun c => { c with session := some id, events := [], eventsLost := 0 }

/-- The contexts a HELLO claims. -/
def State.claimable (s : State) (se : Session) (claim : Nat) : List Ctx :=
  s.ctxs.filter fun c => c.config.owner == se.identity &&
    ((claim == 1 && c.session.isNone) || (claim == 2 && c.session != some se.id))

/-- What HELLO does once it passes the checks to order 6. -/
def State.hello (sl : Slot) (se : Session) (s : State) : State :=
  if sl.len ≠ 0 then s.invalid se.id sl 2
  else if sl.w 4 ≠ 1 ∨ 3 ≤ sl.w 5 then s.invalid se.id sl 3
  else
    let l := s.claimable se (sl.w 5)
    let s := s.mapSession se.id fun x => { x with hello := true, eventSeq := 0 }
    let s := match s.resets.lastChip with
      | some d => if se.roles.getLsbD 2 then
          s.notifySession se.id { code := 0x5005, detail := d, ctx := noCtx, step := 0, data := [] } else s
      | none => s
    let s := l.foldl (fun s c => s.claim se.id c) s
    s.answer se.id sl 0 0 [(4, se.id), (5, se.roles.toNat), (6, s.flash.pcc % 2 ^ 24), (7, l.length)] []

/-- HELLO (R341). -/
def execHello (sl : Slot) (s : State) : Out := .next (s.command (.hello sl) sl (sl.cmd == 0x01) (State.hello sl))

end Sys2Proof.Machine
end

