-- ==== Sys2Proof/Machine/Admit.lean ====
section
/-! DEFINITION. Admission and reservation (R225 to R228, R343 to R345), the release of a context (R346), the commons
commands (R347, R348), and the Ligil rows ADMIT, RESERVE, ATTACH_COMMONS, ATTACH_COMMONS_GRANT, DETACH_COMMONS and
DETACH_COMMONS_REVOKE. -/

namespace Sys2Proof.Machine

/-! ## ADMIT (R343) -/

/-- The policy a context is admitted with: 0 selects the class default of R136. -/
def admitPolicy (reference : Bool) (code : Nat) : Policy :=
  match code with
  | 0 => if reference then .replayWide else .cont
  | 1 => .cont
  | 2 => .replayWide
  | _ => .hold

/-- What ADMIT does once it passes the checks to order 6. -/
def State.makeContext (sl : Slot) (se : Session) (s : State) : State :=
  let w4 := sl.w 4
  let w5 := sl.w 5
  if bitOf w4 4 && !(se.roles.getLsbD 1) then s.refuse se.id sl 0x6021 1
  else if sl.len ≠ 32 then s.invalid se.id sl 2
  else if 32 ≤ w4 ∨ bitOf w4 1 ∨ 10000 < w5 then s.invalid se.id sl 3
  else
    match lowestBelow 64 fun i => (s.ctx? i).isNone with
    | none => s.refuse se.id sl 0x2001 9
    | some id =>
      let cfg : CtxConfig := { reference := bitOf w4 0, policy := admitPolicy (bitOf w4 0) (bitsOf w4 3 2),
                               commonsOwner := bitOf w4 4, hangMs := if w5 = 0 then 250 else w5,
                               seed := sl.payload, owner := se.identity }
      ({ s with ctxs := s.ctxs ++ [Ctx.admitted id cfg se.id] }).answer se.id sl 0 0 [(4, id)] []

/-- ADMIT (R343). -/
def execAdmitCtx (sl : Slot) (s : State) : Out := .next (s.command (.admitCtx sl) sl (sl.cmd == 0x10) (State.makeContext sl))

/-! ## The request of a RESERVE (R344) -/

/-- A port entry: port, arrival counter index, job tag. -/
structure PortEntry where
  port : Nat
  arrival : Nat
  tag : Nat
  reserved : Nat
  deriving DecidableEq, Repr

/-- A request. -/
structure Request where
  resv : Resv
  ports : List PortEntry
  deriving DecidableEq, Repr

/-- The request in a payload. -/
def parseRequest (b : List Byte) : Request :=
  let bytes (off n : Nat) : List Nat := (List.range n).map fun i => leAt b (off + i) 1
  let words (off n : Nat) : List Nat := (List.range n).map fun i => leAt b (off + 4 * i) 4
  { resv := { top := bytes 0 256, sub := words 256 12, headroom := words 304 12, snap := words 352 12,
              poolSub := words 400 12, poolTop := bytes 448 256, counters := words 704 4, shares := bytes 720 64,
              snapSet := leAt b 784 4 }
    ports := (List.range (leAt b 788 4)).map fun i =>
      let at_ := 792 + 16 * i
      { port := leAt b at_ 1, arrival := leAt b (at_ + 4) 4, tag := leAt b (at_ + 8) 8, reserved := leAt b (at_ + 1) 3 } }

/-- Two lists of counts added. -/
def addLists (a b : List Nat) : List Nat := (List.range (max a.length b.length)).map fun i => a.getD i 0 + b.getD i 0

/-- A reservation with a grow's counts added (R344). -/
def Resv.grow (a b : Resv) : Resv :=
  { top := addLists a.top b.top, sub := addLists a.sub b.sub, headroom := addLists a.headroom b.headroom,
    snap := addLists a.snap b.snap, poolSub := addLists a.poolSub b.poolSub, poolTop := addLists a.poolTop b.poolTop,
    counters := addLists a.counters b.counters, shares := addLists a.shares b.shares,
    snapSet := a.snapSet + b.snapSet }

/-- Whether the arguments of a request are sound (R344); `mine` is the reservation it leads to. -/
def Request.argsOk (q : Request) (commons : Bool) (mine : Resv) : Bool :=
  decide (q.ports.length ≤ 32) && (q.resv.top.all fun n => decide (n ≤ 64)) && (q.resv.shares.all fun n => decide (n ≤ 128)) &&
  (commons || (q.resv.poolSub.all (· == 0) && q.resv.poolTop.all (· == 0))) &&
  decide (sumNat mine.headroom ≤ 65535) &&
  (q.ports.all fun e => decide (e.port < 32) && e.reserved == 0 && decide (e.arrival < 2 ^ 17) &&
    e.arrival / 32768 == e.port / 8 && decide (e.arrival % 32768 < mine.counters.getD (e.port / 8) 0))

/-! ## Pages in use -/

/-- Every device page a context's reservation holds. -/
def Ctx.ownPages (c : Ctx) : List Nat :=
  c.pages.window.map PageMap.dev ++ c.pages.headroom ++ c.pages.area ++ c.pages.poolTop

/-- The device pages that reservations hold. -/
def State.usedPages (s : State) : List Nat := s.ctxs.flatMap Ctx.ownPages

/-- The pages withheld or retired that no reservation holds (R226, R238, R240). -/
def State.withheldPages (s : State) : List Nat :=
  let used := s.usedPages
  ((s.bg.withheld ++ s.bg.retired).eraseDups).filter fun p => !(used.contains p)

/-- The first page and number of pages of grain `g`'s slice. -/
def grainPages (g : Nat) : Nat × Nat := (64 * g, 64)

/-- The first page and number of pages of stack `st`. -/
def stackPages (st : Nat) : Nat × Nat := (16384 + 24576 * st, 24576)

/-- How many pages of a list lie in a range. -/
def countIn (l : List Nat) (r : Nat × Nat) : Nat := (l.filter fun p => decide (r.1 ≤ p) && decide (p < r.1 + r.2)).length

/-- Whether a stack's die is in service (R37). -/
def State.stackOk (s : State) (st : Nat) : Bool := s.dieOk (st / 3)

/-! ## Capacity (R225 to R227, R345) -/

/-- The sum of counts of one unit over contexts. -/
def sumOver (l : List Ctx) (f : Resv → List Nat) (u : Nat) : Nat := sumNat (l.map fun c => (f c.resv).getD u 0)

/-- Whether one item of a reservation fits at a unit: it asks for nothing there, or the unit is in service and the sum
stays within its limit. -/
def fitsAt (want : Nat) (inService : Bool) (total limit : Nat) : Bool := want == 0 || (inService && decide (total ≤ limit))

/-- The detail of the first item in the table of R225 that does not fit, ports apart; `others` are the other contexts,
`mine` the reservation asked for. -/
def State.misfit (s : State) (others : List Ctx) (mine : Resv) : Option Nat :=
  let held := s.withheldPages
  let topLimit (g : Nat) : Nat := 64 - countIn held (grainPages g)
  let subLimit (st : Nat) : Nat := 24576 - countIn held (stackPages st)
  let top (g : Nat) : Nat := sumOver others Resv.top g + sumOver others Resv.poolTop g + mine.top.getD g 0
  let subs := [Resv.sub, Resv.headroom, Resv.snap, Resv.poolSub]
  let sub (n st : Nat) : Nat := sumNat (subs.map fun f => sumOver others f st) + sumNat ((subs.take n).map fun f => (f mine).getD st 0)
  let stackFits (n : Nat) : Bool := (List.range 12).all fun st =>
    fitsAt (((subs.getD (n - 1) Resv.sub) mine).getD st 0) (s.stackOk st) (sub n st) (subLimit st)
  let grains (f : Nat → Bool) : Bool := (List.range 256).all f
  let items : List (Nat × Bool) :=
    [(1, grains fun g => fitsAt (mine.top.getD g 0) (s.grainOk g) (top g) (topLimit g)),
     (2, stackFits 1), (3, stackFits 2), (4, stackFits 3 && decide (mine.snapSet + 1 ≤ sumNat mine.snap)),
     (5, stackFits 4 && grains fun g =>
       fitsAt (mine.poolTop.getD g 0) (s.grainOk g) (top g + mine.poolTop.getD g 0) (topLimit g)),
     (6, (List.range 4).all fun d =>
       fitsAt (mine.counters.getD d 0) (s.dieOk d) (sumOver others Resv.counters d + mine.counters.getD d 0) 32768),
     (7, (List.range 64).all fun e =>
       fitsAt (mine.shares.getD e 0) (s.caps.copyEngines.getLsbD e) (sumOver others Resv.shares e + mine.shares.getD e 0) 128)]
  (items.find? fun p => !p.2).map Prod.fst

/-- Adds a binding for a port entry to those a context will have (R311, R345); none when the port is not in service,
the job tag is bound there already, or the port's limit is reached. -/
def State.bindEntry (s : State) (others : List Ctx) (got : List Binding) (e : PortEntry) : Option (List Binding) :=
  match s.ports[e.port]? with
  | none => none
  | some port =>
    let bound := (others.flatMap Ctx.bindings ++ got).filter fun b => b.port == e.port
    let limit := if port.fabric then 4096 else 64
    if !(s.caps.ports.getLsbD e.port) || port.phase == .retired || bound.any (fun b => b.tag == e.tag) ||
        (!port.fabric && got.any fun b => b.port == e.port) then none
    else (lowestBelow limit fun i => !(bound.any fun b => b.number == i)).map fun n =>
      got ++ [{ port := e.port, number := n, tag := e.tag, arrival := e.arrival }]

/-- The bindings a context has once every entry is bound. -/
def State.bindAll (s : State) (others : List Ctx) (old : List Binding) (es : List PortEntry) : Option (List Binding) :=
  es.foldlM (fun got e => s.bindEntry others got e) old

/-! ## Granting (R222, R223, R228) -/

/-- The first `n` pages from `p` on that `ok` admits, among `fuel` pages. -/
def takeFree (ok : Nat → Bool) : Nat → Nat → Nat → List Nat
  | 0, _, _ => []
  | _, _, 0 => []
  | fuel + 1, p, n + 1 => if ok p then p :: takeFree ok fuel (p + 1) n else takeFree ok fuel (p + 1) (n + 1)

/-- `n` free pages of a range: pages already zeroed first, the lowest first (R223: the firmware chooses). -/
def State.pick (s : State) (used : List Nat) (r : Nat × Nat) (n : Nat) : List Nat :=
  let free (p : Nat) : Bool := !(used.contains p) && !(s.bg.withheld.contains p) && !(s.bg.retired.contains p)
  let a := takeFree (fun p => free p && !(s.bg.zeroing.contains p)) r.2 r.1 n
  a ++ takeFree (fun p => free p && s.bg.zeroing.contains p) r.2 r.1 (n - a.length)

/-- Picks pages for a list of counts, one range for each unit; answers the pages of each unit and every page used. -/
def State.pickAll (s : State) (range : Nat → Nat × Nat) (counts : List Nat) (used : List Nat) : List (List Nat) × List Nat :=
  counts.zipIdx.foldl (fun acc p =>
    let got := s.pick acc.2 (range p.2) p.1
    (acc.1 ++ [got], acc.2 ++ got)) ([], used)

/-- The device pages mapped at the window pages of a range, in window order. -/
def devsIn (w : List PageMap) (lo n : Nat) : List Nat :=
  (w.filter fun m => decide (lo ≤ m.win) && decide (m.win < lo + n)).map PageMap.dev

/-- Maps device pages at consecutive window pages. -/
def mapAt (lo : Nat) (devs : List Nat) : List PageMap := devs.zipIdx.map fun p => { win := lo + p.2, dev := p.1 }

/-- A context's pages with those of a request added: each unit's new pages follow its old ones, and the commons pool's
subsoil pages follow the stack's reserved pages (R222). -/
def State.grantPages (s : State) (c : Ctx) (q : Resv) : CtxPages :=
  let top := s.pickAll grainPages q.top s.usedPages
  let sub := s.pickAll stackPages q.sub top.2
  let head := s.pickAll stackPages q.headroom sub.2
  let area := s.pickAll stackPages q.snap head.2
  let pool := s.pickAll stackPages q.poolSub area.2
  let poolTop := s.pickAll grainPages q.poolTop pool.2
  let w := c.pages.window
  let topMap := (List.range 256).flatMap fun g => mapAt (64 * g) (devsIn w (64 * g) 64 ++ top.1.getD g [])
  let subMap := (List.range 12).flatMap fun st =>
    let lo := 16384 + 24576 * st
    let n := c.resv.sub.getD st 0
    mapAt lo (devsIn w lo n ++ sub.1.getD st [] ++ devsIn w (lo + n) (24576 - n) ++ pool.1.getD st [])
  { window := topMap ++ subMap, headroom := c.pages.headroom ++ head.1.flatMap id, area := c.pages.area ++ area.1.flatMap id,
    poolTop := c.pages.poolTop ++ poolTop.1.flatMap id, fallback := c.pages.fallback }

/-- The results of a RESERVE: the context's totals (R345). -/
def Resv.totals (r : Resv) : List (Nat × Nat) :=
  [(4, sumNat r.top + sumNat r.poolTop), (5, sumNat r.sub + sumNat r.headroom + sumNat r.snap + sumNat r.poolSub),
   (6, sumNat r.counters)]

/-- Whether every page of a context is zeroed and every port it names has returned (R228, R465). -/
def State.reserveReady (s : State) (c : Ctx) : Bool :=
  !(c.ownPages.any s.bg.zeroing.contains) && !(c.bindings.any fun b => (s.ports[b.port]?).any Port.returning)

/-- Answers the RESERVEs that wait no longer (R228, R465). -/
def State.answerReserves (s : State) : State :=
  s.answerBusy fun b => match b with
    | .reserve id => match s.ctx? id with
      | some c => if s.reserveReady c then some (0, 0, c.resv.totals) else none
      | none => some (0x6021, 2, [])
    | _ => none

/-- The dies whose grains, stacks, engines or ports a request names (R345). -/
def Request.dies (q : Request) : List Nat :=
  (List.range 4).filter fun d =>
    (((q.resv.top.drop (64 * d)).take 64) ++ ((q.resv.poolTop.drop (64 * d)).take 64) ++
     ([q.resv.sub, q.resv.headroom, q.resv.snap, q.resv.poolSub].flatMap fun l => (l.drop (3 * d)).take 3) ++
     (q.resv.shares.drop (16 * d)).take 16).any (· != 0) || q.ports.any fun e => e.port / 8 == d

/-- Whether a RESERVE names a die in a partition reset, and so waits (R345). -/
def State.reserveWaits (s : State) (sl : Slot) : Bool :=
  (parseRequest sl.payload).dies.any fun d => s.resets.parts.any fun r => r.die == d

/-- The ports OFF that a RESERVE names begin their return to PROBE (R465). -/
def State.returnPorts (s : State) (ports : List Nat) : State :=
  ports.foldl (fun s p => s.mapPort p fun q => if q.phase = .off then { q with returning := true } else q) s

/-- A request granted: reservation, bindings and pages; it is answered once its pages are zeroed (R228, R345). -/
def State.grantReserve (s : State) (sl : Slot) (se : Session) (c : Ctx) (q : Request) (mine : Resv) (bs : List Binding) : State :=
  let pages := s.grantPages c q.resv
  let s := s.mapCtx c.id fun c =>
    { c with resv := mine, bindings := bs, pages, phase := if c.phase = .admitted then .reserved else c.phase }
  let s := (s.returnPorts (q.ports.map PortEntry.port)).sendTables (q.ports.map PortEntry.port)
  (s.setBusy se.id (.reserve c.id) sl).answerReserves

/-- What RESERVE does once it passes the checks to order 6. -/
def State.reserve (sl : Slot) (se : Session) (s : State) : State :=
  match s.ctx? (sl.w 4 % 256) with
  | none => s
  | some c =>
    let q := parseRequest sl.payload
    let mine := Resv.grow c.resv q.resv
    let others := s.ctxs.filter fun x => x.id != c.id
    if sl.len < 792 ∨ sl.len ≠ 792 + 16 * leAt sl.payload 788 4 then s.invalid se.id sl 2
    else if !sl.ctxOk || !(decide (sl.w 5 < 2)) || !(q.argsOk c.config.commonsOwner mine) then s.invalid se.id sl 3
    else if s.reserveWaits sl then (s.mapSession se.id fun x => { x with nextSeq := sl.seq.toNat }).deferCmd (.reserve sl)
    else
      match s.misfit others mine, s.bindAll others c.bindings q.ports with
      | some d, _ => s.refuse se.id sl 0x2001 d
      | none, none => s.refuse se.id sl 0x2001 8
      | none, some bs => s.grantReserve sl se c q mine bs

/-- RESERVE (R344, R345). -/
def execReserve (sl : Slot) (s : State) : Out := .next (s.command (.reserve sl) sl (sl.cmd == 0x11) (State.reserve sl))

/-! ## The end of a RELEASE (R346) -/

/-- Takes what a context has to send off the ports' queues, but for the completions it returns (R313). -/
def State.unsend (s : State) (c : Ctx) : State :=
  c.bindings.foldl (fun s b => s.mapPort b.port fun q => { q with link := { q.link with
    waiting := q.link.waiting.filter fun m => m.vc == 3 || m.peer.isSome || m.bind != b.number } }) s

/-- The message received in part on a binding is discarded whole and counted (R313). -/
def State.dropPart (s : State) (c : Ctx) (b : Binding) : State :=
  match (s.port? b.port).bind fun q => q.link.messages.find? fun m => m.bind == b.number && !m.bad with
  | none => s
  | some m => (s.countDrop c.id).mapPort b.port fun q => q.setRx m.vc b.number (some { m with bad := true })

/-- What is received in part for a context that stops is discarded: its last flit still returns the completion (R313). -/
def State.dropParts (s : State) (c : Ctx) : State := c.bindings.foldl (fun s b => s.dropPart c b) s

/-- The bindings of a context end, and what was received on them in part with them (R346). -/
def State.unbind (s : State) (c : Ctx) : State :=
  c.bindings.foldl (fun s b => s.mapPort b.port fun q => { q with link := { q.link with
    messages := q.link.messages.filter fun m => m.bind != b.number } }) (s.unsend c)

/-- Whether an address lies in a page. -/
def inPage (p a : Nat) : Bool := decide (pageAddr p ≤ a) && decide (a < pageAddr p + pageSize)

/-- Whether an uncorrectable error has come back in a topsoil page after a rewrite (R241): `topUe` lists each word
once for every time it was found. -/
def Background.recurs (bg : Background) (p : Nat) : Bool :=
  bg.topUe.any fun w => inPage p w && decide (2 ≤ (bg.topUe.filter (· == w)).length)

/-- The pages of a reservation that ends: they wait for zeroing, and a topsoil page whose error has come back is withheld
(R228, R239, R241). -/
def Background.freed (bg : Background) (pages : List Nat) : Background :=
  { bg with
    zeroing := (bg.zeroing ++ pages).eraseDups
    withheld := (pages.filter bg.recurs).foldl insertNew bg.withheld }

/-- Steps 2 to 5 of R346: the context is gone, its id free, its pages wait for zeroing, and the RELEASE is
answered; a RESERVE of it that waits is refused, and the refusal logged (R427, R481, log entry 61). -/
def State.finishRelease (s : State) (id : Nat) : State :=
  match s.ctx? id with
  | none => s
  | some c =>
    let s := ((s.discardWork id).cancelHandles id).bringResidency id []
    let s := s.unbind c
    let s := { s with
      ctxs := s.ctxs.filter fun x => x.id != id
      arbiter := { s.arbiter with objects := s.arbiter.objects.filter fun o => o.owner != id }
      bg := s.bg.freed c.ownPages }
    let waits := s.ligil.sessions.any fun se => se.busy.any fun b => b.1 == .reserve id
    let s := if waits then s.raise 0x6021 2 pkgPath id else s
    (s.sendTables (c.bindings.map Binding.port)).answerBusy fun b => match b with
      | .release i => if i = id then some (0, 0, []) else none
      | .reserve i => if i = id then some (0x6021, 2, []) else none
      | _ => none

/-! ## Commons (R347, R348) -/

/-- Whether an owner's objects are attached or held by any context (R230). -/
def State.commonsBusy (s : State) (id : Nat) : Bool :=
  s.arbiter.objects.any fun o => o.owner == id && (!o.holders.isEmpty || s.ctxs.any fun c => c.attached.contains o.entry.id)

/-- The 16-byte identity in a payload. -/
def payloadIdentity (sl : Slot) : BitVec 128 := BitVec.ofNat 128 (beNat (sl.payload.take 16))

/-- The checks of order 7 that the four commons rows share: `n` is the payload length. -/
def Slot.commonsArgs (sl : Slot) (n : Nat) : Option Nat :=
  if sl.len ≠ n then some 2
  else if !sl.ctxOk || !(decide (sl.w 5 < 4096)) || !(decide (sl.w 6 < 2)) then some 3
  else none

/-- What ATTACH_COMMONS with op 0 does once it passes the checks to order 6. -/
def State.attach (sl : Slot) (se : Session) (s : State) : State :=
  match s.ctx? (sl.w 4 % 256) with
  | none => s
  | some c =>
    match Slot.commonsArgs sl 0, s.object? (sl.w 5) with
    | some d, _ => s.invalid se.id sl d
    | none, none => s.invalid se.id sl 3
    | none, some o =>
      if c.attached.contains o.entry.id then s.ok se.id sl
      else if o.owner = c.id ∨ o.grants.contains c.config.owner then
        (s.mapCtx c.id fun c => { c with attached := c.attached ++ [o.entry.id] }).ok se.id sl
      else s.refuse se.id sl 0x6021 4

/-- ATTACH_COMMONS (R347). -/
def execAttachCommons (sl : Slot) (s : State) : Out :=
  .next (s.command (.attachCommons sl) sl (sl.cmd == 0x13 && !(bitOf (sl.w 6) 0)) (State.attach sl))

/-- What the grant and the revocation share: the orchestrator of the object's owner context names the identity. -/
def State.changeGrant (sl : Slot) (f : List (BitVec 128) → List (BitVec 128)) (se : Session) (s : State) : State :=
  match Slot.commonsArgs sl 16, s.object? (sl.w 5) with
  | some d, _ => s.invalid se.id sl d
  | none, none => s.invalid se.id sl 3
  | none, some o =>
    if o.owner ≠ sl.w 4 % 256 then s.refuse se.id sl 0x6021 5
    else (s.mapObject (sl.w 5) fun o => { o with grants := f o.grants }).ok se.id sl

/-- ATTACH_COMMONS_GRANT (R347). -/
def execAttachCommonsGrant (sl : Slot) (s : State) : Out :=
  .next (s.command (.attachCommonsGrant sl) sl (sl.cmd == 0x13 && bitOf (sl.w 6) 0)
    (State.changeGrant sl fun l => if l.contains (payloadIdentity sl) then l else l ++ [payloadIdentity sl]))

/-- What DETACH_COMMONS with op 0 does once it passes the checks to order 6: any residency is given up as an evict
would (R234). -/
def State.detach (sl : Slot) (se : Session) (s : State) : State :=
  match s.ctx? (sl.w 4 % 256) with
  | none => s
  | some c =>
    match Slot.commonsArgs sl 0 with
    | some d => s.invalid se.id sl d
    | none =>
      if c.attached.contains (sl.w 5) then
        let held := (s.object? (sl.w 5)).any fun o => o.holders.contains c.id
        let s := if held then s.dropResidency c.id (sl.w 5) else s
        (s.mapCtx c.id fun c => { c with attached := c.attached.filter (· != sl.w 5) }).ok se.id sl
      else s.ok se.id sl

/-- DETACH_COMMONS (R348). -/
def execDetachCommons (sl : Slot) (s : State) : Out :=
  .next (s.command (.detachCommons sl) sl (sl.cmd == 0x14 && !(bitOf (sl.w 6) 0)) (State.detach sl))

/-- DETACH_COMMONS_REVOKE (R348). -/
def execDetachCommonsRevoke (sl : Slot) (s : State) : Out :=
  .next (s.command (.detachCommonsRevoke sl) sl (sl.cmd == 0x14 && bitOf (sl.w 6) 0)
    (State.changeGrant sl fun l => l.filter (· != payloadIdentity sl)))

end Sys2Proof.Machine
end

