-- ==== Sys2Proof/Machine/Bulk.lean ====
section
/-! DEFINITION. Bulk data (R350): BIND_DATA_OPEN_IN, BIND_DATA_OPEN_OUT, BIND_DATA_CLOSE and BULK_FRAME. -/

namespace Sys2Proof.Machine

/-- Whether a window page is mapped writable. -/
def State.pageWritable (s : State) (c : Ctx) (w : Nat) : Bool := (s.translate c (pageAddr w)).any Prod.snd

/-- Whether a byte range lies in mapped subsoil window pages that `ok` admits. -/
def subsoilRange (ok : Nat → Bool) (start len : Nat) : Bool :=
  decide (0x1000000000 ≤ start) && decide (start + len ≤ 0xA000000000) &&
  (List.range ((start + len - 1) / pageSize + 1 - start / pageSize)).all fun i =>
    ok (16384 + (start - 0x1000000000) / pageSize + i)

/-- Bytes of the snapshot area, page by page; `k` bounds the pages (R350). -/
def State.areaPages (s : State) (c : Ctx) : Nat → Nat → Nat → Except Fail (List Byte)
  | 0, _, _ => .ok []
  | k + 1, off, n =>
    if n = 0 then .ok []
    else
      let m := pagePart off n
      match c.areaAddr off with
      | none => .error windowViolation
      | some a =>
        match s.ueIn a m with
        | some f => .error f
        | none => do return memBytes s.mem a m ++ (← s.areaPages c k (off + m) (n - m))

/-- Bytes of the snapshot area (R350). -/
def State.areaBytes (s : State) (c : Ctx) (start len : Nat) : Except Fail (List Byte) :=
  s.areaPages c (len / pageSize + 2) start len

/-- The bytes of a handle's range. -/
def State.handleBytes (s : State) (h : Handle) : Except Fail (List Byte) :=
  match s.ctx? h.ctx with
  | none => .error windowViolation
  | some c => if h.area then s.areaBytes c h.start h.length else s.rdBytes c h.start h.length

/-- A range cut into frames of at most 65,536 bytes. -/
def bulkFrames (handle : Nat) (data : List Byte) : List BulkOut :=
  (List.range (ceilDiv data.length 65536)).map fun i =>
    { handle, offset := 65536 * i, data := (data.drop (65536 * i)).take 65536 }

/-- Opens a handle for a session; answers its number. -/
def State.openHandle (s : State) (se : Session) (h : Handle) : State × Nat :=
  let id := s.ligil.nextHandle % 2 ^ 32
  let s := s.mapSession se.id fun x => { x with handles := x.handles ++ [{ h with id }] }
  ({ s with ligil := { s.ligil with nextHandle := s.ligil.nextHandle + 1 } }, id)

/-- The checks of an open (R350): a handle whose number is still to be given, or the refusal. A range of pages that a RESERVE
has not finished zeroing is not open to anyone (R228, R339). -/
def State.openChecks (s : State) (sl : Slot) (se : Session) (c : Ctx) : Except (Nat × Nat) Handle :=
  let area := bitOf (sl.w 5) 2
  let start := sl.w48 6
  let len := sl.w64 8
  if sl.len ≠ 0 then .error (0x4401, 2)
  else if !sl.ctxOk || !(decide (sl.w 5 < 8)) || sl.w 5 % 4 == 3 || !(decide (sl.w 7 < 65536)) ||
      !(decide (64 ≤ len)) || !(decide (len ≤ 2 ^ 40)) || !(decide (se.handles.length < 16)) then .error (0x4401, 3)
  else if area && !c.steps.isEmpty then .error (0x4403, placed 1 8 + c.phase.code)
  else if !(if area then decide (start + len ≤ c.pages.area.length * pageSize) && !(c.pages.area.any s.bg.zeroing.contains)
            else subsoilRange (s.pageWritable c) start len) then .error (0x4401, 3)
  else .ok { id := 0, ctx := c.id, inward := sl.w 5 % 4 == 0, area, start, length := len, exporting := false }

/-- What an open-in does once it passes the checks to order 6. -/
def State.openIn (sl : Slot) (se : Session) (s : State) : State :=
  match s.ctx? (sl.w 4 % 256) with
  | none => s
  | some c =>
    match s.openChecks sl se c with
    | .error r => s.refuse se.id sl r.1 r.2
    | .ok h =>
      let r := s.openHandle se h
      r.1.answer se.id sl 0 0 [(4, r.2)] []

/-- BIND_DATA_OPEN_IN (R350); the reserved op 0b11 is refused here. -/
def execBindDataOpenIn (sl : Slot) (s : State) : Out :=
  .next (s.command (.bindDataOpenIn sl) sl (sl.cmd == 0x21 && (sl.w 5 % 4 == 0 || sl.w 5 % 4 == 3)) (State.openIn sl))

/-- What an open-out does once it passes the checks to order 6: the range is read and its frames go out. -/
def State.openOut (sl : Slot) (se : Session) (s : State) : State :=
  match s.ctx? (sl.w 4 % 256) with
  | none => s
  | some c =>
    match s.openChecks sl se c with
    | .error r => s.refuse se.id sl r.1 r.2
    | .ok h =>
      match s.handleBytes h with
      | .error f => s.refuse se.id sl f.code f.detail
      | .ok data =>
        let r := s.openHandle se h
        let s := { r.1 with ligil := { r.1.ligil with frames := r.1.ligil.frames ++ bulkFrames r.2 data } }
        s.answer se.id sl 0 0 [(4, r.2)] []

/-- BIND_DATA_OPEN_OUT (R350). -/
def execBindDataOpenOut (sl : Slot) (s : State) : Out :=
  .next (s.command (.bindDataOpenOut sl) sl (sl.cmd == 0x21 && sl.w 5 % 4 == 1) (State.openOut sl))

/-- A handle is closed; the frames sent for it are no longer kept. -/
def State.dropHandle (s : State) (se : Session) (id : Nat) : State :=
  let s := s.mapSession se.id fun x => { x with handles := x.handles.filter fun h => h.id != id }
  { s with ligil := { s.ligil with frames := s.ligil.frames.filter fun f => f.handle != id } }

/-- A close of an open-in (R350): the range's CRC-32C decides whether the counter is signalled. -/
def State.closeIn (s : State) (sl : Slot) (se : Session) (c : Ctx) (h : Handle) : State :=
  let w := sl.w 12
  if !(decide (w < 2 ^ 18)) || (bitOf w 17 && !(c.hasCounter (w % 2 ^ 17))) then s.invalid se.id sl 3
  else
    let s := s.dropHandle se h.id
    match s.handleBytes h with
    | .error f => s.refuse se.id sl f.code f.detail
    | .ok data =>
      if crc32c data = sl.w 11 then
        (if bitOf w 17 then s.signal c.id pkgPath (w % 2 ^ 17) 1 else s).ok se.id sl
      else (s.undefHandle h).refuse se.id sl 0x2501 0

/-- What a close does once it passes the checks to order 6. -/
def State.closeBulk (sl : Slot) (se : Session) (s : State) : State :=
  match s.ctx? (sl.w 4 % 256) with
  | none => s
  | some c =>
    if sl.len ≠ 0 then s.invalid se.id sl 2
    else if !sl.ctxOk || !(decide (sl.w 5 < 8)) then s.invalid se.id sl 3
    else match se.handles.find? fun h => h.id == sl.w 10 && h.ctx == c.id && !h.exporting with
    | none => s.invalid se.id sl 3
    | some h =>
      if h.inward then s.closeIn sl se c h
      else
        let data := (s.ligil.frames.filter fun f => f.handle == h.id).flatMap BulkOut.data
        (s.dropHandle se h.id).answer se.id sl 0 0 [(4, crc32c data)] []

/-- BIND_DATA_CLOSE (R350). -/
def execBindDataClose (sl : Slot) (s : State) : Out :=
  .next (s.command (.bindDataClose sl) sl (sl.cmd == 0x21 && sl.w 5 % 4 == 2) (State.closeBulk sl))

/-- Bytes written into a context's snapshot area, of a frame that spans two pages at most. -/
def State.pokeArea (s : State) (c : Ctx) (start : Nat) (data : List Byte) : State :=
  let m := pagePart start data.length
  let put (s : State) (off : Nat) (bs : List Byte) : State := match c.areaAddr off with
    | some a => if bs.isEmpty then s else s.pokes a bs
    | none => s
  put (put s start (data.take m)) (start + m) (data.drop m)

/-- Whether a bulk frame is well formed: its head, its 16-byte bulk head's length and the 1 to 65,536 data bytes that
follow (R333, R350). -/
def bulkOk (conn : Nat) (head : FrameHead) (b : BulkHead) (data : List Byte) : Bool :=
  conn != 0 && head.ok conn 3 (16 + data.length) && b.len == data.length && !data.isEmpty && decide (b.len ≤ 65536) &&
  decide (b.handle < 2 ^ 32) && decide (b.offset < 2 ^ 64)

/-- BULK_FRAME (R350): a frame of data for an open-in; a malformed one, one for no such handle and one beyond its range
close the session (R333). -/
def execBulkFrame (conn : Nat) (head : FrameHead) (b : BulkHead) (data : List Byte) (s : State) : Out :=
  let h := (s.sessionOf conn).bind fun se => se.handles.find? fun h => h.id == b.handle && h.inward
  if s.frontStopped conn then .next s
  else match h.bind fun h => (s.ctx? h.ctx).map fun c => (h, c) with
  | none => if conn = 0 ∨ (s.conn? conn).isSome then .next (s.protocolError conn) else .next s
  | some (h, c) =>
    if !(bulkOk conn head b data) || !(decide (b.offset + data.length ≤ h.length)) then
      .next (s.protocolError conn)
    else if h.area then .next (s.pokeArea c (h.start + b.offset) data)
    else match s.wrBytes c.id (h.start + b.offset) data with
      | .ok s' => .next s'
      | .error _ => .next s

end Sys2Proof.Machine
end

