-- ==== Sys2Proof/Machine/PlanImage.lean ====
section
/-! DEFINITION. The plan image (R250 to R252, R257, R269): its header, stream directory and tables as LOAD_PLAN reads
them. -/

namespace Sys2Proof.Machine

/-- The header's fields (R250). -/
structure PlanHeader where
  magic : Nat
  version : Nat
  kind : Nat
  depth : Nat
  overlap : Bool
  length : Nat
  check : Nat
  formats : Nat
  units : Nat
  nFirst : Nat
  streams : Nat
  dirOff : Nat
  tensOff : Nat
  tensors : Nat
  commons : Nat
  comOff : Nat
  argOff : Nat
  args : Nat
  snapOff : Nat
  reservedOk : Bool
  deriving DecidableEq, Repr

/-- The header of an image (R250). -/
def parseHeader (b : List Byte) : PlanHeader :=
  let f (off len : Nat) : Nat := leAt b off len
  { magic := f 0 4, version := f 4 2, kind := f 6 1, depth := f 7 1 % 16, overlap := bitOf (f 7 1) 4, length := f 8 4,
    check := f 12 4, formats := f 16 2 % 1024, units := f 18 2 % 32, nFirst := f 24 6, streams := f 30 2, dirOff := f 32 4,
    tensOff := f 36 4, tensors := f 40 2, commons := f 42 2, comOff := f 44 4, argOff := f 48 4, args := f 52 4,
    snapOff := f 56 4
    reservedOk := decide (f 7 1 < 32) && decide (f 16 2 < 1024) && decide (f 18 2 < 32) && f 20 4 == 0 && f 60 4 == 0 }

/-- Bytes of the snapshot mark bitmap (R252). -/
def markBytes : Nat := 38912

/-- Whether a table of `n` entries of `size` bytes lies at an aligned offset within the image. -/
def tableOk (len off n size : Nat) : Bool := off % 64 == 0 && decide (off + n * size ≤ len)

/-- Order 1 of R253. -/
def headerOk (b : List Byte) (h : PlanHeader) : Bool :=
  decide (64 ≤ b.length) && h.magic == 0x314E4C50 && h.version == 1 && decide (h.kind < 3) && h.length == b.length &&
  decide (h.length ≤ 0x4000000) && h.check == crc32c (b.take 12 ++ [0, 0, 0, 0] ++ b.drop 16) && h.reservedOk &&
  decide (1 ≤ h.streams) && decide (h.streams ≤ 341) && decide (h.args ≤ 65535) && decide (h.commons ≤ 4096) &&
  tableOk b.length h.dirOff h.streams 16 && tableOk b.length h.tensOff h.tensors 64 &&
  tableOk b.length h.comOff h.commons 32 && tableOk b.length h.argOff h.args 64 && tableOk b.length h.snapOff markBytes 1

/-- A stream directory entry (R251). -/
structure DirEntry where
  path : Nat
  off : Nat
  count : Nat
  reservedOk : Bool
  deriving DecidableEq, Repr

/-- Entry `i` of the stream directory. -/
def parseDir (b : List Byte) (h : PlanHeader) (i : Nat) : DirEntry :=
  let e := sliceBytes b (h.dirOff + 16 * i) 16
  { path := leAt e 0 2 % 4096, off := leAt e 4 4, count := leAt e 8 4
    reservedOk := decide (leAt e 0 2 < 4096) && leAt e 2 2 == 0 && leAt e 12 4 == 0 }

/-- An instruction: eight little-endian words (R257). -/
def parseInstr (b : List Byte) (off : Nat) : List Nat :=
  let e := sliceBytes b off 32
  (List.range 8).map fun i => leAt e (4 * i) 4

/-- A stream with its instructions. -/
def parseStream (b : List Byte) (d : DirEntry) : PlanStream :=
  { path := d.path, instrs := (List.range d.count).map fun i => parseInstr b (d.off + 32 * i) }

/-- A scale descriptor from its 128 bits (R92). -/
def parseScale (r : Nat) : ScaleDesc :=
  { rotId := bitsOf r 127 112, rot := bitsOf r 111 110, track := bitOf r 109, intErr := bitsOf r 108 104,
    fmt := bitsOf r 103 100, axis := bitsOf r 99 96, reserved := bitsOf r 95 48, base := bitsOf r 47 0 }

/-- A tensor descriptor from its 64 bytes (R269). -/
def parseTensor (e : List Byte) : Tensor :=
  let f (off len : Nat) : Nat := leAt e off len
  { base := f 0 6, fmt := f 6 1 % 16, low := bitOf (f 6 1) 4, grow := bitsOf (f 6 1) 6 5, wvr := bitOf (f 7 1) 0,
    d0 := f 8 4, d1 := f 12 4, d2 := f 16 2, d3 := f 18 2, stream := f 20 4 % 2 ^ 22, wide := f 24 2, sieve := f 28 6,
    version := f 34 6, len0 := f 40 4
    reservedOk := !(bitOf (f 6 1) 7) && decide (f 7 1 < 2) && decide (f 20 4 < 2 ^ 22) && f 26 2 == 0 && f 44 4 == 0
    scaleRaw := f 48 16, scale := parseScale (f 48 16) }

/-- The bytes of a commons table entry. -/
def commonsBytes (b : List Byte) (h : PlanHeader) (i : Nat) : List Byte := sliceBytes b (h.comOff + 32 * i) 32

/-- A commons table entry with its placement list (R252). -/
def parseCommons (b : List Byte) (e : List Byte) : CommonsEntry :=
  let size := leAt e 2 2
  { id := leAt e 0 2 % 4096, size, home := leAt e 4 4, view := leAt e 8 6
    places := (sliceBytes b (leAt e 16 4) size).map BitVec.toNat, counter := leAt e 20 4 % 2 ^ 17 }

/-- The window pages a mark bitmap names (R252). -/
def parseMarks (m : List Byte) : List Nat :=
  m.zipIdx.flatMap fun p =>
    if p.1 = 0 then [] else ((List.range 8).filter fun i => p.1.getLsbD i).map fun i => 8 * p.2 + i

/-- A plan from an image at a window offset. -/
def parsePlan (off : Nat) (b : List Byte) : Plan :=
  let h := parseHeader b
  { offset := off, length := b.length, kind := h.kind, depth := h.depth, overlap := h.overlap, nFirst := h.nFirst,
    formats := h.formats, units := h.units
    streams := (List.range h.streams).map fun i => parseStream b (parseDir b h i)
    tensors := (List.range h.tensors).map fun i => parseTensor (sliceBytes b (h.tensOff + 64 * i) 64)
    args := (List.range h.args).map fun i => sliceBytes b (h.argOff + 64 * i) 64
    commons := (List.range h.commons).map fun i => parseCommons b (commonsBytes b h i)
    marks := parseMarks (sliceBytes b h.snapOff markBytes) }

end Sys2Proof.Machine
end

