-- ==== Sys2Proof/Machine/PlanCheck.lean ====
section
/-! DEFINITION. The checks of LOAD_PLAN (R253): orders 1 to 6 with the refusals of every chapter, and the two image
rules of R349. -/

namespace Sys2Proof.Machine

/-! ## Checks and refusals -/

/-- A refusal: status and detail. -/
abbrev Bad := Nat × Nat

/-- PLAN_INVALID with a detail. -/
def planBad (d : Nat) : Bad := (0x4001, d)

/-- UNIT_ABSENT (R7). -/
def unitAbsent : Bad := (0x4201, 0)

/-- Conditions that must hold, in order, each with the refusal it gives. -/
abbrev Checks := List (Bool × Bad)

/-- The refusal of the first condition that fails. -/
def Checks.first (l : Checks) : Option Bad := (l.find? fun c => !c.1).map Prod.snd

/-- A refusal with the stream directory index and the index within the stream (R349). -/
structure PlanRefusal where
  bad : Bad
  stream : Nat
  index : Nat
  deriving DecidableEq, Repr

/-- A failure outside an instruction (R349). -/
def outsideInstr (b : Bad) : PlanRefusal := { bad := b, stream := 0xFFFFFFFF, index := 0xFFFFFFFF }

/-- What the checks look at: the state, the context, and the plan. -/
structure Loading where
  s : State
  c : Ctx
  p : Plan

/-! ## Window regions (R222, R224, R270) -/

/-- Whether a range lies within bounds. -/
def within (lo hi off n : Nat) : Bool := decide (lo ≤ off) && decide (off + n ≤ hi)

/-- Within the topsoil window. -/
def inTop (off n : Nat) : Bool := within 0 0x800000000 off n

/-- Within the subsoil window. -/
def inSub (off n : Nat) : Bool := within 0x1000000000 0xA000000000 off n

/-- Within the commons resident view. -/
def inView (off n : Nat) : Bool := within 0xC000000000 0xD000000000 off n

/-- Within the fall-back window. -/
def inFallbackRange (off n : Nat) : Bool := within 0xE000000000 0xFF00000000 off n

/-- Within one region of R222. -/
def regionOk (off n : Nat) : Bool :=
  inTop off n || inSub off n || inView off n || within 0xD000000000 0xE000000000 off n || inFallbackRange off n ||
  within 0xFF00000000 0x1000000000000 off n

/-- A window offset, and the range that begins there, must lie in a region (R224). -/
def regionCheck (off n : Nat) : Bool × Bad := (regionOk off (max 1 n), planBad 0x0901)

/-- Whether the 64 bytes of a record lie in mapped topsoil or subsoil window pages (R127, R176). -/
def Loading.recordMapped (e : Loading) (off : Nat) : Bool :=
  (inTop off 64 || inSub off 64) && (e.s.translate e.c off).isSome && (e.s.translate e.c (off + 63)).isSome

/-- The bytes of a record as they stand; zeros where they cannot be read. -/
def Loading.bytes (e : Loading) (off n : Nat) : List Byte :=
  match e.s.rdBytes e.c off n with
  | .ok b => b
  | .error _ => List.replicate n 0

/-! ## Order 3: the stream directory (R251) -/

/-- The checks of a stream directory entry. -/
def Loading.dirChecks (s : State) (b : List Byte) (h : PlanHeader) (i : Nat) : Checks :=
  let d := parseDir b h i
  let level := d.path / 256
  let earlier := (List.range i).map fun j => (parseDir b h j).path
  [(d.reservedOk && decide (level ≤ 4) && decide (level ≤ h.depth) && d.path % 256 % 4 ^ level == 0 &&
      !(earlier.contains d.path) && decide (1 ≤ d.count) && tableOk b.length d.off d.count 32, planBad 0x0A02),
   (s.pedOk d.path, unitAbsent)]

/-! ## Order 4: tensors, commons, argument blocks -/

/-- A Sieve tensor record (R124, R127). Which refusal an offset outside every region gets, that of R224 or that of R127, the
spec does not say: 0x0901 comes first (DESIGN CHOICE, log entry 63). -/
def Loading.sieveChecks (e : Loading) (t : Tensor) : Checks :=
  let r := parseSieve (e.bytes t.sieve 64)
  [regionCheck t.sieve 64,
   (e.recordMapped t.sieve && r.reservedOk && r.fmt == t.fmt && (!t.positional || t.elem.isInt || r.headOk), planBad 0x0502)]

/-- A weight version record (R176). -/
def Loading.versionChecks (e : Loading) (t : Tensor) : Checks :=
  let w := parseWv (e.bytes t.version 64)
  [regionCheck t.version 64,
   (e.recordMapped t.version && w.reservedOk, planBad 0x0702),
   (w.frozen || e.c.hasCounter w.gate, planBad 0x0A05)]

/-- A scale descriptor of a narrow tensor (R92, R114, R271). -/
def scaleChecks (t : Tensor) : Checks :=
  let sc := t.scale
  [(sc.base % 64 == 0, planBad 0x0402),
   (sc.fmt == t.fmt && decide (sc.axis ≤ 3) && decide (sc.intErr ≤ 24) && sc.reserved == 0, planBad 0x0406),
   (sc.rot != 3, planBad 0x0403),
   (!(t.grow == 2 && sc.axis == 1), planBad 0x0A08),
   regionCheck sc.base 1]

/-- What a tensor occupies: its elements and, when it is narrow, its scale lines. -/
def Tensor.spans (t : Tensor) : List (Nat × Nat) :=
  [(t.base, storageBytes t)] ++ if t.narrow then [(t.scale.base, scaleBytes t)] else []

/-- The checks of a tensor descriptor (R40, R92, R269 to R271); the storage of no tensor runs past its region. -/
def Loading.tensorChecks (e : Loading) (t : Tensor) : Checks :=
  [(decide (t.fmt < 10), planBad 0x0204),
   (e.s.caps.formats.getLsbD t.fmt, unitAbsent),
   (t.base % 1024 == 0 && decide (1 ≤ t.d0) && decide (t.d0 ≤ 2 ^ 24) && decide (1 ≤ t.d1) && decide (t.d1 ≤ 2 ^ 24) &&
      decide (1 ≤ t.d2) && decide (1 ≤ t.d3) && t.grow != 3 && (!t.low || t.fmt == 2) && t.reservedOk &&
      (t.wide == 0xFFFF || decide (t.wide < e.p.tensors.length)) && (t.narrow || t.scaleRaw == 0) &&
      (!t.hasRecord || t.sieve % 64 == 0) && (!t.wvr || t.version % 64 == 0), planBad 0x0A06),
   (decide (t.len0 < t.d1) && (t.grow != 0 || t.len0 == 0), planBad 0x0A08),
   regionCheck t.base 1] ++
  (if t.narrow then scaleChecks t else []) ++
  (t.spans.map fun p => (regionOk p.1 p.2, planBad (if inFallback p.1 then 0x0505 else 0x0A07))) ++
  (if t.narrow && t.scale.rot != 0 then [(e.s.caps.units.getLsbD 0, unitAbsent)] else []) ++
  (if t.hasRecord then e.sieveChecks t else []) ++
  (if t.wvr then e.versionChecks t else [])

/-- Whether a page of the subsoil window belongs to the commons pool (R222). -/
def Ctx.poolPage (c : Ctx) (w : Nat) : Bool :=
  let st := w / 24576
  let n := c.resv.sub.getD st 0
  decide (st < 12) && decide (n ≤ w % 24576) && decide (w % 24576 < n + c.resv.poolSub.getD st 0)

/-- The checks of a commons table entry (R229, R252). -/
def Loading.commonsChecks (e : Loading) (b raw : List Byte) (earlier : List Nat) : Checks :=
  let o := parseCommons b raw
  let listOff := leAt raw 16 4
  [(e.c.config.commonsOwner && decide (leAt raw 0 2 < 4096) && decide (1 ≤ o.size) && decide (o.size ≤ 16384) &&
      leAt raw 14 2 == 0 && leAt raw 24 8 == 0 && decide (leAt raw 20 4 < 2 ^ 17) && o.view % pageSize == 0 &&
      decide (o.view + o.size * pageSize ≤ 0x1000000000) && decide (listOff + o.size ≤ b.length) && listOff % 64 == 0 &&
      ((List.range o.size).all fun j => e.c.poolPage (o.home + j)) && (o.places.all fun g => decide (g < 256)) &&
      !(earlier.contains o.id), planBad 0x0A03),
   (e.c.hasCounter o.counter, planBad 0x0A05)]

/-! ## Order 5: what instructions share -/

/-- A descriptor that names nothing. -/
def noTensor : Tensor := parseTensor (List.replicate 64 0)

/-- The tensor of an index. -/
def Loading.t (e : Loading) (i : Nat) : Tensor := (e.p.tensors[i]?).getD noTensor

/-- A half word of words 4 to 7: 0 to 7. -/
def half (ws : List Nat) (k : Nat) : Nat := if k % 2 = 0 then wLo ws (4 + k / 2) else wHi ws (4 + k / 2)

/-- The half words of words 4 to 7 that an opcode does not use must be 0 (R257). -/
def unused (ws : List Nat) (used : List Nat) : Bool × Bad :=
  ((List.range 8).all fun k => used.contains k || half ws k == 0, planBad 0x0A04)

/-- The class flags an opcode does not use must be 0 (R257). -/
def flagsBelow (ws : List Nat) (n : Nat) : Bool × Bad := (decide (wCf ws < 2 ^ n), planBad 0x0A04)

/-- A tensor index must lie in the table, and only an OPTIMISE names a low half (R173). -/
def Loading.named (e : Loading) (i : Nat) : Checks :=
  [(decide (i < e.p.tensors.length), planBad 0x0A06), (!(e.t i).low, planBad 0x0701)]

/-- An argument index must lie in the argument area. -/
def Loading.argOk (e : Loading) (i : Nat) : Bool × Bad := (decide (i < e.p.args.length), planBad 0x0A06)

/-- A counter index must lie within the context's counters (R261). -/
def Loading.counterOk (e : Loading) (i : Nat) : Bool × Bad := (e.c.hasCounter i, planBad 0x0A05)

/-- A wait's reference (R261): a counter of the context, or the counter of an object it has attached. -/
def Loading.waitRefOk (e : Loading) (ref : Nat) : Checks :=
  if bitOf ref 17 then
    [(bitsOf ref 16 12 == 0, planBad 0x0A04), (e.c.attached.contains (ref % 4096), planBad 0x0A05)]
  else [e.counterOk (ref % 2 ^ 17)]

/-- How an instruction uses an operand (R135, R270). -/
inductive Role where
  | read
  | write
  | wide
  deriving DecidableEq, Repr

/-- Whether some descriptor names a tensor as its wide source. -/
def Loading.isWideSource (e : Loading) (i : Nat) : Bool := e.p.tensors.any fun t => t.wide == i

/-- Where an operand of an array, vector unit or conversion unit may lie (R135, R270): its elements and, when it is
narrow, its scale lines. -/
def Loading.place (e : Loading) (i : Nat) (role : Role) : Checks :=
  (e.t i).spans.map fun p =>
    let ok := inTop p.1 p.2 || (role != .write && inView p.1 p.2) ||
      (inFallbackRange p.1 p.2 && (role == .wide || (role == .write && e.isWideSource i)))
    (ok, planBad (if inFallback p.1 then 0x0505 else 0x0A07))

/-- The checks of a read operand. -/
def Loading.reads (e : Loading) (i : Nat) : Checks := e.named i ++ e.place i .read

/-- The checks of a destination written through a conversion unit from values of format `src` (R50, R114, R173). -/
def Loading.writes (e : Loading) (i : Nat) (src : ElemFmt) : Checks :=
  let t := e.t i
  let rotated := t.narrow && t.scale.rot != 0
  e.named i ++
  [(!rotated || ([ElemFmt.fp32, .bf16, .fp16].contains src && [ElemFmt.e4m3, .e3m2, .e2m1, .int8, .int4].contains t.elem),
      planBad 0x0403),
   (!(e.p.highs.contains i), planBad 0x0701)] ++
  e.place i .write

/-- A length as LOAD_PLAN compares it (R271): a number, or len0 + i + 1 in every iteration i. -/
inductive Len where
  | fixed (n : Nat)
  | grows (len0 : Nat)
  deriving DecidableEq, Repr

/-- A tensor's d1 as its instructions see it (R271): a row view has one row, and outside a generation loop i is 0. -/
def Loading.rows (e : Loading) (t : Tensor) : Len :=
  match t.grow with
  | 1 => if e.p.kind = 2 then .grows t.len0 else .fixed (t.len0 + 1)
  | 2 => .fixed 1
  | _ => .fixed t.d1

/-- The lengths of a tensor as its instructions see it. Shapes that differ in some iteration disagree (log entry 151). -/
def Loading.dims (e : Loading) (t : Tensor) : List Len := [.fixed t.d0, e.rows t, .fixed t.d2, .fixed t.d3]

/-- The number of elements a tensor's lengths give, where that is one number or one growing length. -/
def Loading.holds (e : Loading) (t : Tensor) : Option Len :=
  match e.rows t with
  | .fixed n => some (.fixed (t.d0 * n * t.d2 * t.d3))
  | .grows l => if t.d0 * t.d2 * t.d3 = 1 then some (.grows l) else none

/-- The number of logical positions of a tensor. -/
def Tensor.positions (t : Tensor) : Nat := t.d0 * t.d1 * t.d2 * t.d3

/-- A draw stream's tensor has at most 2^44 logical positions (R205). -/
def Loading.drawOk (e : Loading) (i : Nat) : Bool × Bad := (decide ((e.t i).positions ≤ 2 ^ 44), planBad 0x0801)

/-- The common words of an instruction (R257, R261). They are common to every class, so that no opcode leaves a field of them
unused; without wv or sv the fields of the wait or of the signal say nothing. -/
def Loading.commonChecks (e : Loading) (ws : List Nat) : Checks :=
  let w1 := wordAt ws 1
  let w3 := wordAt ws 3
  [((laneOf ws).isSome, planBad 0x0A04)] ++
  (if bitOf w1 18 then e.waitRefOk (bitsOf w1 17 0) else []) ++
  (if bitOf w3 17 then [(decide (0 < bitsOf w3 31 18), planBad 0x0A05), e.counterOk (bitsOf w3 16 0)] else [])

/-! ## Array products (R49, R70, R78, R91, R114, R133, R135, R154, R167, R273) -/

/-- Whether the named array accepts an operand pair (R49). -/
def pairOk (fwd : Bool) (a b : ElemFmt) : Bool :=
  if fwd then
    ([ElemFmt.e4m3, .e3m2, .e2m1].contains a && [ElemFmt.e4m3, .e3m2, .e2m1].contains b) || (a.isInt && b.isInt)
  else (a == b && (a == .bf16 || a == .fp16)) ||
    ([ElemFmt.e5m2, .e4m3].contains a && [ElemFmt.e5m2, .e4m3].contains b)

/-- Products of the plan before one, in plan order. -/
def Plan.before (p : Plan) (stream index : Nat) : List (List Nat) :=
  (p.instructions.filter fun i => decide (i.1 < stream) || (i.1 == stream && decide (i.2.1 < index))).map fun i => i.2.2

/-- The checks of the wide sources of a product (R133, R135). -/
def Loading.wideChecks (e : Loading) (ws : List Nat) (stream index : Nat) : Checks :=
  let named := (e.p.narrowOperands ws).filter fun t => t.wide != 0xFFFF
  let mine := e.p.workspace ws
  (named.flatMap fun t =>
    e.named t.wide ++ [((e.t t.wide).elem == .bf16 || (e.t t.wide).elem == .fp32, planBad 0x0503)] ++ e.place t.wide .wide) ++
  [(!(e.p.eligible ws) || !((e.p.before stream index).any fun w => e.p.eligible w && (e.p.workspace w).any mine.contains),
    planBad 0x0505)]

/-- The checks of an array product; its mask argument block stands at order 4. -/
def Loading.productChecks (e : Loading) (ws : List Nat) (stream index : Nat) : Checks :=
  let q := productOf ws
  let a := e.t q.a
  let b := e.t q.b
  let k := if q.ta then e.rows a else .fixed a.d0
  let m := if q.ta then .fixed a.d0 else e.rows a
  let kb := if q.tb then .fixed b.d0 else e.rows b
  let n := if q.tb then e.rows b else .fixed b.d0
  let shape := (if q.tc then [m, n] else [n, m]) ++ [.fixed a.d2, .fixed a.d3]
  let axisOk (t : Tensor) (axis : Nat) : Bool := !t.narrow || t.scale.axis == axis
  let rot (t : Tensor) : Nat := if t.narrow then t.scale.rot else 0
  let rotated := rot a != 0 || rot b != 0
  [(!(bitOf (wCf ws) 7) && (!q.forward || q.bsel == 0) && decide (wordAt ws 7 < 2 ^ 18), planBad 0x0A04),
   (q.bsel != 3, planBad 0x0604),
   (q.bsel != 2 || e.s.caps.units.getLsbD 2, unitAbsent)] ++
  e.named q.a ++ e.named q.b ++
  [(pairOk q.forward a.elem b.elem, planBad 0x0201),
   (k != .fixed 0, planBad 0x0301),
   (k == kb && ([b.d2, b.d3] == [a.d2, a.d3] || [b.d2, b.d3] == [1, 1]), planBad 0x0A0E),
   (axisOk a (if q.ta then 1 else 0) && axisOk b (if q.tb then 0 else 1), planBad 0x0401),
   (!rotated || q.forward, planBad 0x0403),
   (!rotated || (rot a == rot b && a.scale.rotId == b.scale.rotId), planBad 0x0404),
   (!rotated || (if q.ta then a.d1 else a.d0) % (if rot a = 1 then 32 else 128) == 0, planBad 0x0405)] ++
  e.place q.a .read ++ e.place q.b .read ++
  (if q.bias = 0xFFFF then [] else
    e.named q.bias ++ [([ElemFmt.fp32, .bf16, .fp16].contains (e.t q.bias).elem, planBad 0x0302),
                       (e.holds (e.t q.bias) == some n, planBad 0x0A0E)] ++ e.place q.bias .read) ++
  (if q.toAcc then [] else e.named q.c ++ [(e.dims (e.t q.c) == shape, planBad 0x0A0E)] ++ e.writes q.c .fp32) ++
  (if q.cont || q.toAcc then
    [(q.acc != 0xFFFF, planBad 0x0A0C)] ++ e.named q.acc ++
    [((e.t q.acc).elem == .fp32 && e.dims (e.t q.acc) == shape, planBad 0x0A0C)] ++
    (if q.cont then e.place q.acc .read else []) ++ (if q.toAcc then e.writes q.acc .fp32 else [])
   else [(q.acc == 0xFFFF, planBad 0x0A0C)]) ++
  (if q.mask = 0xFFFF then [] else [e.argOk q.mask]) ++
  (if bitOf (wordAt ws 7) 17 then [e.counterOk (bitsOf (wordAt ws 7) 16 0)] else []) ++
  e.wideChecks ws stream index

/-! ## Vector instructions (R48, R164, R165, R274 to R276, R287, R482) -/

/-- The half word that names a vector instruction's destination tensor. -/
def vectorDest (op : Nat) : Option Nat :=
  match op with
  | 0x20 => some 3
  | 0x21 => some 2
  | 0x22 => some 3
  | 0x23 => some 3
  | 0x24 => some 1
  | 0x25 => some 0
  | 0x26 => some 1
  | _ => none

/-- The half word that names a vector instruction's argument block, when it takes one. -/
def vectorArg (ws : List Nat) : Option Nat :=
  match wOp ws with
  | 0x20 => if wCf ws % 32 = 0x0C ∨ wCf ws % 32 = 0x0D then some 4 else none
  | 0x22 => some 4
  | 0x23 => some 4
  | 0x24 => some 2
  | 0x25 => some 2
  | 0x26 => some 2
  | 0x27 => some 1
  | 0x28 => some 0
  | _ => none

/-- The half words a vector opcode uses (R272). -/
def vectorUsed (op : Nat) : List Nat :=
  match op with
  | 0x20 => [0, 1, 2, 3, 4]
  | 0x21 => [0, 1, 2]
  | 0x22 => [0, 1, 2, 3, 4]
  | 0x23 => [0, 1, 2, 3, 4]
  | 0x24 => [0, 1, 2]
  | 0x25 => [0, 2]
  | 0x26 => [0, 1, 2]
  | 0x27 => [0, 1]
  | _ => [0]

/-- The reserved class flags and codes of a vector instruction (R274 to R276). -/
def vectorFlags (ws : List Nat) : Checks :=
  match wOp ws with
  | 0x20 => [(decide (wCf ws ≤ 0x10), planBad 0x0A04)]
  | 0x21 => [flagsBelow ws 2]
  | 0x22 => [(decide (wCf ws < 3), planBad 0x0A04)]
  | 0x23 => [(decide (wCf ws < 3), planBad 0x0A04)]
  | 0x24 => [flagsBelow ws 2]
  | 0x25 => [(decide (wCf ws < 16) && wCf ws % 4 != 3, planBad 0x0A04),
             (!(wCf ws % 4 == 2 && wCf ws / 4 != 0), planBad 0x0802)]
  | 0x27 => [flagsBelow ws 1]
  | _ => [flagsBelow ws 0]

/-- The half words of a vector instruction that name a tensor or an argument which its operation does not use (R272): they
name none, or one within its table (R292). -/
def Loading.idleNames (e : Loading) (ws : List Nat) : Checks :=
  let used := vectorReads ws ++ (vectorDest (wOp ws)).toList ++ (vectorArg ws).toList
  ((vectorUsed (wOp ws)).filter fun k => !(used.contains k)).map fun k =>
    let i := half ws k
    let n := if wOp ws ≤ 0x23 ∧ k = 4 then e.p.args.length else e.p.tensors.length
    (i == 0xFFFF || decide (i < n), planBad 0x0A06)

/-- Operand shapes of a vector instruction (R482). -/
def Loading.vectorShape (e : Loading) (ws : List Nat) : Bool :=
  let d (k : Nat) : List Len := e.dims (e.t (half ws k))
  let one : Len := .fixed 1
  let x := d 0
  let rowOf (l : List Len) : List Len := [l.getD 0 one, one, one, one]
  match wOp ws with
  | 0x20 =>
    let o := d 3
    let k := wCf ws % 32
    let column : List Len := [one, o.getD 1 one, one, one]
    if k = 0x0E then
      x.head? == o.head? && (x.drop 2 == o.drop 2 || x.drop 2 == [one, one]) && (d 1 == column || d 1 == one :: o.drop 1)
    else if k = 0x0D then x == o
    else if k = 0x0F then x == o && d 1 == o
    else (vectorReads ws).all fun h => [o, rowOf o, column, [one, one, one, one]].contains (d h)
  | 0x21 => d 2 == one :: x.drop 1 && (wCf ws % 4 != 3 || d 1 == x)
  | 0x22 => d 3 == x && (wCf ws % 4 == 2 || d 1 == rowOf x) && (wCf ws % 4 != 1 || d 2 == rowOf x)
  | 0x23 => d 2 == x && d 3 == x && (wCf ws % 4 == 2 || d 1 == rowOf x)
  | _ => true

/-- The format a vector instruction hands to the conversion unit (R482). -/
def Loading.vectorSource (e : Loading) (ws : List Nat) : ElemFmt :=
  let wide := (vectorReads ws).any fun k => (e.t (half ws k)).elem == .fp64
  let dest := (vectorDest (wOp ws)).any fun k => (e.t (half ws k)).elem == .fp64
  if (wOp ws = 0x20 ∨ wOp ws = 0x21) ∧ !(fp32Only ws) ∧ (wide ∨ dest) then .fp64 else .fp32

/-- Whether a vector instruction draws for its destination (R206, R275). -/
def vectorDraws (ws : List Nat) : Bool :=
  wOp ws == 0x24 || wOp ws == 0x26 || (wOp ws == 0x25 && wCf ws % 4 != 0)

/-- A clip record that is enabled has a finite, positive max_norm and a finite eps that is not negative (R190). -/
def Loading.clipOk (e : Loading) (off : Nat) : Bool × Bad :=
  let b := e.bytes off 32
  let positive (x : Nat) : Bool := match fp64.decode x with
    | .fin false m _ => m != 0
    | _ => false
  let notNegative (x : Nat) : Bool := match fp64.decode x with
    | .fin neg m _ => !neg || m == 0
    | _ => false
  (!(bitOf (leAt b 28 4) 0) || (positive (leAt b 0 8) && notNegative (leAt b 8 8)), planBad 0x0705)

/-- The checks of a vector instruction's argument block, by opcode (R276, R287). -/
def Loading.vectorArgChecks (e : Loading) (op : Nat) (a : List Byte) : Checks :=
  match op with
  | 0x26 =>
    let invT := leAt a 0 4
    let topP := leAt a 8 4
    let tempOk : Bool := match fp32.decode invT with
      | .fin neg m _ => !neg && m != 0
      | .inf neg => !neg
      | .nan => false
    let topOk : Bool := match fp32.decode topP with
      | .fin neg m _ => !neg && m != 0 && decide (topP ≤ 0x3F800000)
      | _ => false
    [(tempOk && topOk, planBad 0x0A0B), regionCheck (leAt a 28 6) 4]
  | 0x27 => [regionCheck (leAt a 0 6) 8, regionCheck (leAt a 8 6) 4]
  | 0x28 => [regionCheck (leAt a 0 6) 8, regionCheck (leAt a 8 6) 32, e.clipOk (leAt a 8 6)]
  | _ => []

/-- The checks of a vector instruction. -/
def Loading.vectorChecks (e : Loading) (ws : List Nat) : Checks :=
  let reads := (vectorReads ws).map (half ws)
  let dest := (vectorDest (wOp ws)).map (half ws)
  let clip := wOp ws == 0x27 || wOp ws == 0x28
  [unused ws (vectorUsed (wOp ws))] ++ vectorFlags ws ++ e.idleNames ws ++ [(!clip || e.s.caps.units.getLsbD 1, unitAbsent)] ++
  (reads.flatMap e.named) ++ (dest.toList.flatMap e.named) ++
  (reads.map fun i => (!(e.t i).narrow && !(fp32Only ws && (e.t i).elem == .fp64), planBad 0x0206)) ++
  [(!(wOp ws == 0x22 || wOp ws == 0x23) || decide ((e.t (half ws 0)).d0 ≤ 262144), planBad 0x0603),
   (e.vectorShape ws, planBad 0x0A0E)] ++
  (reads.flatMap fun i => e.place i .read) ++
  (match vectorArg ws with
   | some k => [e.argOk (half ws k)]
   | none => []) ++
  (match dest with
   | some i => (if vectorDraws ws then [e.drawOk i] else []) ++ e.writes i (e.vectorSource ws)
   | none => [])

/-! ## CONVERT and OPTIMISE (R52 to R60, R114, R184, R185, R189, R277) -/

/-- The checks of a CONVERT. -/
def Loading.convertChecks (e : Loading) (ws : List Nat) : Checks :=
  let src := e.t (half ws 0)
  let dst := e.t (half ws 1)
  let rnd := Rnd.ofCode (wCf ws % 4)
  [unused ws [0, 1], flagsBelow ws 3] ++ e.named (half ws 0) ++ e.named (half ws 1) ++
  [(e.dims src == e.dims dst, planBad 0x0A0E),
   (convPermitted src.elem dst.elem rnd, planBad 0x0202),
   (!(bitOf (wCf ws) 2) || !dst.narrow || dst.elem == .e5m2 || dst.elem == .e4m3, planBad 0x0203)] ++
  (if wCf ws % 4 = 2 ∧ !(convExact src.elem dst.elem) then [e.drawOk (half ws 1)] else []) ++
  e.place (half ws 0) .read ++ e.writes (half ws 1) src.elem

/-- A moment or image operand: its index, when it names one. -/
def Loading.opt? (ws : List Nat) (k : Nat) : Option Nat := if half ws k = 0xFFFF then none else some (half ws k)

/-- The checks of an OPTIMISE. -/
def Loading.optimiseChecks (e : Loading) (ws : List Nat) : Checks :=
  let hi := e.t (half ws 0)
  let lo := e.t (half ws 1)
  let r := parseWv (e.bytes hi.version 64)
  let masked := bitOf (leAt (e.p.arg (half ws 7)) 30 1) 0
  let m := Loading.opt? ws 3
  let v := Loading.opt? ws 4
  let images := (Loading.opt? ws 5).toList ++ (Loading.opt? ws 6).toList
  let compact := !e.c.config.reference
  let fmtOk (o : Option Nat) (c ref : ElemFmt) : Bool :=
    o.all fun i => (e.t i).elem == (if compact then c else ref) && (!compact || (e.t i).scale.track)
  let named := m.toList ++ v.toList ++ images
  [flagsBelow ws 0] ++ e.named (half ws 0) ++
  [(decide (half ws 1 < e.p.tensors.length), planBad 0x0A06),
   (hi.wvr && hi.elem == .bf16 && lo.low && lo.elem == .bf16 && e.dims lo == e.dims hi, planBad 0x0701)] ++
  (if r.opt = 2 ∧ half ws 2 = 0xFFFF then [] else e.named (half ws 2)) ++ named.flatMap e.named ++ [e.argOk (half ws 7)] ++
  [(!(r.frozen && decide (r.opt < 2)), planBad 0x0702),
   (r.masked == masked, planBad 0x0702),
   (v.isSome == (r.opt == 0) && m.isSome == decide (r.opt < 2), planBad 0x0A0A),
   ((r.opt == 2 && half ws 2 == 0xFFFF) || (e.t (half ws 2)).elem == .fp32, planBad 0x0704),
   (fmtOk m .e4m3 .fp32 && fmtOk v .e5m2 .fp32 && fmtOk (Loading.opt? ws 6) .e4m3 .bf16, planBad 0x0704)] ++
  (if compact then (m.toList ++ v.toList).map e.drawOk else []) ++
  (if half ws 2 = 0xFFFF then [] else e.place (half ws 2) .read) ++
  e.place (half ws 0) .write ++ e.place (half ws 1) .write ++
  ((m.toList ++ v.toList).flatMap fun i => e.writes i .fp32) ++ (images.flatMap fun i => e.writes i .bf16)

/-! ## Copies and commons (R230, R283, R284) -/

/-- The engine of a copy instruction lies in the context's share (R284). -/
def Loading.engineOk (e : Loading) (ws : List Nat) : Checks :=
  [flagsBelow ws 6, (decide (0 < e.c.resv.shares.getD (wCf ws % 64) 0), planBad 0x0A09)]

/-- The checks of a COPY. -/
def Loading.copyChecks (e : Loading) (ws : List Nat) : Checks :=
  let src := copySrc ws
  let dst := copyDst ws
  let n := copyLen ws
  e.engineOk ws ++
  [(src % 64 == 0 && dst % 64 == 0 && decide (0 < n), planBad 0x0A09),
   (decide (src + n ≤ dst) || decide (dst + n ≤ src), planBad 0x0A09),
   regionCheck src n, regionCheck dst n]

/-- The checks of a COPY_PORT. -/
def Loading.copyPortChecks (e : Loading) (ws : List Nat) : Checks :=
  let src := copySrc ws
  let n := portLines ws * 64
  e.engineOk ws ++
  [(bitsOf (wordAt ws 5) 31 21 == 0, planBad 0x0A04),
   (e.c.bindings.any fun b => b.port == copyPortOf ws, planBad 0x0A09),
   (src % 64 == 0 && portDst ws % 64 == 0 && decide (0 < n), planBad 0x0A09),
   regionCheck src n, regionCheck (portDst ws) n]

/-- The checks of PROMOTE, EVICT and SEAL (R229, R230, R272). -/
def Loading.commonsInstrChecks (e : Loading) (ws : List Nat) : Checks :=
  let obj := wordAt ws 4 % 4096
  e.engineOk ws ++
  [(decide (wordAt ws 4 < 4096) && wordAt ws 5 == 0 && wordAt ws 6 == 0 && wordAt ws 7 == 0, planBad 0x0A04),
   ((if wOp ws = 0x43 then e.p.commons.any fun o => o.id == obj else e.c.attached.contains obj), planBad 0x0902)]

/-! ## Synchronisation, collectives, control (R263, R272, R278, R279, R314 to R320) -/

/-- The two further waits of a SYN_WAIT (R263); a pair without valid says nothing. -/
def Loading.synWaitChecks (e : Loading) (ws : List Nat) : Checks :=
  [flagsBelow ws 0, (decide (wordAt ws 4 < 2 ^ 19) && decide (wordAt ws 6 < 2 ^ 19), planBad 0x0A04)] ++
  [4, 6].flatMap fun i => if bitOf (wordAt ws i) 18 then e.waitRefOk (bitsOf (wordAt ws i) 17 0)
    else []

/-- The two further signals of a SYN_SIGNAL (R263); a pair without valid says nothing. -/
def Loading.synSignalChecks (e : Loading) (ws : List Nat) : Checks :=
  [flagsBelow ws 0, (decide (wordAt ws 4 < 2 ^ 18) && decide (wordAt ws 6 < 2 ^ 18), planBad 0x0A04)] ++
  [4, 6].flatMap fun i =>
    if bitOf (wordAt ws i) 17 then
      [(decide (0 < wordAt ws (i + 1)), planBad 0x0A05), e.counterOk (bitsOf (wordAt ws i) 16 0)]
    else []

/-- The group argument block of a collective (R315). -/
def Loading.groupChecks (e : Loading) (i : Nat) : Checks :=
  let g := e.p.group i
  [(decide (1 ≤ g.size) && decide (g.size ≤ 256) && decide (g.rank < g.size) && decide (g.budget < g.size) && g.reservedOk &&
      (g.count == noOffset || g.count % 4 == 0) && (g.mask == noOffset || g.mask % 32 == 0) &&
      decide (i + ceilDiv g.size 16 < e.p.args.length), planBad 0x0B01),
   (g.members.zipIdx.all fun m => m.2 == g.rank || e.c.bindings.any fun b => b.port == m.1.port, planBad 0x0B04),
   (g.count == noOffset || regionOk g.count 4, planBad 0x0901),
   (g.mask == noOffset || regionOk g.mask 32, planBad 0x0901)]

/-- Whether R318 permits source, destination and flags together. -/
def reduceOk (s d : ElemFmt) (cf : Nat) : Bool :=
  match cf with
  | 0 => ([ElemFmt.e5m2, .bf16, .fp32].contains s && d == .fp32) || (s == .fp64 && d == .fp64)
  | 2 => (s == .fp32 || s == .fp64) && d == s
  | 1 => s == .fp32 && d == .fp32
  | _ => false

/-- The fall-back window holds no operand of a collective (R135). -/
def Loading.offFallback (e : Loading) (i : Nat) : Checks :=
  (e.t i).spans.map fun p => (!(inFallback p.1), planBad 0x0505)

/-- The checks of ALL_REDUCE and REDUCE_SCATTER (R135, R173, R316, R318). The staging tensor is written. -/
def Loading.reduceChecks (e : Loading) (ws : List Nat) : Checks :=
  let g := e.p.group (half ws 2)
  let src := e.t (half ws 0)
  let dst := e.t (half ws 1)
  let runs := ceilDiv (storageElems src) 32
  let need := g.size * ceilDiv runs (max 1 (g.size - g.budget)) * slotBytes src.elem
  if bitOf (wCf ws) 2 then
    [(wOp ws == 0x60 && half ws 0 == half ws 1 && src.narrow && wCf ws == 4, planBad 0x0B02)] ++
    (if half ws 3 = 0xFFFF then [] else e.named (half ws 3))
  else
    [(reduceOk src.elem dst.elem (wCf ws) && e.dims src == e.dims dst, planBad 0x0B02),
     (half ws 3 != 0xFFFF, planBad 0x0B03)] ++ e.named (half ws 3) ++
    [(!(e.p.highs.contains (half ws 3)), planBad 0x0701)] ++ e.offFallback (half ws 3) ++
    [(decide (need ≤ storageBytes (e.t (half ws 3))), planBad 0x0B03)]

/-- The checks of ALL_GATHER and RING_PASS (R320). -/
def Loading.gatherChecks (e : Loading) (ws : List Nat) : Checks :=
  let g := e.p.group (half ws 2)
  let src := e.t (half ws 0)
  let dst := e.t (half ws 1)
  [(dst.elem == src.elem && e.dims dst == [.fixed src.d0, e.rows src, .fixed src.d2, .fixed (g.size * src.d3)] &&
      (!src.narrow || decide (src.scale.axis ≤ 1)) && (wOp ws != 0x63 || decide (half ws 4 < g.size)), planBad 0x0B02)]

/-- The checks of a collective in a stream of a level; its group argument block stands at order 4. -/
def Loading.collectiveChecks (e : Loading) (ws : List Nat) (level : Nat) : Checks :=
  let op := wOp ws
  let used := if op = 0x60 ∨ op = 0x61 then [0, 1, 2, 3] else if op = 0x62 then [0, 1, 2] else [0, 1, 2, 4]
  [(decide (3 ≤ level), planBad 0x0A04), unused ws used, flagsBelow ws (if op = 0x60 ∨ op = 0x61 then 3 else 0)] ++
  e.named (half ws 0) ++ e.named (half ws 1) ++ [(!(e.p.highs.contains (half ws 1)), planBad 0x0701)] ++
  e.offFallback (half ws 0) ++ e.offFallback (half ws 1) ++ [e.argOk (half ws 2)] ++ (if op = 0x60 ∨ op = 0x61 then e.reduceChecks ws else e.gatherChecks ws)

/-- The checks of a REG_WRITE in a stream of a level (R278). -/
def regWriteChecks (ws : List Nat) (level : Nat) : Checks :=
  let lv := if bitOf (wCf ws) 0 then 0 else level
  [flagsBelow ws 1, (decide (wordAt ws 4 < 4096) && wordAt ws 7 == 0, planBad 0x0A04)] ++
  match regWriteCheck lv (wordAt ws 4 % 4096) (wordAt ws 5) (wordAt ws 6) with
  | some d => [(false, planBad d)]
  | none => []

/-- The checks of a SIEVE_COMMIT (R119, R279). -/
def Loading.commitChecks (e : Loading) (ws : List Nat) : Checks :=
  [flagsBelow ws 0] ++ (commitNames ws).flatMap fun i => e.named i ++ [((e.t i).hasRecord, planBad 0x0506)]

/-- The checks of STEP_END and LOOP_END that stand before order 6 (R272). -/
def Loading.endChecks (e : Loading) (ws : List Nat) (level : Nat) : Checks :=
  [flagsBelow ws 0, unused ws (if wOp ws = 0x74 then [0] else []), (level == 4, planBad 0x0A04)] ++
  if wOp ws = 0x74 then [e.argOk (half ws 0)] else []

/-- The half word that names an instruction's argument block, where it names one (R272, R314). -/
def argOf (ws : List Nat) : Option Nat :=
  let some? (k : Nat) : Option Nat := if half ws k = 0xFFFF then none else some (half ws k)
  match wOp ws with
  | 0x10 => some? 5
  | 0x11 => some? 5
  | 0x32 => some? 7
  | 0x60 => some? 2
  | 0x61 => some? 2
  | 0x62 => some? 2
  | 0x63 => some? 2
  | 0x74 => some? 0
  | _ => if laneOf ws = some .vector then (vectorArg ws).bind some? else none

/-- The checks of the argument block that an instruction names (R167, R189, R190, R253, R276, R277, R286, R287, R315): order
4 of R253. An index beyond the argument area is order 5's. -/
def Loading.argChecks (e : Loading) (ws : List Nat) : Checks :=
  match argOf ws with
  | none => []
  | some i =>
    let a := e.p.arg i
    if e.p.args.length ≤ i then []
    else match wOp ws with
    | 0x10 => [(leAt a 0 6 % 64 == 0, planBad 0x0601), regionCheck (leAt a 0 6) 2]
    | 0x11 => [(leAt a 0 6 % 64 == 0, planBad 0x0601), regionCheck (leAt a 0 6) 2]
    | 0x32 =>
      let masked := bitOf (leAt a 30 1) 0
      [regionCheck (leAt a 0 6) 4, regionCheck (leAt a 8 6) 64, regionCheck (leAt a 16 6) 32,
       (!masked || leAt a 24 6 % 64 == 0, planBad 0x0601), (!masked || regionOk (leAt a 24 6) 2, planBad 0x0901),
       e.clipOk (leAt a 16 6)]
    | 0x60 => e.groupChecks i
    | 0x61 => e.groupChecks i
    | 0x62 => e.groupChecks i
    | 0x63 => e.groupChecks i
    | 0x74 => [regionCheck (leAt a 0 6) (4 * leAt a 8 4)]
    | _ => e.vectorArgChecks (wOp ws) a

/-- The checks of one instruction. -/
def Loading.instrChecks (e : Loading) (ws : List Nat) (stream index path : Nat) : Checks :=
  let level := path / 256
  e.commonChecks ws ++
  match wOp ws with
  | 0x10 => e.productChecks ws stream index
  | 0x11 => e.productChecks ws stream index
  | 0x30 => e.convertChecks ws
  | 0x32 => e.optimiseChecks ws
  | 0x40 => e.copyChecks ws
  | 0x44 => e.copyPortChecks ws
  | 0x41 => e.commonsInstrChecks ws
  | 0x42 => e.commonsInstrChecks ws
  | 0x43 => e.commonsInstrChecks ws
  | 0x50 => e.synWaitChecks ws
  | 0x51 => e.synSignalChecks ws
  | 0x60 => e.collectiveChecks ws level
  | 0x61 => e.collectiveChecks ws level
  | 0x62 => e.collectiveChecks ws level
  | 0x63 => e.collectiveChecks ws level
  | 0x70 => [flagsBelow ws 0, unused ws []]
  | 0x71 => regWriteChecks ws level
  | 0x72 => e.commitChecks ws
  | 0x73 => e.endChecks ws level
  | 0x74 => e.endChecks ws level
  | _ => e.vectorChecks ws

/-! ## Order 6: the whole plan (R120, R179, R267) -/

/-- The tensors an instruction writes whose blocks have records (R120): through conversion units, or as a collective's D,
which ALL_GATHER and RING_PASS may write as a narrow tensor (R320). -/
def writtenBy (ws : List Nat) : List Nat :=
  match wOp ws with
  | 0x10 => if (productOf ws).toAcc then [] else [half ws 2]
  | 0x11 => if (productOf ws).toAcc then [] else [half ws 2]
  | 0x30 => [half ws 1]
  | 0x32 => ([3, 4, 5, 6].map (half ws)).filter (· != 0xFFFF)
  | 0x62 => [half ws 1]
  | 0x63 => [half ws 1]
  | _ => if (laneOf ws) = some .vector then ((vectorDest (wOp ws)).map (half ws)).toList else []

/-- The tensors an array, vector, conversion or collective instruction reads. An ALL_REDUCE of Sieve counts reads a record
(R318). -/
def readBy (ws : List Nat) : List Nat :=
  match wOp ws with
  | 0x10 => ([0, 1, 3].map (half ws)).filter (· != 0xFFFF)
  | 0x11 => ([0, 1, 3].map (half ws)).filter (· != 0xFFFF)
  | 0x30 => [half ws 0]
  | 0x32 => ([2].map (half ws)).filter (· != 0xFFFF)
  | 0x60 => if bitOf (wCf ws) 2 then [] else [half ws 0]
  | 0x61 => [half ws 0]
  | 0x62 => [half ws 0]
  | 0x63 => [half ws 0]
  | _ => if (laneOf ws) = some .vector then (vectorReads ws).map (half ws) else []

/-- The ped-4 stream ends with exactly one STEP_END, or LOOP_END in a generation plan, and no other stands anywhere
(R267). -/
def Plan.endsRight (p : Plan) : Bool :=
  let op := if p.kind = 2 then 0x74 else 0x73
  let ends := p.instructions.filter fun i => wOp i.2.2 == 0x73 || wOp i.2.2 == 0x74
  match ends, p.streams.find? fun st => st.path == pkgPath with
  | [i], some st => wOp i.2.2 == op && i.2.1 + 1 == st.instrs.length
  | _, _ => false

/-- The version records of images that an instruction reads (R179). -/
def Loading.imageReads (e : Loading) (ws : List Nat) : List Nat :=
  (((readBy ws).filter e.p.isImage).map fun i => (e.t i).version).eraseDups

/-- Whether an instruction signals a gate counter by 1 (R179, R273). -/
def signalsGate (ws : List Nat) (gate : Nat) : Bool :=
  let w3 := wordAt ws 3
  (bitOf w3 17 && bitsOf w3 16 0 == gate && bitsOf w3 31 18 == 1) ||
  (isProduct ws && bitOf (wordAt ws 7) 17 && bitsOf (wordAt ws 7) 16 0 == gate)

/-- The version record at an offset. -/
def Loading.version (e : Loading) (off : Nat) : WvRec := parseWv (e.bytes off 64)

/-- A reader of an image set that does not signal its gate, if any (R179). -/
def Loading.badReader (e : Loading) : Option PlanRefusal :=
  (e.p.instructions.find? fun i => (e.imageReads i.2.2).any fun off =>
    !(e.version off).frozen && !(signalsGate i.2.2 (e.version off).gate)).map fun i =>
      { bad := planBad 0x0703, stream := i.1, index := i.2.1 }

/-- The reads of each image set in a step number r (R179); a frozen tensor's count for nothing (R184). -/
def Loading.readsOk (e : Loading) : Bool :=
  let opts := e.p.highs.map fun i => (e.t i).version
  let offs := (opts ++ e.p.instructions.flatMap fun i => e.imageReads i.2.2).eraseDups
  offs.all fun off =>
    (e.version off).frozen ||
    (e.p.instructions.filter fun i => (e.imageReads i.2.2).contains off).length == (e.version off).reads

/-- Order 6 of R253. -/
def Loading.wholeChecks (e : Loading) : Option PlanRefusal :=
  let committed := e.p.instructions.flatMap fun i => commitNames i.2.2
  let written := e.p.instructions.flatMap fun i => writtenBy i.2.2
  if !e.p.endsRight then some (outsideInstr (planBad 0x0A0A))
  else if written.any fun i => (e.t i).positional && !(committed.contains i) then some (outsideInstr (planBad 0x0501))
  else match e.badReader with
  | some r => some r
  | none => if e.readsOk then none else some (outsideInstr (planBad 0x0703))

/-! ## The image as a whole -/

/-- The first failure among `n` entries. -/
def firstBad (n : Nat) (f : Nat → Checks) : Option Bad := (List.range n).findSome? fun i => (f i).first

/-- Orders 1 to 3 of R253. -/
def State.imageChecks (s : State) (b : List Byte) : Option Bad :=
  let h := parseHeader b
  if !(headerOk b h) then some (planBad 0x0A01)
  else if (h.formats &&& s.caps.formats.toNat) != h.formats || (h.units &&& s.caps.units.toNat) != h.units then some unitAbsent
  else if 4 < h.depth then some (planBad 0x0A02)
  else firstBad h.streams (Loading.dirChecks s b h)

/-- Order 4 of R253: tensor table, commons table, and the argument blocks that the instructions name. -/
def Loading.tableChecks (e : Loading) (b : List Byte) : Option Bad :=
  let h := parseHeader b
  match firstBad e.p.tensors.length fun i => e.tensorChecks (e.t i) with
  | some x => some x
  | none =>
    match firstBad h.commons fun i =>
      e.commonsChecks b (commonsBytes b h i) ((List.range i).map fun j => leAt (commonsBytes b h j) 0 2 % 4096) with
    | some x => some x
    | none => e.p.instructions.findSome? fun i => (e.argChecks i.2.2).first

/-- Order 5 of R253: every instruction, in stream order, stream by stream. -/
def Loading.instrRefusal (e : Loading) : Option PlanRefusal :=
  e.p.instructions.findSome? fun i =>
    (e.instrChecks i.2.2 i.1 i.2.1 ((e.p.streams[i.1]?).map PlanStream.path |>.getD pkgPath)).first.map fun b =>
      { bad := b, stream := i.1, index := i.2.1 }

/-- The checks of R253 on an image at a window offset: the plan, or the first failure. -/
def State.checkPlan (s : State) (c : Ctx) (off : Nat) (b : List Byte) : Except PlanRefusal Plan :=
  match s.imageChecks b with
  | some x => .error (outsideInstr x)
  | none =>
    let e : Loading := { s, c, p := parsePlan off b }
    match e.tableChecks b with
    | some x => .error (outsideInstr x)
    | none =>
      match e.instrRefusal with
      | some r => .error r
      | none =>
        match e.wholeChecks with
        | some r => .error r
        | none => .ok e.p

/-- The pages a plan image occupies, as window pages (R349). -/
def imagePages (off len : Nat) : List Nat :=
  (List.range ((off + len - 1) / pageSize + 1 - off / pageSize)).map fun i => 16384 + (off - 0x1000000000) / pageSize + i

/-- The two rules of R349 on an image that lies in mapped pages. -/
def State.imageRules (c : Ctx) (p : Plan) : Option PlanRefusal :=
  let marked := p.marks.filter fun w => c.pages.window.any fun m => m.win == w
  if (imagePages p.offset p.length).any fun w => !(p.marks.contains w) then some (outsideInstr (planBad 0x0C02))
  else if c.resv.snapSet < marked.length then some (outsideInstr (planBad 0x0C01))
  else none

end Sys2Proof.Machine
end

