-- ==== Sys2Proof/Machine/Load.lean ====
section
/-! DEFINITION. LOAD_PLAN (R139, R253, R254, R349) and RESTORE (R139, R214, R234, R356). -/

namespace Sys2Proof.Machine

/-! ## Sieve history (R139) -/

/-- The window and headroom of a tensor record as one number (R124). -/
def SieveRec.cfg (r : SieveRec) : Nat := 8 * r.win + r.hr

/-- A block record as the compiler creates it (R127). -/
def newBlockRec (t : Tensor) (win : Nat) : List Byte :=
  if t.elem.isInt then leBytes 2 0x3F80 ++ [0, 0] ++ leBytes 4 0x7F800000 ++ leBytes 4 0xFF800000
  else [0x7F, 0] ++ List.replicate win 0xFF ++ List.replicate (blockRecLen t win - (win + 2)) 0

/-- The number of block records of a tensor. -/
def blockRecs (t : Tensor) : Nat := scaleRows t * blocksPerRow t

/-- A positional tensor's records initialised, its configuration word kept but for head (R139). -/
def State.initHistory (s : State) (id : Nat) (t : Tensor) : State :=
  match s.ctx? id with
  | none => s
  | some c =>
    match s.readSieve c t.sieve with
    | .error _ => s
    | .ok r =>
      let blocks := (List.range (blockRecs t)).flatMap fun _ => newBlockRec t r.win
      match (do (← s.wrByte id (t.sieve + 1) 0).wrBytes id (t.sieve + 4) (List.replicate 60 0 ++ blocks) : Except Fail State) with
      | .ok s' => s'
      | .error _ => s

/-- Logs HISTORY_ABSENT for `n` tensors, once, when there are any. -/
def State.historyAbsent (s : State) (id n : Nat) : State := if n = 0 then s else s.raise 0x1301 n pkgPath id

/-- The window and headroom of every positional tensor's record that can be read. -/
def State.recordCfgs (s : State) (c : Ctx) (p : Plan) : List (Nat × Nat) :=
  (p.tensors.filter Tensor.positional).filterMap fun t => match s.readSieve c t.sieve with
    | .ok r => some (t.sieve, r.cfg)
    | .error _ => none

/-- The floating positional tensors with history whose window or headroom a plan changes (R139); integer tensors
ignore both fields (R126). -/
def State.changedHistory (s : State) (c : Ctx) (p : Plan) : List Tensor :=
  p.tensors.filter fun t => t.positional && !t.elem.isInt &&
    match s.readSieve c t.sieve, c.recCfg.find? (fun q => q.1 == t.sieve) with
    | .ok r, some q => r.hist && r.cfg != q.2
    | _, _ => false

/-! ## LOAD_PLAN -/

/-- A plan replaces the context's plan whole: the old plan's grant has ended (R134), every counter is 0, the next step is
n_first, the cadence measures afresh, and a snapshot of the old plan is no step snapshot any more (R137, R254, R349,
R389). -/
def State.installPlan (s : State) (id : Nat) (p : Plan) : State :=
  (s.dropGrant id).mapCtx id fun c =>
    { c with
      phase := .ready, plan := some p, steps := [], counters := [], early := [], waits := []
      snap := c.snap.map fun q => { q with ofPlan := false }
      lgl := { c.lgl with nextStep := p.nFirst }
      rst := { c.rst with reference := none } }

/-- The windows and headrooms remembered of records, those of a new plan's tensors in front. -/
def rememberCfgs (old new : List (Nat × Nat)) : List (Nat × Nat) := new ++ old.filter fun q => !(new.any fun n => n.1 == q.1)

/-- An accepted plan: installed, and the history of tensors whose window it changes initialised (R139). The windows of
records that the plan leaves out stay remembered, and SIEVE_STATUS shows the marks of the plan's own tensors (R141). -/
def State.acceptPlan (s : State) (id : Nat) (p : Plan) : State :=
  match s.ctx? id with
  | none => s
  | some c =>
    let changed := s.changedHistory c p
    let cfgs := s.recordCfgs c p
    let s := changed.foldl (fun s t => s.initHistory id t) (s.installPlan id p)
    (s.mapCtx id fun x => { x with
      recCfg := rememberCfgs c.recCfg cfgs
      sieve := { x.sieve with marks := (s.anyMark x p).toOption.getD false } }).historyAbsent id changed.length

/-- Whether a window page is mapped. -/
def Ctx.mappedPage (c : Ctx) (w : Nat) : Bool := c.pages.window.any fun m => m.win == w

/-- An image that lies in no mapped subsoil pages (R349). -/
def imageOutside : PlanRefusal := outsideInstr (planBad 0x0C02)

/-- The plan that an image offers, or why it is refused: its place, R253, then the rules of R349. -/
def State.offered (s : State) (c : Ctx) (off len : Nat) : Except PlanRefusal Plan :=
  if !(subsoilRange c.mappedPage off len) then .error imageOutside
  else match s.rdBytes c off len with
  | .error f => .error (outsideInstr (f.code, f.detail))
  | .ok b =>
    match s.checkPlan c off b with
    | .error r => .error r
    | .ok p => match State.imageRules c p with
      | some r => .error r
      | none => .ok p

/-- What LOAD_PLAN does once it passes the checks to order 6. -/
def State.loadPlan (sl : Slot) (se : Session) (s : State) : State :=
  match s.ctx? (sl.w 4 % 256) with
  | none => s
  | some c =>
    if sl.len ≠ 0 then s.invalid se.id sl 2
    else if !sl.ctxOk || !(decide (sl.w 6 < 65536)) || sl.w 7 == 0 || sl.w48 5 % 64 != 0 || sl.w 7 % 64 != 0 then
      s.invalid se.id sl 3
    else match s.offered c (sl.w48 5) (sl.w 7) with
    | .error r => s.refuseWith se.id sl r.bad.1 r.bad.2 [(4, r.stream), (5, r.index)]
    | .ok p => (s.acceptPlan c.id p).ok se.id sl

/-- LOAD_PLAN (R253, R254, R349). -/
def execLoadPlan (sl : Slot) (s : State) : Out :=
  .next (s.command (.loadPlan sl) sl (sl.cmd == 0x20) (State.loadPlan sl))

/-! ## RESTORE -/

/-- Whether an area page holds the record of an image of S = its own place (R355). -/
def State.recordHere (s : State) (c : Ctx) (j : Nat) : Bool :=
  (c.pages.area[j]?).any fun p => leNat (memBytes s.mem (pageAddr p) 4) == imageMagic &&
    leNat (memBytes s.mem (pageAddr p + 24) 4) == j

/-- The place of the image's record page in the snapshot area (R355): page S of the image's own S, the context's S
first. -/
def State.findRecord (s : State) (c : Ctx) : Nat :=
  ((c.resv.snapSet :: List.range c.pages.area.length).find? (s.recordHere c)).getD c.resv.snapSet

/-- The numbers of counters of each die in an image's counter words. -/
def dieSizes : Nat → List Nat → List Nat
  | 0, _ => []
  | _, [] => []
  | d + 1, n :: rest => n :: dieSizes d (rest.drop n)

/-- The context as it would be with a binding on every port, so that R253 can be checked apart from order 6. -/
def Ctx.allBound (c : Ctx) : Ctx :=
  { c with bindings := (List.range 32).map fun p => { port := p, number := 0, tag := 0, arrival := 0 } }

/-- The ports a plan's collectives and port copies need (R356). -/
def Plan.neededPorts (p : Plan) : List Nat :=
  p.instructions.flatMap fun i =>
    if wOp i.2.2 = 0x44 then [copyPortOf i.2.2]
    else if laneOf i.2.2 = some .collective then
      let g := p.group (wLo i.2.2 5)
      (g.members.zipIdx.filter fun m => m.2 != g.rank).map fun m => m.1.port
    else []

/-- A failure of RESTORE by its detail. -/
def restoreShape (d : Nat) : PlanRefusal := outsideInstr (0x4302, d)

/-- The slots of an image copied back to their window pages (R356). -/
def State.slotsBack (s : State) (c : Ctx) (slots : List Nat) : State :=
  slots.zipIdx.foldl (fun s q => s.restoreSlot c q.2 q.1) s

/-- Checks 2 to 5 of R356. -/
def State.restoreShapes (s : State) (c : Ctx) (img : ImageRec) : Option PlanRefusal :=
  let writable (w : Nat) : Bool := (c.pages.window.find? fun m => m.win == w).any fun m => !(s.sealedPage m.dev)
  let area := c.pages.area.length
  if img.flags ≠ c.config.imageFlags then some (restoreShape 5)
  else if !(img.slots.all writable) then some (restoreShape 1)
  else if area < img.setSize + 1 ∨ img.setSize < img.slots.length ∨ (c.config.policy = .replayWide ∧ area ≠ img.area) then
    some (restoreShape 2)
  else if ((dieSizes 4 (wordsOf img.counters)).zipIdx.any fun q => decide (c.resv.counters.getD q.2 0 < q.1)) then
    some (restoreShape 3)
  else none

/-- The plan of an image, checked on the pages as the image would leave them: checks 6 and 7 of R356, where the rules of
R349 that R364 finds at LOAD_PLAN have no part. An image whose bytes cannot be read is no plan image (log entry 153). -/
def State.restorePlan (s : State) (c : Ctx) (img : ImageRec) : Except PlanRefusal Plan :=
  let s := s.slotsBack c img.slots
  let c := { c with plan := none }
  match s.rdBytes c img.planOff img.planLen with
  | .error _ => .error (outsideInstr (planBad 0x0A01))
  | .ok b =>
    let q := parsePlan img.planOff b
    let bound (p : Nat) : Bool := c.bindings.any fun x => x.port == p
    if (headerOk b (parseHeader b)) && !(q.neededPorts.all bound) then .error (restoreShape 4)
    else s.checkPlan c.allBound img.planOff b

/-- Checks 1 to 9 of R356 in their order: the plan to install, or the refusal. -/
def State.restoreChecks (s : State) (c : Ctx) (at_ : Nat) (img : ImageRec) : Except PlanRefusal Plan :=
  let bad (j : Nat) : Bool := (c.pages.area[j]?).any fun p => (s.pageUe p).isSome
  if !img.valid || bad at_ || (List.range img.slots.length).any bad then .error (outsideInstr (0x4303, 0))
  else match s.restoreShapes c img with
  | some r => .error r
  | none =>
    match s.restorePlan c img with
    | .error r => .error r
    | .ok p =>
      if sumNat c.resv.headroom ≠ img.headroom then .error (restoreShape 6)
      else if img.seed ≠ seedDigest c.config.seed then .error (restoreShape 7)
      else .ok p

/-- The positional tensors whose records an image does not hold (R139). -/
def absentHistory (s : State) (c : Ctx) (p : Plan) (img : ImageRec) : List Tensor :=
  p.tensors.filter fun t => t.positional &&
    match s.readSieve c t.sieve with
    | .error _ => false
    | .ok r =>
      let last := t.sieve + 63 + blockRecs t * blockRecLen t r.win
      match pageOf? t.sieve, pageOf? last with
      | some a, some b => (List.range (b + 1 - a)).any fun i => !(img.slots.contains (a + i))
      | _, _ => true

/-- An image taken over: its pages, plan, counters, residency and registers; the image is the current snapshot, and the
context is HELD with pos_wait set (R214, R355, R356). -/
def State.takeImage (s : State) (id at_ : Nat) (img : ImageRec) (p : Plan) : State :=
  match s.ctx? id with
  | none => s
  | some c =>
    let s := ((s.dropGrant id).slotsBack c img.slots).mapCtx id fun c => { c with plan := none }
    let s := s.installPlan id p
    let s := s.mapCtx id fun c => { c with
      snap := some { slots := img.slots, area := at_, pending := [], dirty := [], step := img.step, at_ := s.now,
                     complete := true, announce := none, ofPlan := true }
      rst := { ResetRegs.init with faultTimes := c.rst.faultTimes } }
    let lost := absentHistory s { c with plan := none } p img
    let s := lost.foldl (fun s t => s.initHistory id t) s
    let s := s.applyRecord id img
    let s := s.mapCtx id fun x => { x with
      phase := .held, holdAsked := false, recCfg := rememberCfgs x.recCfg (s.recordCfgs x p), lgl := { x.lgl with heldCode := c.lgl.heldCode } }
    s.historyAbsent id lost.length

/-- What RESTORE does once it passes the checks to order 6: a HELD context first discards its instructions. -/
def State.restore (sl : Slot) (se : Session) (s : State) : State :=
  match s.ctx? (sl.w 4 % 256) with
  | none => s
  | some c =>
    if sl.len ≠ 0 then s.invalid se.id sl 2
    else if !sl.ctxOk then s.invalid se.id sl 3
    else
      let s := if c.phase = .held then
          (s.discardWork c.id).mapCtx c.id fun c => { c with steps := [], heldDegraded := false }
        else s
      let at_ := s.findRecord c
      let img := s.readRecord (c.pages.area.getD at_ 0)
      let c := { c with steps := [] }
      match (if at_ < c.pages.area.length then s.restoreChecks c at_ img else .error (outsideInstr (0x4303, 0))) with
      | .error r => s.refuse se.id sl r.bad.1 r.bad.2
      | .ok p => (s.takeImage c.id at_ img p).ok se.id sl

/-- RESTORE (R356). -/
def execRestore (sl : Slot) (s : State) : Out :=
  .next (s.command (.restore sl) sl (sl.cmd == 0x41) (State.restore sl))

end Sys2Proof.Machine
end

