-- ==== Sys2Proof/Machine/RunCmd.lean ====
section
/-! DEFINITION. RUN_STEP (R266, R268, R351), HOLD and HOLD_COMPLETE (R352), RESUME (R194, R214, R353), SNAPSHOT with
its drain (R243 to R245, R354), EXPORT_SNAPSHOT and EXPORT_END (R357). -/

namespace Sys2Proof.Machine

/-! ## RUN_STEP -/

/-- The iteration of the loop that a step of a generation plan is, 0 in another plan (R286). -/
def Plan.iteration (p : Plan) (step : Nat) : Nat := if p.kind = 2 then step - p.nFirst else 0

/-- Whether a grow tensor has no row left for an iteration (R271, R286). -/
def Plan.growPast (p : Plan) (iter : Nat) : Bool := p.tensors.any fun t => t.grow != 0 && decide (t.d1 ≤ t.len0 + iter)

/-- A step is placed (R266, R351): the first step after a LOAD_PLAN has no grant, and the cadence measures from the first
step placed (R389). -/
def State.placeStep (s : State) (id : Nat) (p : Plan) (step tag maxTokens : Nat) : State :=
  match s.ctx? id with
  | none => s
  | some c =>
    let iter := p.iteration step
    let s := if c.steps.isEmpty then s.noGrant id step else s
    s.mapCtx id fun c =>
      { c with
        phase := .running
        steps := c.steps ++ [p.place step tag s.now iter iter maxTokens]
        lgl := { c.lgl with nextStep := if p.kind = 2 then c.lgl.nextStep else step + 1 }
        rst := { c.rst with reference := some (c.rst.reference.getD s.now) } }

/-- What RUN_STEP does once it passes the checks to order 6. A run whose first iteration finds no row of a grow tensor left
ends at once with detail 1 and no iteration (R286, log entry 152). -/
def State.runStep (sl : Slot) (se : Session) (s : State) : State :=
  match s.ctx? (sl.w 4 % 256) with
  | none => s
  | some c =>
    match c.plan with
    | none => s
    | some p =>
      if sl.len ≠ 0 then s.invalid se.id sl 2
      else if !sl.ctxOk || !(decide (sl.w 6 < 65536)) || (p.kind == 2) == (sl.w 9 == 0) then s.invalid se.id sl 3
      else if sl.w48 5 ≠ c.lgl.nextStep then s.refuse se.id sl 0x4404 (c.lgl.nextStep % 65536)
      else if (if p.kind = 2 then c.phase == .running else decide (2 ≤ c.steps.length)) then s.badState se.id sl c 1
      else if p.kind = 2 ∧ p.growPast (p.iteration (sl.w48 5)) then
        (s.ok se.id sl).notify c.id 0x0011 1 (sl.w48 5) [0]
      else (s.placeStep c.id p (sl.w48 5) (sl.w64 7) (sl.w 9)).ok se.id sl

/-- RUN_STEP (R351). -/
def execRunStep (sl : Slot) (s : State) : Out :=
  .next (s.command (.runStep sl) sl (sl.cmd == 0x30) (State.runStep sl))

/-! ## HOLD -/

/-- Whether a placed instruction runs: it has been issued, or an array runs an item of it, and it does not wait on a
counter, a binding or pool pages (R352, R370). -/
def State.runs (s : State) (r : InstrRef) : Bool :=
  match s.found? r with
  | none => false
  | some f =>
    let left := s.scheds.any fun q => (q.2.queue ++ q.2.fwd ++ q.2.bwd).any fun i => i.ref == r
    if isProduct f.words then
      (s.scheds.any fun q => q.2.running.any fun x => x.2.1.ref == r) ||
      (!left && (f.p.phase == .executed || (!f.p.accepted.isEmpty && s.allAccepted f)))
    else if wOp f.words = 0x41 ∧ s.arbiter.queue.contains r then false
    else if f.p.phase = .executed then true
    else if f.p.phase ≠ .issued then false
    else match wOp f.words with
    | 0x32 => match s.gateMissing f with
      | .ok n => n == 0
      | .error _ => true
    | 0x44 => match f.ctx.lowestBinding (copyPortOf f.words) with
      | some b => (s.partnerOf (copyPortOf f.words) b.number).isSome
      | none => true
    | _ => true

/-- Whether an instruction's progress depends on its engine and on local memory alone (R370): it runs, and is no COPY_PORT
that waits for link credit or for its completion. -/
def State.pends (s : State) (r : InstrRef) : Bool :=
  s.runs r && !((s.found? r).any fun f => wOp f.words == 0x44 && f.p.phase == .executed)

/-- Whether any instruction of a context runs. -/
def State.anyRuns (s : State) (c : Ctx) : Bool :=
  c.allPlaced.any fun rp => s.runs { ctx := c.id, step := rp.1.step, stream := rp.2.stream, index := rp.2.index }

/-- What HOLD does once it passes the checks to order 6; a HELD context is answered at once. -/
def State.holdCmd (sl : Slot) (se : Session) (s : State) : State :=
  match s.ctx? (sl.w 4 % 256) with
  | none => s
  | some c =>
    if sl.len ≠ 0 then s.invalid se.id sl 2
    else if !sl.ctxOk then s.invalid se.id sl 3
    else if c.phase = .held then s.ok se.id sl
    else (s.mapCtx c.id fun c => { c with holdAsked := true }).setBusy se.id (.hold c.id) sl

/-- HOLD (R352). -/
def execHold (sl : Slot) (s : State) : Out := .next (s.command (.hold sl) sl (sl.cmd == 0x31) (State.holdCmd sl))

/-- Answers the HOLDs of a context with a status and a detail. -/
def State.answerHold (s : State) (id status detail : Nat) : State :=
  s.answerBusy fun b => match b with
    | .hold i => if i = id then some (status, detail, []) else none
    | _ => none

/-- HOLD_COMPLETE (R352): once no instruction of the context runs it is HELD and the HOLD is answered. A generation run
in flight is HELD by its LOOP_END (R286). -/
def execHoldComplete (id : Nat) (s : State) : Out :=
  match s.ctx? id with
  | none => .next s
  | some c =>
    if c.phase = .held then .next (s.answerHold id 0 0)
    else if c.holdAsked && c.phase != .resetting && !(s.anyRuns c) &&
        !(c.phase == .running && c.plan.any fun p => p.kind == 2) then
      .next ((s.mapCtx id fun c => c.holdWith 0x0031 0).answerHold id 0 0)
    else .next s

/-! ## RESUME -/

/-- The micro-batch ranges of a RESUME's payload: first and last. -/
def resumeRanges (b : List Byte) : List (Nat × Nat) :=
  (List.range (leAt b 32 4)).map fun i => (leAt b (36 + 4 * i) 2, leAt b (38 + 4 * i) 2)

/-- The CMD_INVALID detail of a RESUME's payload and words (R353), if any. -/
def Slot.resumeBad (sl : Slot) : Option Nat :=
  let r := leAt sl.payload 32 4
  if !sl.ctxOk || !(decide (sl.w 5 < 8)) then some 3
  else if bitOf (sl.w 5) 2 then
    if sl.len < 36 then some 2
    else if r = 0 ∨ 999 < r then some 3
    else if sl.len ≠ 36 + 4 * r then some 2
    else if (resumeRanges sl.payload).any fun q => decide (q.2 < q.1) then some 3 else none
  else if sl.len ≠ (if bitOf (sl.w 5) 1 then 32 else 0) then some 2
  else none

/-- Whether an instruction serves a whole step, and so is never discarded (R353). -/
def wholeStep (ws : List Nat) : Bool :=
  [0x73, 0x74, 0x72, 0x32, 0x27, 0x28].contains (wOp ws) || laneOf ws == some .collective

/-- The signals a discarded instruction performs: those to the gate counters of the image sets it reads (R194); a frozen
set has no gate (R184). -/
def State.gateSignals (s : State) (c : Ctx) (ws : List Nat) : List (Nat × Nat) :=
  match c.plan with
  | none => []
  | some p =>
    let e : Loading := { s, c, p }
    let gates := ((e.imageReads ws).filter fun off => !(e.version off).frozen).map fun off => (e.version off).gate
    (signalsOf ws).filter fun q => gates.contains q.1

/-- Drops the items and queue places of a discarded instruction. -/
def State.dropInstr (s : State) (r : InstrRef) : State :=
  let keep (i : Item) : Bool := i.ref != r
  { s with
    scheds := s.scheds.map fun p => (p.1, { p.2 with
      queue := p.2.queue.filter keep, fwd := p.2.fwd.filter keep, bwd := p.2.bwd.filter keep })
    arbiter := { objects := s.arbiter.objects.map fun o => { o with waiters := o.waiters.filter (· != r) }
                 queue := s.arbiter.queue.filter (· != r) } }

/-- The pending instructions that serve a micro-batch of the named ranges. -/
def Ctx.inRanges (c : Ctx) (l : List (Nat × Nat)) : List InstrRef :=
  c.allPlaced.filterMap fun rp =>
    let ws := c.words rp.2.stream rp.2.index
    if (rp.2.phase = .placed ∨ rp.2.phase = .issued) ∧ !(wholeStep ws) ∧
        (l.any fun q => decide (q.1 ≤ wMb ws) && decide (wMb ws ≤ q.2)) then
      some { ctx := c.id, step := rp.1.step, stream := rp.2.stream, index := rp.2.index } else none

/-- Discards the pending instructions of the named micro-batches (R194). -/
def State.discardRanges (s : State) (c : Ctx) (l : List (Nat × Nat)) : State :=
  (c.inRanges l).foldl (fun s r =>
    let ws := c.words r.stream r.index
    ((s.dropInstr r).setPhase r .retired).signalAll c.id (c.streamPath r.stream) (s.gateSignals c ws)) s

/-- Every timer of a context restarts (R264, R321, R353). -/
def Ctx.restartTimers (c : Ctx) (now : Nat) : Ctx :=
  { c with steps := c.steps.map fun run => { run with
      placed := run.placed.map fun p => { p with since := none, gateDue := p.gateDue.map fun _ => now + c.stallUs }
      colls := run.colls.map fun k => { k with since := now } } }

/-- The argument block of the plan's LOOP_END. -/
def Plan.loopArg (p : Plan) : List Byte :=
  match p.instructions.find? fun i => wOp i.2.2 == 0x74 with
  | some i => p.arg (wLo i.2.2 4)
  | none => []

/-- The boundary of a step held degraded, performed by RESUME (R137). -/
def State.resumeBoundary (s : State) (id : Nat) : State :=
  match s.ctx? id with
  | none => s
  | some c =>
    match c.steps, c.plan with
    | run :: _, some p =>
      let s := s.boundary id pkgPath true
      if p.kind = 2 then s.loopNext id pkgPath run p.loopArg else s
    | _, _ => s

/-- The phase a context resumes into: without a plan RESERVED, and ADMITTED when it holds no reservation either (R337, log
entry 79). -/
def Ctx.resumedPhase (c : Ctx) : CtxPhase :=
  if !c.steps.isEmpty then .running else if c.plan.isSome then .ready
  else if c.resv == .empty && c.bindings.isEmpty then .admitted else .reserved

/-- Order 2 of R353: the mask of the oldest step replaced, collectives restarted where it changes theirs (R319). -/
def State.newMask (s : State) (id : Nat) (mask : BitVec 256) : State :=
  match (s.ctx? id).bind fun c => c.steps.head? with
  | none => s
  | some run => (s.mapCtx id fun c => c.mapRun run.step fun r => { r with mask }).collMaskChanged id run.mask

/-- Orders 2 to 4 of R353; residency that a recorded set still lacks is tried again (R234). A collective that the mask leaves undersized keeps the context HELD (R319). -/
def State.resumed (s : State) (sl : Slot) (c : Ctx) : State :=
  let go (c : Ctx) : Ctx := { c with phase := c.resumedPhase, spr := { c.spr with posWait := false } }
  let s := s.mapCtx c.id go
  let s := if bitOf (sl.w 5) 1 then s.newMask c.id (BitVec.ofNat 256 (leNat (sl.payload.take 32))) else s
  let s := if bitOf (sl.w 5) 2 then
      match s.ctx? c.id with
      | some c => s.discardRanges c (resumeRanges sl.payload)
      | none => s
    else s
  if (s.ctx? c.id).any fun x => x.phase == .held || x.phase == .resetting then s
  else
    let s := (s.mapCtx c.id fun c => c.restartTimers s.now).payOwed
    if c.heldDegraded then s.resumeBoundary c.id else s

/-- What RESUME does once it passes the checks to order 6. -/
def State.resume (sl : Slot) (se : Session) (s : State) : State :=
  match s.ctx? (sl.w 4 % 256) with
  | none => s
  | some c =>
    match Slot.resumeBad sl with
    | some d => s.invalid se.id sl d
    | none =>
      if c.spr.posWait && !(bitOf (sl.w 5) 0 && sl.w64 6 == c.spr.tag) then s.refuse se.id sl 0x4301 0
      else if bitOf (sl.w 5) 1 && c.steps.isEmpty then s.badState se.id sl c 2
      else (s.resumed sl c).ok se.id sl

/-- RESUME (R353). -/
def execResume (sl : Slot) (s : State) : Out := .next (s.command (.resume sl) sl (sl.cmd == 0x32) (State.resume sl))

/-! ## SNAPSHOT -/

/-- What SNAPSHOT does once it passes the checks to order 6: at once with no step in flight, unless an export reads the
area; else at the next boundary that is not decided yet (R243, R268, R354, R357). -/
def State.snapshotCmd (sl : Slot) (se : Session) (s : State) : State :=
  match s.ctx? (sl.w 4 % 256) with
  | none => s
  | some c =>
    if sl.len ≠ 0 then s.invalid se.id sl 2
    else if !sl.ctxOk then s.invalid se.id sl 3
    else if c.steps.isEmpty && !c.exporting then (s.ok se.id sl).takeSnapshot c.id .requested
    else (s.mapCtx c.id fun c => { c with snapAsked := true }).ok se.id sl

/-- SNAPSHOT (R354). -/
def execSnapshot (sl : Slot) (s : State) : Out :=
  .next (s.command (.snapshot sl) sl (sl.cmd == 0x40) (State.snapshotCmd sl))

/-- Whether a window page of a context is pending (R244). -/
def State.pagePending (s : State) (id win : Nat) : Bool :=
  ((s.ctx? id).bind Ctx.snap).any fun q => q.pending.contains win

/-- SNAPSHOT_FIRST_WRITE (R244): the first write to a pending page stalls until the page is copied to its slot, which
releases it; the stall is counted (R247). A page that cannot be read fails the context (R98, R237). -/
def execSnapshotFirstWrite (id page : Nat) (s : State) : Out :=
  if s.pagePending id page then
    match s.slotError id page with
    | some f => .next (s.fault id pkgPath f)
    | none => .next ((s.releaseSlot id page).mapCtx id fun c =>
      { c with lgl := { c.lgl with touches := satAdd 0xFFFFFFFF c.lgl.touches 1 } })
  else .next s

/-- SNAPSHOT_DRAIN_PAGE (R244): the first pending page in window order is copied to its slot by a copy engine on which the
context's own copies leave room in its share. A page that cannot be read fails the context (R98, R237). -/
def execSnapshotDrainPage (id : Nat) (s : State) : Out :=
  match s.ctx? id with
  | none => .next s
  | some c =>
    match c.snap.bind fun q => q.pending.head? with
    | some w =>
      if c.phase = .resetting ∨ !(s.copyEngines.any (s.copyRoom c)) then .next s
      else match s.slotError id w with
        | some f => .next (s.fault id pkgPath f)
        | none => .next (s.releaseSlot id w)
    | none => .next s

/-! ## EXPORT_SNAPSHOT -/

/-- Every pending page copied to its slot (R245). -/
def State.drainAll (s : State) (id : Nat) : State :=
  match (s.ctx? id).bind Ctx.snap with
  | none => s
  | some q => q.pending.foldl (fun s w => s.releaseSlot id w) s

/-- What EXPORT_SNAPSHOT does once it passes the checks to order 6: the drain is brought forward, and the image, pages
0 to S of the area, goes out in frames (R355, R357). -/
def State.exportSnapshot (sl : Slot) (se : Session) (s : State) : State :=
  match s.ctx? (sl.w 4 % 256) with
  | none => s
  | some c =>
    if sl.len ≠ 0 then s.invalid se.id sl 2
    else if !sl.ctxOk || 16 ≤ se.handles.length then s.invalid se.id sl 3
    else match c.snap with
    | none => s.badState se.id sl c 3
    | some q =>
      let failed := q.pending.findSome? (s.slotError c.id)
      let s := s.drainAll c.id
      let len := (q.area + 1) * pageSize
      match (match failed with
        | some f => .error f
        | none => s.areaBytes c 0 len : Except Fail (List Byte)) with
      | .error f => s.refuse se.id sl f.code f.detail
      | .ok data =>
        let r := s.openHandle se { id := 0, ctx := c.id, inward := false, area := true, start := 0, length := len, exporting := true }
        let s := r.1.mapCtx c.id fun c => { c with exporting := true }
        let s := { s with ligil := { s.ligil with frames := s.ligil.frames ++ bulkFrames r.2 data } }
        s.answer se.id sl 0 0 [(4, r.2), (5, len % 2 ^ 32), (6, len / 2 ^ 32), (7, crc32c data)] []

/-- EXPORT_SNAPSHOT (R357). -/
def execExportSnapshot (sl : Slot) (s : State) : Out :=
  .next (s.command (.exportSnapshot sl) sl (sl.cmd == 0x42) (State.exportSnapshot sl))

/-- EXPORT_END (R357): the last frame is sent; a snapshot that waited for the export is taken. -/
def execExportEnd (id : Nat) (s : State) : Out :=
  let exports (se : Session) : Option (Session × Nat) :=
    (se.handles.find? fun h => h.ctx == id && h.exporting).map fun h => (se, h.id)
  match s.ligil.sessions.findSome? exports with
  | none => .next s
  | some (se, h) =>
    let s := s.dropHandle se h
    let more := s.ligil.sessions.any fun x => x.handles.any fun h => h.ctx == id && h.exporting
    let s := s.mapCtx id fun c => { c with exporting := more }
    match s.ctx? id with
    | some c =>
      if !more && c.snapAsked && c.steps.isEmpty && c.phase != .resetting then
        .next ((s.mapCtx id fun c => { c with snapAsked := false }).takeSnapshot id .requested)
      else .next s
    | none => .next s

end Sys2Proof.Machine
end

