-- ==== Sys2Proof/Machine/Query.lean ====
section
/-! DEFINITION. QUERY_STATS (R358, R362, R448) and QUERY_CAPS (R9, R359). -/

namespace Sys2Proof.Machine

/-! ## QUERY_STATS -/

/-- The largest payload of a slot (R331). -/
def maxPayload : Nat := 4032

/-- LGL_DEV_LOAD (R362). -/
def State.devLoad (s : State) : Nat := placed (s.ligil.sessions.length % 2048) 16 + s.ctxs.length % 128

/-- The capability block as bytes; offsets without a register read as 0. -/
def State.capBytes (s : State) : List Byte := (List.range 1024).flatMap fun i => leBytes 4 ((s.capBlock (4 * i)).getD 0)

/-- A port's register block as bytes. -/
def portBytes (p : Port) : List Byte := (List.range 1024).flatMap fun i => leBytes 4 ((portBlock p (4 * i)).getD 0)

/-- Up to 63 records of 64 bytes from a tensor index on; `off` gives a tensor's record, and a tensor without one shows
64 zero bytes. -/
def State.recordImage (s : State) (c : Ctx) (first : Nat) (off : Tensor → Option Nat) : Except Fail (List Byte) := do
  let ts := (((c.plan.map Plan.tensors).getD []).drop first).take 63
  let parts ← ts.mapM fun t => match off t with
    | some o => s.rdBytes c o 64
    | none => .ok (List.replicate 64 0)
  return parts.flatMap id

/-- The image of a context selector; none where the index is beyond its range. -/
def State.ctxImage (s : State) (c : Ctx) (sel idx : Nat) : Option (Except Fail (List Byte)) :=
  match sel with
  | 1 => some (.ok (s.blockBytes c pkgPath))
  | 2 => if idx < 256 then some (.ok (s.blockBytes c idx)) else none
  | 3 => some (s.recordImage c idx fun t => if t.hasRecord then some t.sieve else none)
  | 4 => some (s.recordImage c idx fun t => if t.wvr then some t.version else none)
  | _ => none

/-- The newest complete telemetry sample (R448); what it reads before the first is open (log entry 5). -/
def State.sampleBytes (s : State) : List Byte :=
  if s.bg.samples = 0 then (List.range 1216).map (Config.freeByte s.free) else s.bg.sample

/-- The image of a device-wide selector; none where the selector or the index is unknown. -/
def State.deviceImage (s : State) (sel idx : Nat) : Option (List Byte) :=
  match sel with
  | 0x10 => some (leBytes 4 s.devLoad ++ s.capBytes)
  | 0x11 => (s.port? idx).map portBytes
  | 0x12 => some s.sampleBytes
  | _ => none

/-- An OK answer with a payload, cut to what a slot holds (R331, R358). -/
def State.okPayload (s : State) (id : Nat) (sl : Slot) (b : List Byte) : State :=
  s.answer id sl 0 0 [] (b.take maxPayload)

/-- What QUERY_STATS does once it passes the checks to order 6. -/
def State.queryStats (sl : Slot) (se : Session) (s : State) : State :=
  let sel := sl.w 5
  if sl.len ≠ 0 then s.invalid se.id sl 2
  else if !sl.ctxOk || !(decide (sel < 256)) then s.invalid se.id sl 3
  else if contextSelector sel then
    match (s.ctx? (sl.w 4)).bind fun c => s.ctxImage c sel (sl.w 6) with
    | some (.ok b) => s.okPayload se.id sl b
    | some (.error f) => s.refuse se.id sl f.code f.detail
    | none => s.invalid se.id sl 3
  else if sl.w 4 ≠ noCtx then s.invalid se.id sl 3
  else match s.deviceImage sel (sl.w 6) with
  | some b => (if sel = 0x12 ∧ s.bg.samples = 0 then s.draw.2 else s).okPayload se.id sl b
  | none => s.invalid se.id sl 3

/-- QUERY_STATS (R358). -/
def execQueryStats (sl : Slot) (s : State) : Out :=
  .next (s.command (.queryStats sl) sl (sl.cmd == 0x50) (State.queryStats sl))

/-! ## QUERY_CAPS -/

/-- The subsoil pages in service: those of the stacks in service, without the pages withheld for good (R240, R359). -/
def State.subsoilInService (s : State) : Nat :=
  let used := s.usedPages
  let gone := s.bg.retired.filter fun p => decide (16384 ≤ p) && !(used.contains p)
  sumNat ((List.range 12).map fun st => if s.stackOk st then 24576 - countIn gone (stackPages st) else 0)

/-- The free topsoil pages of a grain. -/
def State.freeTop (s : State) (held : List Nat) (g : Nat) : Nat :=
  if s.grainOk g then 64 - countIn held (grainPages g) - sumOver s.ctxs Resv.top g - sumOver s.ctxs Resv.poolTop g else 0

/-- The free subsoil pages of a stack. -/
def State.freeSub (s : State) (held : List Nat) (st : Nat) : Nat :=
  if s.stackOk st then
    24576 - countIn held (stackPages st) -
      sumNat ([Resv.sub, Resv.headroom, Resv.snap, Resv.poolSub].map fun f => sumOver s.ctxs f st)
  else 0

/-- The payload of QUERY_CAPS: the free counts in the layout of R344, each subsoil item all that is free, then the
grain map. -/
def State.capsPayload (s : State) : List Byte :=
  let held := s.withheldPages
  let top := (List.range 256).map (s.freeTop held)
  let sub := (List.range 12).map (s.freeSub held)
  let counters := (List.range 4).map fun d => if s.dieOk d then 32768 - sumOver s.ctxs Resv.counters d else 0
  let shares := (List.range 64).map fun e => if s.caps.copyEngines.getLsbD e then 128 - sumOver s.ctxs Resv.shares e else 0
  let subs := sub.flatMap (leBytes 4)
  top.flatMap (leBytes 1) ++ subs ++ subs ++ subs ++ subs ++ top.flatMap (leBytes 1) ++ counters.flatMap (leBytes 4) ++
    shares.flatMap (leBytes 1) ++ leBytes 32 s.caps.grains.toNat

/-- The result words of QUERY_CAPS. -/
def State.capsWords (s : State) : List (Nat × Nat) :=
  let held := s.withheldPages
  (s.capWords.zipIdx.map fun p => (4 + p.2, p.1)) ++
  [(9, s.subsoilInService), (10, sumNat ((List.range 256).map (s.freeTop held))),
   (11, sumNat ((List.range 12).map (s.freeSub held))), (12, 64 - s.ctxs.length), (13, 1024 - s.ligil.sessions.length)]

/-- What QUERY_CAPS does once it passes the checks to order 6. -/
def State.queryCaps (sl : Slot) (se : Session) (s : State) : State :=
  if sl.len ≠ 0 then s.invalid se.id sl 2 else s.answer se.id sl 0 0 s.capsWords s.capsPayload

/-- QUERY_CAPS (R359). -/
def execQueryCaps (sl : Slot) (s : State) : Out :=
  .next (s.command (.queryCaps sl) sl (sl.cmd == 0x51) (State.queryCaps sl))

end Sys2Proof.Machine
end

