-- ==== Sys2Proof/Machine/Background.lean ====
section
/-! DEFINITION. Background work: scrub and repair (R237 to R241), page zeroing (R228, R239), recalibration, retraining
and wear levelling (R466, R467), the end of a commons drain (R231), forced slots (R466), and telemetry (R448). -/

namespace Sys2Proof.Machine

/-! ## Pages and repair -/

/-- Whether a page is held by a reservation. -/
def State.reserved (s : State) (p : Nat) : Bool := s.usedPages.contains p

/-- Whether a page lies in a unit in service. -/
def State.pageOk (s : State) (p : Nat) : Bool :=
  if p < 16384 then s.grainOk (pageGrain p) else decide (p < 311296) && s.stackOk (pageStack p)

/-- The source of a memory event: the grain of a topsoil page, the subsoil controller of a subsoil page (R22). -/
def pageSource (p : Nat) : Nat := if p < 16384 then pageGrain p else 0x700 + pageStack p

/-- An event of memory that concerns the device. -/
def State.raisePage (s : State) (p code : Nat) : State := s.raise code 0 (pageSource p) noCtx

/-- An error found in a page: the event names the context whose page it is (R425). -/
def State.raiseError (s : State) (p code : Nat) : State :=
  s.raise code 0 (pageSource p) (((s.ctxs.find? fun c => c.ownPages.contains p).map Ctx.id).getD noCtx)

/-- A corrected error counts for the context whose page it is in (R247). -/
def State.raiseCorrected (s : State) (p code : Nat) : State :=
  match s.ctxs.find? fun c => c.ownPages.contains p with
  | none => s.raiseError p code
  | some c => (s.raiseError p code).mapCtx c.id fun c =>
    { c with lgl := if p < 16384 then { c.lgl with topCe := satAdd 0xFFFF c.lgl.topCe 1 }
                    else { c.lgl with subCe := satAdd 0xFFFF c.lgl.subCe 1 } }

/-- A subsoil page is withheld for good, once it is free, and recorded in flash (R240). -/
def State.retirePage (s : State) (p : Nat) : State :=
  { s with
    bg := { s.bg with retired := insertNew s.bg.retired p }
    flash := { s.flash with retiredPages := insertNew s.flash.retiredPages p } }.saveRetired.raisePage p 0x2204

/-- A subsoil row is spared, or its page retired when the bank has no spare row left (R240). -/
def State.spareRow (s : State) (p row : Nat) : State :=
  let bank := Config.bankOf row
  let used := getKey 0 s.bg.sparesUsed bank
  let s := { s with bg := { s.bg with
    rowPasses := s.bg.rowPasses.filter fun q => q.1 != row
    subUe := s.bg.subUe.filter fun w => Config.rowOf w != row } }
  if used < 4 then
    { s with bg := { s.bg with sparesUsed := setKey s.bg.sparesUsed bank (used + 1) } }.raisePage p 0x2203
  else s.retirePage p

/-- The rows of a page that have shown an uncorrectable error and are not yet spared. -/
def State.ueRows (s : State) (p : Nat) : List Nat := ((s.bg.subUe.filter (inPage p)).map Config.rowOf).eraseDups

/-- Whether a row holds an uncorrectable word. -/
def State.rowHoldsUe (s : State) (row : Nat) : Bool :=
  s.bg.ueWords.any fun w => decide (0x800000000 ≤ w) && Config.rowOf w == row

/-- The deferred repair of a subsoil page (R240). -/
def State.repairPage (s : State) (p : Nat) : State :=
  if p < 16384 then s else (s.ueRows p).foldl (fun s r => s.spareRow p r) s

/-- The rows of a page that showed an uncorrectable error and now hold correct data are spared (R240, log entry 125). -/
def State.repairHealed (s : State) (p : Nat) : State :=
  ((s.ueRows p).filter fun r => !(s.rowHoldsUe r)).foldl (fun s r => s.spareRow p r) s

/-- Zero data with valid check bits in a page (R239). -/
def State.clearPage (s : State) (p : Nat) : State :=
  { s with mem := memZero s.mem (pageAddr p) pageSize
           bg := { s.bg with ueWords := s.bg.ueWords.filter fun w => !(inPage p w) } }

/-- Whether an uncorrectable error has come back in a topsoil page after a rewrite (R241). -/
def State.recurs (s : State) (p : Nat) : Bool := s.bg.recurs p

/-- A page that a scrub finds uncorrectable: a free page is withheld at once and zeroed; a reserved one keeps its word
(R238). -/
def State.withholdFree (s : State) (p : Nat) : State :=
  if s.reserved p then s
  else { s.repairPage p with bg := { (s.repairPage p).bg with
    withheld := insertNew (s.repairPage p).bg.withheld p, zeroing := insertNew (s.repairPage p).bg.zeroing p } }

/-! ## Forced slots (R466) -/

/-- Sets or clears a task's bit in PWR_BG_STATUS (R479). -/
def State.setForced (s : State) (task : Nat) (on : Bool) : State :=
  let bit : BitVec 8 := BitVec.ofNat 8 (2 ^ task)
  { s with bg := { s.bg with forced := if on then s.bg.forced ||| bit else s.bg.forced &&& ~~~bit } }

/-- BG_DEADLINE_FORCED (R466): tasks 1 to 6 have deadlines; the slot shows until the task's own row comes. -/
def execBgDeadlineForced (task : Nat) (s : State) : Out :=
  if 1 ≤ task ∧ task ≤ 6 then .next ((s.raise 0x7101 task pkgPath noCtx).setForced task true) else .next s

/-! ## The end of a drain (R231, R233) -/

/-- Whether an instruction that has been issued and has not retired reads a byte of an object's resident view: by a tensor
it reads, a write mask, or a copy's source. -/
def State.readsView (s : State) (c : Ctx) (rp : StepRun × Placed) (o : CommonsObj) : Bool :=
  let ws := c.words rp.2.stream rp.2.index
  let lo := 0xC000000000 + o.entry.view
  let hits (q : Nat × Nat) : Bool := decide (q.1 < lo + o.entry.size * pageSize) && decide (lo < q.1 + q.2)
  let r : InstrRef := { ctx := c.id, step := rp.1.step, stream := rp.2.stream, index := rp.2.index }
  let issued := rp.2.phase == .issued || rp.2.phase == .executed ||
    s.scheds.any fun q => q.2.running.any fun x => x.2.1.ref == r
  let tensors := match c.plan with
    | none => []
    | some p => ((readBy ws).filterMap fun i => p.tensors[i]?).flatMap Tensor.spans
  let mask := match c.plan with
    | some p => if isProduct ws && wHi ws 6 != 0xFFFF then [(leAt (p.arg (wHi ws 6)) 0 6, 32768)] else []
    | none => []
  let copied := if wOp ws = 0x40 then [(copySrc ws, copyLen ws)] else if wOp ws = 0x44 then [(copySrc ws, 64 * portLines ws)] else []
  issued && (tensors ++ mask ++ copied).any hits

/-- Whether a read of an object's resident image is in flight (R233). -/
def State.readInFlight (s : State) (o : CommonsObj) : Bool := s.ctxs.any fun c => c.allPlaced.any fun rp => s.readsView c rp o

/-- COMMONS_DRAIN_DONE (R231, R233): once no read of the resident image is in flight the pages return to the pool and
queued promotes are served. -/
def execCommonsDrainDone (obj : Nat) (s : State) : Out :=
  match s.object? obj with
  | some o =>
    if o.phase = .draining ∧ !(s.readInFlight o) then
      .next (s.mapObject obj fun o => { o with phase := .home, resident := [] }).serveQueue
    else .next s
  | none => .next s

/-! ## Scrub -/

/-- The page was read by its scrub. -/
def State.scrubbedAt (s : State) (p : Nat) : State :=
  { s with bg := { s.bg with scrubbed := setKey s.bg.scrubbed p s.now } }

/-- A corrected error of a patrol pass in a subsoil row, which is spared at the fourth within 24 h unless it holds an
uncorrectable word (R240). -/
def State.rowCorrected (s : State) (p a : Nat) : State :=
  let row := Config.rowOf a
  let s := s.raiseCorrected p 0x2201
  let recent := s.bg.rowPasses.filter fun q => decide (s.opMs ≤ q.2 + 86400000)
  let passes := recent ++ [(row, s.opMs)]
  let s : State := { s with bg := { s.bg with rowPasses := passes } }
  if (passes.filter fun q => q.1 == row).length < 4 || s.rowHoldsUe row then s else s.spareRow p row

/-- PATROL_SCRUB (R238, R240): a subsoil page read; one being zeroed counts as scrubbed (R468). -/
def execPatrolScrub (p : Nat) (finding : Finding) (s : State) : Out :=
  if p < 16384 ∨ !(s.pageOk p) then .next s
  else
    let s := (s.scrubbedAt p).setForced 1 false
    if s.bg.zeroing.contains p then .next s
    else match finding with
    | .clean => .next (s.repairHealed p)
    | .corrected a => if inPage p a then .next ((s.rowCorrected p a).repairHealed p) else .next s
    | .uncorrectable a =>
      if inPage p a then
        let s := { s with bg := { s.bg with
          ueWords := insertNew s.bg.ueWords (a / 32 * 32), subUe := insertNew s.bg.subUe (a / 32 * 32) } }
        .next ((s.raiseError p 0x2202).withholdFree p)
      else .next s

/-- TOPSOIL_SCRUB (R238, R241). -/
def execTopsoilScrub (p : Nat) (finding : Finding) (s : State) : Out :=
  if 16384 ≤ p ∨ !(s.pageOk p) then .next s
  else
    let s := (s.scrubbedAt p).setForced 2 false
    if s.bg.zeroing.contains p then .next s
    else match finding with
    | .clean => .next s
    | .corrected a => if inPage p a then .next (s.raiseCorrected p 0x2101) else .next s
    | .uncorrectable a =>
      if inPage p a then
        let w := a / 8 * 8
        let again := if s.bg.ueWords.contains w then [] else [w]
        let s := { s with bg := { s.bg with ueWords := insertNew s.bg.ueWords w, topUe := s.bg.topUe ++ again } }
        .next ((s.raiseError p 0x2102).withholdFree p)
      else .next s

/-- PAGE_ZERO_DONE (R228, R239 to R241): the page is repaired and zeroed and is free again, unless it is withheld. -/
def execPageZeroDone (p : Nat) (s : State) : Out :=
  if s.bg.zeroing.contains p then
    let s := (s.repairPage p).clearPage p
    let held := s.recurs p || s.bg.retired.contains p
    let s := { s with bg := { s.bg with
      zeroing := s.bg.zeroing.filter (· != p)
      withheld := if held && !(s.reserved p) then insertNew s.bg.withheld p else s.bg.withheld.filter (· != p) } }
    let s := s.answerReserves
    .next (if s.ligil.sessions.any fun se => se.busy.any fun b => match b.1 with
        | .reserve _ => true
        | _ => false then s else s.setForced 5 false)
  else .next s

/-! ## Links, stacks, flash -/

/-- A lane of a port, 8 for the calibration lane, was recalibrated. -/
def State.recalDone (s : State) (p lane : Nat) : State :=
  { s with bg := { s.bg with recals := setKey s.bg.recals (9 * p + lane) s.now } }

/-- A data lane's traffic moves to the calibration lane; when that lane failed its test, the lane is out of service
meanwhile as the task's forced slot, which `forced` says was logged already (R466, R467). -/
def State.beginRecal (s : State) (p lane : Nat) (calOk forced : Bool) : State :=
  if calOk then s.mapPort p fun q => { q with recal := some lane }
  else
    let s := if forced then s else s.raise 0x7101 3 pkgPath noCtx
    (s.setForced 3 true).mapPort p fun q => { q with recal := some lane, lanes := q.lanes - 2 ^ lane, widthChange := true }

/-- A data lane's recalibration ends; a lane that was out of service returns with a width change (R467). -/
def State.endRecal (s : State) (p lane : Nat) : State :=
  (s.recalDone p lane).mapPort p fun q =>
    { q with recal := none, lanes := if bitOf q.lanes lane then q.lanes else q.lanes + 2 ^ lane
             widthChange := q.widthChange || !(bitOf q.lanes lane) }

/-- EQUALISER_RECALIBRATION (R293, R467): a data lane's recalibration begins, and ends when its turn is named again or
another lane's comes; the calibration lane, 8, is recalibrated while no handover is active. -/
def execEqualiserRecalibration (p lane : Nat) (s : State) : Out :=
  match s.port? p with
  | none => .next s
  | some port =>
    let forced := s.bg.forced.getLsbD 3
    let s := s.setForced 3 false
    let data := decide (lane < 8) && bitOf port.lanes lane
    if port.phase ≠ .up then .next s
    else match port.recal with
    | none => .next (if lane = 8 then s.recalDone p 8 else if data then s.beginRecal p lane port.calOk forced else s)
    | some l =>
      if lane = l then .next (s.endRecal p l)
      else if data then .next ((s.endRecal p l).beginRecal p lane port.calOk false)
      else .next s

/-- The channel of a byte of a stack, by its offset in the stack's slice (R221). -/
def channelOf (so : Nat) : Nat := bitsOf so 15 11 ^^^ bitsOf so 20 16

/-- SUBSOIL_RETRAINING (R221, R466): one of the 32 channels of a stack pauses and is trained again. -/
def execSubsoilRetraining (stack channel : Nat) (s : State) : Out :=
  if stack < 12 ∧ channel < 32 ∧ s.stackOk stack then
    .next ({ s with bg := { s.bg with retrained := setKey s.bg.retrained (32 * stack + channel) s.now } }.setForced 4 false)
  else .next s

/-- FLASH_WEAR_LEVELLING (R438, R466): an erase block of the Sediment region is freed; the order in which records are
read does not change. -/
def execFlashWearLevelling (block : Nat) (s : State) : Out :=
  .next ({ s with bg := { s.bg with erased := insertNew s.bg.erased block } }.setForced 6 false)

/-! ## Telemetry (R448) -/

/-- A signed 16-bit field. -/
def le16s (v : Int) : List Byte := leBytes 2 (v % 65536).toNat

/-- The highest arithmetic clock set on a die, in MHz (R459, R461). -/
def State.clockMhz (s : State) (d : Nat) : Nat := if s.power.brake then 250 else stepsMhz (s.dieCap d)

/-- The bytes of a telemetry sample of a number; `k` is the free counter for the front ports' counts, which nothing in
the spec derives. -/
def State.sampleImage (s : State) (t : Telemetry) (number k : Nat) : List Byte :=
  let die (d : Nat) : List Byte :=
    leBytes 2 (t.millivolts.getD d 0) ++ leBytes 2 (t.amps.getD d 0) ++ le16s (t.hottest.getD d 0) ++ leBytes 2 (s.clockMhz d)
  leBytes 8 number ++ leBytes 8 s.opMs ++ leBytes 4 (s.power.history.getLastD 0) ++ leBytes 4 s.power.limitW ++
  (List.range 4).flatMap die ++ (List.range 12).flatMap (fun i => le16s (t.stackTemps.getD i 0)) ++
  leBytes 2 (packBits s.power.doubled) ++ [0, 0] ++ (List.range 12).flatMap (fun i => leBytes 2 (t.busy.getD i 0)) ++
  (List.range 4).flatMap (fun d => leBytes 4 (s.power.throttleUs.getD d 0 / 1000)) ++ [0, 0, 0, 0] ++
  s.ports.flatMap (fun p => leBytes 8 p.sentBytes ++ leBytes 8 p.receivedBytes) ++
  (List.range 64).flatMap (fun e => leBytes 8 (s.engineRec (.copy e)).moved) ++
  (List.range 32).map (Config.freeByte k) ++ leBytes 4 s.sed.written ++ leBytes 4 s.sed.suppressed ++ leBytes 4 s.sed.lost ++
  List.replicate 20 0

/-- TELEMETRY_SAMPLE (R448): a sample that could not be taken before it has moved the sample number on (R466). -/
def execTelemetrySample (t : Telemetry) (s : State) : Out :=
  if s.boot.phase = .running then
    let (k, s) := s.draw
    let n := s.bg.samples + t.skipped + 1
    .next { s with bg := { s.bg with samples := n, sample := s.sampleImage t n k } }
  else .next s

end Sys2Proof.Machine
end

