-- ==== Sys2Proof/Machine/Resets.lean ====
section
/-! DEFINITION. Faults, hangs and the five reset levels (R364 to R384): item retries, watchdogs, context, engine,
partition and chip resets, escalation, power cycle, RESET_REQ (R360) and RELEASE (R346). -/

namespace Sys2Proof.Machine

/-! ## Names -/

/-- The ped path of an engine: its grain's, or the copy engine's (R22). -/
def enginePath : Engine → Nat
  | .forward g => g
  | .backward0 g => g
  | .backward1 g => g
  | .vector g => g
  | .conversion0 g => g
  | .conversion1 g => g
  | .copy n => 0x500 + n

/-- The grain that holds an engine; none for a copy engine. -/
def engineGrain : Engine → Option Nat
  | .copy _ => none
  | e => some (enginePath e)

/-- The array number of an array engine (R158). -/
def engineArray : Engine → Option Nat
  | .forward _ => some 0
  | .backward0 _ => some 1
  | .backward1 _ => some 2
  | _ => none

/-- The die of an engine. -/
def engineDie (e : Engine) : Nat := pathDie (enginePath e)

/-- The engines of a grain's or a copy engine's ped path (R373). -/
def pathEngines (p : Nat) : List Engine :=
  if p < 256 then [.forward p, .backward0 p, .backward1 p, .vector p, .conversion0 p, .conversion1 p]
  else [.copy (p % 256)]

/-- The ped path of a die (R22). -/
def diePath (d : Nat) : Nat := 0x300 + 64 * d

/-- Whether an engine is in service. -/
def State.engineOk (s : State) (e : Engine) : Bool :=
  match e with
  | .copy n => decide (n < 64) && s.caps.copyEngines.getLsbD n
  | .backward1 g => decide (g < 256) && s.grainOk g && s.caps.units.getLsbD 2
  | e => decide (enginePath e < 256) && s.grainOk (enginePath e)

/-- The sequence of the newest record of a code, which names a crash dump (R442). -/
def State.seqOf (s : State) (code : Nat) : Nat :=
  ((s.sed.ring.reverse.find? fun r => r.code == code).map SedRec.seq).getD s.sed.nextSeq

/-- One failure of the device for M_dev (R390). -/
def State.countFailure (s : State) : State := { s with resets := { s.resets with failures := s.resets.failures ++ [s.opMs] } }

/-! ## The crash dump (R442, R443) -/

/-- The section table of a crash dump of `n` bytes, of 1 to 254 sections of 16 bytes that lie in the dump after its
header; which sections there are is free, and so is what the table leaves of the 4 KiB header (R442, log entry 105). -/
def dumpTable (k n : Nat) : List Byte :=
  let raw (i len : Nat) : List Byte := (List.range len).map fun j => Config.dumpByte k (i + j)
  let section_ (i : Nat) : List Byte :=
    let b := raw (32 + 16 * i) 16
    let offset := 4096 + leAt b 4 4 % (n - 4095)
    leBytes 2 (leAt b 0 2 % 4096 + leAt b 2 2 % 5 * 4096) ++ [0, 0] ++ leBytes 4 offset ++
      leBytes 4 (leAt b 8 4 % (n - offset + 1)) ++ b.drop 12
  let count := leAt (raw 24 4) 0 4 % 254 + 1
  leBytes 4 count ++ raw 28 4 ++ (List.range count).flatMap section_ ++ raw (32 + 16 * count) (4064 - 16 * count)

/-- A crash dump of a reset record, unless the buffer still holds one that is not copied. Its sections and what they hold
are free (R442, log entry 105). -/
def State.writeDump (s : State) (seq : Nat) : State :=
  if s.sed.dumpCopying then s
  else
    let (k, s) := s.draw
    let n := 4096 + Config.freeNat k % (2 ^ 25 - 4095)
    let rest := dumpTable k n ++ (List.range (n - 4096)).map fun i => Config.dumpByte k (4096 + i)
    let bytes := leBytes 4 0x504D5544 ++ leBytes 2 1 ++ [0, 0] ++ leBytes 6 seq ++ [0, 0] ++ leBytes 4 n ++
      leBytes 4 (crc32c rest) ++ rest
    { s with sed := { s.sed with dump := some { seq, bytes }, dumpCopying := true } }

/-- DUMP_FLASH_COPY_DONE (R443). -/
def execDumpFlashCopyDone (s : State) : Out :=
  if s.sed.dumpCopying then .next { s with sed := { s.sed with dumpFlash := s.sed.dump, dumpCopying := false } } else .next s

/-! ## Retirement (R34, R37, R241, R368) -/

/-- A grain leaves service (R8, R34). -/
def State.retireGrain (s : State) (g : Nat) : State :=
  let bit : BitVec 256 := BitVec.ofNat 256 (2 ^ g)
  let out : State := { s with
    caps := { s.caps with grains := s.caps.grains &&& ~~~bit }
    flash := { s.flash with retiredGrains := s.flash.retiredGrains ||| bit }
    resets := { s.resets with judged := s.resets.judged.filter (· != g) } }
  (out.saveRetired.raise 0x5010 0 g noCtx).notifyOps 0x5010 0

/-- A copy engine leaves service, and its shares with it (R368). -/
def State.retireCopyEngine (s : State) (e : Nat) : State :=
  let bit : BitVec 64 := BitVec.ofNat 64 (2 ^ e)
  let out : State := { s with
    caps := { s.caps with copyEngines := s.caps.copyEngines &&& ~~~bit }
    flash := { s.flash with retiredCopy := s.flash.retiredCopy ||| bit }
    resets := { s.resets with judgedCopy := s.resets.judgedCopy.filter (· != e) }
    ctxs := s.ctxs.map fun c => { c with resv := { c.resv with shares := c.resv.shares.set e 0 } } }
  out.saveRetired.raise 0x5012 0 (0x500 + e) noCtx

/-- The firmware judges a grain permanently failed and requests a partition reset of its die (R34, R367); the reset begins
by its own row, and a chip reset that comes first contains it (R383). -/
def State.judge (s : State) (g : Nat) : State :=
  { s with resets := { s.resets with
    judged := insertNew s.resets.judged g, wanted := insertNew s.resets.wanted (g / 64) } }

/-- The withheld topsoil pages of a die's grains in service are repaired from spare rows, or their grain is judged (R241). -/
def State.repairTop (s : State) (d : Nat) : State :=
  (s.bg.withheld.filter fun p => decide (p < 16384) && pageDie p == d && s.grainOk (pageGrain p) && s.recurs p).foldl (fun s p =>
    if Config.topSpareLeft p then
      { s with bg := { s.bg with withheld := s.bg.withheld.filter (· != p),
                                 topUe := s.bg.topUe.filter fun w => !(inPage p w) } }.raisePage p 0x2103
    else s.judge (pageGrain p)) s

/-- A die without a grain in service leaves service: its ports that are not retired yet are retired (R37). -/
def State.retireDie (s : State) (d : Nat) : State :=
  if s.dieOk d then s
  else (((List.range 8).map fun i => 8 * d + i).filter s.caps.ports.getLsbD).foldl (fun s p => s.retirePort p) s

/-- What the reset and retire phase does on a die (R34, R37, R241, R368). -/
def State.retireOn (s : State) (d : Nat) : State :=
  let s := s.repairTop d
  let s := (s.resets.judged.filter fun g => g / 64 == d).foldl (fun s g => s.retireGrain g) s
  let s := (s.resets.judgedCopy.filter fun e => e / 16 == d).foldl (fun s e => s.retireCopyEngine e) s
  s.retireDie d

/-! ## Context resets (R377) -/

/-- CONTEXT_RESET: a context reset begins (R373, R377). -/
def execContextReset (id cause : Nat) (s : State) : Out := .next (s.beginCtxReset id cause)

/-- Replaces a context's record of its reset in progress. -/
def State.mapReset (s : State) (id : Nat) (f : CtxReset → CtxReset) : State :=
  s.mapCtx id fun c => { c with reset := c.reset.map f }

/-- The stop phase ends: the context's work is gone, collectives and copies send nothing more, and its bulk handles are
cancelled (R313, R377). -/
def State.stopCtx (s : State) (id : Nat) : State :=
  match s.ctx? id with
  | none => s
  | some c =>
    let s := (((s.discardWork id).cancelHandles id).unsend c).dropParts c
    s.mapCtx id fun c => { c with
      steps := [], early := [], snapAsked := false, holdAsked := false, heldDegraded := false
      reset := c.reset.map fun r => { r with stopped := true } }

/-- CONTEXT_RESET_STOP_DONE (R377). -/
def execContextResetStopDone (id : Nat) (s : State) : Out :=
  match (s.ctx? id).bind Ctx.reset with
  | some r => if r.stopped then .next s else .next (s.stopCtx id)
  | none => .next s

/-- Answers the commands that waited for a context's reset with the code of the reset that ends (R352, R360, R383). -/
def State.answerReset (s : State) (id code : Nat) : State :=
  s.answerBusy fun b => match b with
    | .hold i => if i = id then some (code, 0, []) else none
    | .contextReset i inside => if i = id then some (if code = 0x5002 ∧ !inside then 0 else code, 0, []) else none
    | _ => none

/-- A context reset ends: the context is HELD, restored from its last snapshot, or lost; a RELEASE goes on
(R346, R376, R377, R384). -/
def State.endCtxReset (s : State) (id : Nat) : State :=
  match s.ctx? id with
  | none => s
  | some c =>
    match c.reset with
    | none => s
    | some r =>
      let s := if r.lost then s.loseContext id 1 else s.restoreAfterReset id r.cause
      let s := s.mapCtx id fun c => { c with reset := none, holdAsked := false }
      let s := match s.ctx? id with
        | some x =>
          if x.phase ≠ CtxPhase.held ∨ (r.release ∧ r.cause = 1) then s
          else (s.raise 0x5002 r.cause pkgPath id).notify id 0x5002 r.cause x.spr.step []
        | none => s
      let s := s.answerReset id c.rst.code
      if r.release then s.finishRelease id else s

/-- CONTEXT_RESET_RESTORE_DONE (R377). -/
def execContextResetRestoreDone (id : Nat) (s : State) : Out :=
  match (s.ctx? id).bind Ctx.reset with
  | some r => if r.stopped ∧ r.dies.isEmpty then .next (s.endCtxReset id) else .next s
  | none => .next s

/-! ## RELEASE (R346) -/

/-- What RELEASE does once it passes the checks to order 6. -/
def State.release (sl : Slot) (se : Session) (s : State) : State :=
  match s.ctx? (sl.w 4 % 256) with
  | none => s
  | some c =>
    if sl.len ≠ 0 then s.invalid se.id sl 2
    else if !(Slot.ctxOk sl) then s.invalid se.id sl 3
    else if s.commonsBusy c.id then s.refuse se.id sl 0x2301 0
    else
      let other := c.config.owner != se.identity
      let s := if other then s.notify c.id 0x5002 1 c.spr.step [] else s
      let s := s.setBusy se.id (.release c.id) sl
      let mark (s : State) : State := s.mapReset c.id fun r => { r with release := true }
      match c.phase with
      | .running => mark (s.beginCtxReset c.id (if other then 1 else 3))
      | .held => mark (s.beginCtxReset c.id (if other then 1 else 3))
      | .resetting => mark s
      | _ => s.finishRelease c.id

/-- RELEASE (R346). -/
def execRelease (sl : Slot) (s : State) : Out :=
  .next (s.command (.release sl) sl (sl.cmd == 0x12) (State.release sl))

/-! ## Partition resets (R376, R379) -/

/-- Whether a context has a reserved item on a die, or a plan stream addressed to a ped on it (R376). -/
def Ctx.usesDie (c : Ctx) (d : Nat) : Bool :=
  let some_ (l : List Nat) (lo n : Nat) : Bool := ((l.drop lo).take n).any (· != 0)
  some_ c.resv.top (64 * d) 64 || some_ c.resv.poolTop (64 * d) 64 ||
  ([c.resv.sub, c.resv.headroom, c.resv.snap, c.resv.poolSub].any fun l => some_ l (3 * d) 3) ||
  some_ c.resv.counters d 1 || some_ c.resv.shares (16 * d) 16 || (c.bindings.any fun b => b.port / 8 == d) ||
  ((c.plan.map Plan.streams).getD []).any fun st => decide (st.path < 0x400) && st.path % 256 / 64 == d

/-- The commons objects with a home or resident page on a die (R233). -/
def State.objectsOn (s : State) (d : Nat) : List CommonsObj :=
  s.arbiter.objects.filter fun o => (o.home ++ o.resident).any fun p => pageDie p == d

/-- Whether a context has attached or holds residency on an object with a page on a die. -/
def State.readsDie (s : State) (c : Ctx) (d : Nat) : Bool :=
  (s.objectsOn d).any fun o => c.attached.contains o.entry.id || c.residency.contains o.entry.id || o.holders.contains c.id

/-- Whether a partition reset of a die takes pages of a context with it (R376). -/
def State.losesPages (s : State) (c : Ctx) (d : Nat) : Bool :=
  (c.ownPages.any fun p => pageDie p == d) || s.readsDie c d

/-- A context is included in a partition reset: one already in a reset is absorbed by it (R376, R383). -/
def State.includeCtx (s : State) (d id : Nat) : State :=
  match s.ctx? id with
  | none => s
  | some c =>
    let lost := s.losesPages c d
    let s := match c.reset with
      | some _ => s.mapCtx id fun c => { c with rst := { c.rst with
          level := 3, code := 0x5004, count := satAdd 0xFF c.rst.count 1 } }
      | none => if lost then s.mapCtx id fun c => c.enterReset 5 s.now s.opMs else s.beginCtxReset id 5
    s.mapReset id fun r => { r with cause := 5, dies := insertNew r.dies d, lost := r.lost || lost }

/-- A die's ports go down and fall silent (R302, R375): they are in PROBE, and hear nothing before the die returns. A
retired port stays so, and one that is OFF too. -/
def State.silenceDie (s : State) (d : Nat) : State :=
  ((List.range 8).map fun i => 8 * d + i).foldl (fun s p =>
    if (s.port? p).any fun q => q.phase == .retired || q.phase == .off then s
    else (s.portDown p).mapPort p fun q => { q with phase := .probe }) s

/-- A partition reset of a die begins (R376, R379, R384). Engine resets on the die are absorbed; during a boot the chip
reset contains it (R383). -/
def State.partitionReset (s : State) (d cause : Nat) : State :=
  if !(decide (d < 4)) || s.boot.phase != .running || !(s.dieOk d) || s.dieResetting d then s
  else
    let s := (s.writeNow 0x5004 cause (diePath d) noCtx).notifyOps 0x5004 cause
    let seq := s.seqOf 0x5004
    let ids := (s.ctxs.filter fun c => c.usesDie d || s.readsDie c d).map Ctx.id
    let s := ids.foldl (fun s id => s.includeCtx d id) (s.countFailure.silenceDie d)
    let drop (e : EngineRec) : EngineRec := if engineDie e.engine = d then { e with resetting := none } else e
    { s with
      engines := s.engines.map drop
      power := { s.power with units := s.power.units.filter fun u => pathDie u.1 != d }
      resets := { s.resets with wanted := s.resets.wanted.filter (· != d), parts := s.resets.parts ++
        [{ die := d, cause, phase := .stop, start := s.now, seq, included := ids }] } }

/-- PARTITION_RESET (R373, R379). -/
def execPartitionReset (d cause : Nat) (s : State) : Out := .next (s.partitionReset d cause)

/-- Moves a partition reset from one phase to the next, with what the phase's end does. -/
def State.partPhase (s : State) (d : Nat) (a b : PartPhase) (act : PartReset → State → State) : State :=
  match s.resets.parts.find? fun r => r.die == d with
  | none => s
  | some r =>
    if r.phase = a then
      act r { s with resets := { s.resets with parts := s.resets.parts.map fun x =>
        if x.die = d then { x with phase := b } else x } }
    else s

/-- PARTITION_STOP_DONE (R379): every included context is stopped. -/
def execPartitionStopDone (d : Nat) (s : State) : Out :=
  let stopped (id : Nat) : Bool := match s.ctx? id with
    | some c => c.reset.any CtxReset.stopped
    | none => true
  if (s.resets.parts.find? fun r => r.die == d).any fun r => r.included.all stopped then
    .next (s.partPhase d .stop .dump fun _ s => s)
  else .next s

/-- PARTITION_DUMP_DONE (R379, R442). -/
def execPartitionDumpDone (d : Nat) (s : State) : Out :=
  .next (s.partPhase d .dump .retire fun r s => s.writeDump r.seq)

/-- PARTITION_RETIRE_DONE (R34, R37, R241, R368, R379). -/
def execPartitionRetireDone (d : Nat) (s : State) : Out := .next (s.partPhase d .retire .train fun _ s => s.retireOn d)

/-- PARTITION_TRAIN_DONE (R307, R379): the loopback tests of the die's ports end, and a port that failed twice running is
retired. -/
def execPartitionTrainDone (t : DieTraining) (s : State) : Out :=
  .next (s.partPhase t.die .train .zero fun _ s => (List.range 8).foldl (fun s i =>
    if (s.port? (8 * t.die + i)).any fun q => q.phase == .retired then s
    else s.selfTested (8 * t.die + i) (!(bitOf t.failed i))) s)

/-- A die's topsoil and subsoil zeroed, with the repairs that waited for it (R239, R240, R379). -/
def State.zeroDie (s : State) (d : Nat) : State :=
  let s := ((s.bg.subUe.filterMap pageOf?).eraseDups.filter fun p => pageDie p == d).foldl (fun s p => s.repairPage p) s
  let off (p : Nat) : Bool := pageDie p != d
  let mem := memZero (memZero s.mem (pageAddr (4096 * d)) (4096 * pageSize)) (pageAddr (16384 + 73728 * d)) (73728 * pageSize)
  { s with
    mem
    bg := { s.bg with
      ueWords := s.bg.ueWords.filter fun w => (pageOf? w).any off
      zeroing := s.bg.zeroing.filter off
      withheld := s.bg.withheld.filter fun p => off p || s.recurs p || s.bg.retired.contains p }
    arbiter := { s.arbiter with objects := s.arbiter.objects.filter fun o => (o.home ++ o.resident).all off } }

/-- Answers RESET_REQs for a die and for engines on it (R360, R383). -/
def State.answerPartition (s : State) (d : Nat) : State :=
  s.answerBusy fun b => match b with
    | .partitionReset i inside => if i = d then some (if inside then 0x5004 else 0, 0, []) else none
    | .engineReset p _ => if pathDie p = d then some (0x5004, 0, []) else none
    | _ => none

/-- The die returns: its ports enter PROBE, and each included context that waits for no other die is lost, or is
restored by its own row (R376, R379, R383). -/
def State.returnDie (s : State) (r : PartReset) : State :=
  let s := { s with resets := { s.resets with parts := s.resets.parts.filter fun x => x.die != r.die } }
  let s := ((List.range 8).map fun i => 8 * r.die + i).foldl (fun s p =>
    s.mapPort p fun q => if q.phase = .retired then q else { q with phase := .probe }) s
  let s := s.raise 0x5004 r.cause (diePath r.die) noCtx
  let s := s.ctxs.foldl (fun s c =>
    let s := s.mapReset c.id fun x => { x with dies := x.dies.filter (· != r.die) }
    if (c.reset.any fun x => x.lost && x.dies.all (· == r.die)) then s.endCtxReset c.id else s) s
  (s.answerPartition r.die).answerReserves

/-- PARTITION_ZERO_DONE (R376, R379). -/
def execPartitionZeroDone (d : Nat) (s : State) : Out :=
  .next (s.partPhase d .zero .zero fun r s => (s.zeroDie d).returnDie r)

/-! ## Engine resets (R366 to R371, R378) -/

/-- The instructions a conversion unit of a grain holds, in the order they were placed. -/
def State.conversions (s : State) (g : Nat) : List InstrRef :=
  s.ctxs.flatMap fun c => c.allPlaced.filterMap fun rp =>
    let r : InstrRef := { ctx := c.id, step := rp.1.step, stream := rp.2.stream, index := rp.2.index }
    match s.found? r with
    | some f => if (f.p.phase = .issued ∨ f.p.phase = .executed) ∧ (s.unitEngines f).contains (.conversion0 g) then some r else none
    | none => none

/-- The instructions with work issued on an engine (R370, R378). -/
def State.issuedOn (s : State) (e : Engine) : List InstrRef :=
  match e with
  | .conversion0 g => (s.conversions g).take 1
  | .conversion1 g => (s.conversions g).drop 1
  | e =>
    match engineArray e with
    | some a => ((s.sched (enginePath e)).running.filter fun x => x.1 == a).map fun x => x.2.1.ref
    | none => s.ctxs.flatMap fun c => c.allPlaced.filterMap fun rp =>
        let r : InstrRef := { ctx := c.id, step := rp.1.step, stream := rp.2.stream, index := rp.2.index }
        match s.found? r with
        | none => none
        | some f =>
          let mine : Bool := match e with
            | .copy n => laneOf f.words == some (Lane.copy n)
            | e => (s.unitEngines f).contains e
          if (f.p.phase = .issued ∨ f.p.phase = .executed) ∧ mine = true then some r else none

/-- The operations in an engine fail: their contexts take a context reset, and PED_STATUS.fault shows the code (R256,
R378). -/
def State.failIssued (s : State) (e : Engine) : State :=
  (s.issuedOn e).foldl (fun s r =>
    let s := s.beginCtxReset r.ctx 4
    s.mapCtx r.ctx fun c =>
      let p := c.streamPath r.stream
      c.setPath p { c.path p with fault := 0x5003 }) s

/-- The fills that run on a copy engine fail (R232, R378). -/
def State.failFills (s : State) (e : Engine) : State :=
  match e with
  | .copy n => (s.arbiter.objects.filter fun o => o.phase == .filling && o.engine == n).foldl
      (fun s o => s.fillFailed o.entry.id (Fail.mk' 0x5003 0)) s
  | _ => s

/-- Twenty-four hours in ms. -/
def dayMs : Nat := 86400000

/-- What an engine reset does to one engine: its work fails, and its array is empty (R378). -/
def State.stopEngine (s : State) (cause : Nat) (e : Engine) : State :=
  let s := (s.failIssued e).failFills e
  let s := match engineArray e with
    | some a =>
      let q := s.sched (enginePath e)
      s.setSched (enginePath e) { q with running := q.running.filter fun x => x.1 != a }
    | none => s
  let recent := ((s.engineRec e).resets.filter fun t => decide (s.opMs ≤ t + dayMs)) ++ [s.opMs]
  s.mapEngine e fun x => { x with parity := [], resets := recent, resetting := some (cause, s.now) }

/-- The third engine reset within 24 h judges the engine's grain, or the copy engine, whose die takes a partition reset
at once (R367, R368). -/
def State.judgeEngine (s : State) (e : Engine) : State :=
  if (s.engineRec e).resets.length < 3 then s
  else match e with
    | .copy n =>
      ({ s with resets := { s.resets with judgedCopy := insertNew s.resets.judgedCopy n } } : State).partitionReset (engineDie e) 8
    | e => s.judge (enginePath e)

/-- An engine reset of the engines of one ped path begins (R378, R384): one record, one event and one failure of R390,
however many of the path's engines it names. -/
def State.resetEngines (s : State) (path cause : Nat) (es : List Engine) : State :=
  let es := es.filter fun e => enginePath e == path && s.engineOk e && (s.engineRec e).resetting.isNone
  if s.boot.phase != .running || s.dieResetting (pathDie path) || es.isEmpty then s
  else
    let s := (s.writeNow 0x5003 cause path noCtx).notifyOps 0x5003 cause
    let s := es.foldl (fun s e => s.stopEngine cause e) s.countFailure
    es.foldl (fun s e => s.judgeEngine e) s

/-- An engine reset of one engine begins. -/
def State.resetEngine (s : State) (e : Engine) (cause : Nat) : State := s.resetEngines (enginePath e) cause [e]

/-- ENGINE_RESET (R373, R378). -/
def execEngineReset (e : Engine) (cause : Nat) (s : State) : Out := .next (s.resetEngine e cause)

/-- Answers the RESET_REQs whose engines have all come out of their resets (R360, R383). -/
def State.answerEngines (s : State) : State :=
  s.answerBusy fun b => match b with
    | .engineReset p inside =>
      if (pathEngines p).any fun e => (s.engineRec e).resetting.isSome then none
      else some (if inside then 0x5003 else 0, 0, [])
    | _ => none

/-- ENGINE_RESET_DONE (R378, R384): the engines of the path that went into the reset together come out together. -/
def execEngineResetDone (e : Engine) (s : State) : Out :=
  match (s.engineRec e).resetting with
  | none => .next s
  | some r =>
    let s := s.raise 0x5003 r.1 (enginePath e) noCtx
    let back := (pathEngines (enginePath e)).filter fun x => (s.engineRec x).resetting == some r
    .next (back.foldl (fun s x => s.mapEngine x fun y =>
      { y with resetting := none, itemsSince := some 0, lastRetire := s.now }) s).answerEngines

/-- ITEM_RETRY (R366, R367): the item or instruction runs again from its first input; the third parity failure within
1 s resets the engine, for a cause the table of R384 does not name, and one within the first 10 items after an engine
reset judges the grain. -/
def execItemRetry (e : Engine) (r : InstrRef) (s : State) : Out :=
  match engineGrain e with
  | none => .next s
  | some g =>
    let x := s.engineRec e
    if !(s.engineOk e) || x.resetting.isSome || !((s.issuedOn e).contains r) then .next s
    else
      let s := s.raise 0x5011 0 g r.ctx
      let recent := (x.parity.filter fun t => decide (s.now ≤ t + 1000000)) ++ [s.now]
      let s := s.mapEngine e fun x => { x with parity := recent }
      let s := if x.itemsSince.any fun n => decide (n < 10) then s.judge g else s
      if recent.length < 3 then .next s
      else
        let (k, s) := s.draw
        .next (s.resetEngine e (Config.freeNat k % 65536))

/-- When an instruction's work began on an engine. -/
def State.startedOn (s : State) (e : Engine) (r : InstrRef) : Nat :=
  match engineArray e with
  | some a => (((s.sched (enginePath e)).running.find? fun x => x.1 == a && x.2.1.ref == r).map fun x => x.2.2).getD s.now
  | none => ((s.found? r).map fun f => f.p.issuedAt).getD s.now

/-- The power unit that holds an engine: its grain, or itself (R462). -/
def engineUnit (e : Engine) : Nat := enginePath e

/-- ENGINE_HANG (R369 to R371): an active engine that is pending and has retired nothing for the shortest HANG_TIMEOUT of
the contexts with work issued on it is hung, and takes an engine reset. -/
def execEngineHang (e : Engine) (s : State) : Out :=
  let refs := s.issuedOn e
  let pending := refs.filter fun r => (engineArray e).isSome || s.pends r
  match pending, s.engineOk e && (s.engineRec e).resetting.isNone && s.active (engineUnit e) with
  | r :: rest, true =>
    let hang := (refs.filterMap fun r => (s.ctx? r.ctx).map fun c => c.config.hangMs).foldl (fun a b => min (max a 1) b) 10000
    let start := (rest.map (s.startedOn e)).foldl min (s.startedOn e r)
    let s := s.advanceTo (max (s.engineRec e).lastRetire start + hang * 1000)
    .next ((s.raise 0x5001 0 (enginePath e) noCtx).resetEngine e 7)
  | _, _ => .next s

/-! ## Chip resets and power cycles (R380, R381) -/

/-- Everything outside the always-on domain after a chip reset has begun: the boot lock open, every port silent, no
context, no session, no update being received (R330, R375, R380, R408, R412). Port epochs are kept (R303). -/
def State.restart (s : State) (cause : Nat) (phase : BootPhase) : State :=
  { s with
    ctxs := [], arbiter := { objects := [], queue := [] }, scheds := [], engines := []
    ports := s.ports.map fun p => { Port.init with phase := if p.phase = .retired then .retired else .off, epoch := p.epoch }
    ligil := .init
    resets := { s.resets with parts := [], chip := some (cause, s.now), asked := none, lastChip := some cause, wanted := [] }
    boot := { s.boot with
      phase, lockOpen := true, prot := 0b000110, ident := false, fallback := false, fleet := false, trial := false
      bank := 0, sver := 0, display := 0, setfmt := 0, recfmt := 0, digest := [], upd := .idle, offer := none
      resetCause := cause }
    flash := if s.boot.upd = .receiving then s.flash.setStaging s.updBank [] else s.flash
    sed := { s.sed with lost := 0, written := 0, suppressed := 0 }
    power := { s.power with
      units := [], loopCap := 128, thermalCap := [128, 128, 128, 128], throttle := [false, false, false, false]
      throttleUs := [0, 0, 0, 0], limited := false, history := [], sinceLow := 0, trims := []
      voltage := [750, 750, 750, 750], faultN := true, thermN := !s.boot.thermHold }
    bg := { s.bg with
      rowPasses := [], scrubbed := [], recals := [], retrained := [], forced := 0, sample := [], samples := 0 } }

/-- The package asks for a power cycle (R381): it flushes, holds every domain but the always-on one, asserts FAULT_N and
sends the in-band interrupt 0xA5. -/
def State.powerCycle (s : State) : State :=
  let s := (s.countFailure.writeNow 0x5006 0 pkgPath noCtx).flushLog
  let s := { s with sed := { s.sed with dumpFlash := s.sed.dump.or s.sed.dumpFlash, dumpCopying := false } }
  let s := s.restart s.boot.resetCause .held
  { s with
    resets := { s.resets with powerHold := true, chip := none }
    power := { s.power with faultN := false, ibi := s.power.ibi ++ [0xA5] } }

/-- The retirements that wait for a partition reset take effect in a chip reset too (R8, R241). -/
def State.retireAll (s : State) : State := (List.range 4).foldl (fun s d => s.retireOn d) s

/-- Whether R373 counts a chip reset: every one but those of RESET_REQ and FW_ACTIVATE. -/
def countedCause (cause : Nat) : Bool := cause != 1 && cause != 3 && cause != 0xB

/-- The topsoil pages in which an uncorrectable error has come back, free once no reservation is left: they are withheld
(R241). -/
def State.withholdRecurring (s : State) : State :=
  let pages := ((s.bg.topUe.filterMap pageOf?).filter fun p => decide (p < 16384) && s.recurs p).eraseDups
  { s with bg := { s.bg with withheld := pages.foldl insertNew s.bg.withheld } }

/-- A chip reset (R373, R380, R384, R439); the third counted one within 1 h of operating time becomes a power cycle. -/
def State.chipReset (s : State) (cause : Nat) : State :=
  let s := s.writeNow 0x5005 cause pkgPath noCtx
  let s := ((s.writeDump (s.seqOf 0x5005)).countFailure).retireAll.flushLog
  let now := s.opMs / 1000
  let times := (s.resets.chipTimes.filter fun t => decide (now ≤ t + 3600)) ++ (if countedCause cause then [now] else [])
  let s := ({ s with resets := { s.resets with chipTimes := times } }.restart cause .romStart).withholdRecurring
  if countedCause cause ∧ 3 ≤ times.length then s.powerCycle else s

/-- A command asked for a chip reset and was answered: the reset begins at most 1 ms later (R360). -/
def State.askReset (s : State) (cause : Nat) : State :=
  { s with resets := { s.resets with asked := s.resets.asked.or (some (cause, s.now)) } }

/-- Whether the package is powered and out of its reset input, so that a chip reset can begin. -/
def State.powered (s : State) : Bool :=
  s.boot.phase != .off && s.boot.phase != .held && s.boot.phase != .stopping && !s.resets.powerHold

/-- The chip reset that a command asked for begins 1 ms after its answer at the latest (R360). -/
def State.dueReset (s : State) : State :=
  match s.resets.asked with
  | some (cause, t) => if t + 1000 ≤ s.now ∧ s.powered then s.chipReset cause else s
  | none => s

/-- CHIP_RESET (R373, R380): also how a reset that a command asked for begins before its time is over (R360); a trip while ROM start is held for heat starts no further reset (R471). -/
def execChipReset (cause : Nat) (s : State) : Out :=
  if s.powered && !(s.boot.thermHold && cause == 0xA) then .next (s.chipReset cause) else .next s

/-- POWER_CYCLE_REQUEST (R373, R381). -/
def execPowerCycleRequest (s : State) : Out := if s.powered then .next s.powerCycle else .next s

/-! ## Heartbeats (R369) -/

/-- CONTROLLER_HEARTBEAT_EXPIRY: a ped controller of levels 1 to 3, a subsoil controller, or a collective unit, which
its die's ped-3 path names. -/
def execControllerHeartbeatExpiry (path : Nat) (s : State) : Out :=
  if pathKnown path ∧ ((1 ≤ path / 256 ∧ path / 256 ≤ 3) ∨ path / 256 = 7) then .next (s.partitionReset (pathDie path) 9)
  else .next s

/-- MANAGEMENT_HEARTBEAT_EXPIRY. -/
def execManagementHeartbeatExpiry (s : State) : Out := if s.powered then .next (s.chipReset 9) else .next s

/-- Whether only a chip reset resets an island: the ped-4 controller, a management core, a front port (R375). -/
def chipDomain (path : Nat) : Bool := path / 256 == 4 || path / 256 == 8 || path / 256 == 10

/-- CONTROL_STATE_UE (R373, R375): an uncorrectable error in a controller's own state starts the reset of the lowest level
whose domain holds the controller, a partition reset or a chip reset. -/
def execControlStateUe (path : Nat) (s : State) : Out :=
  if !(pathKnown path) then .next s
  else if chipDomain path then (if s.powered then .next (s.chipReset 0xD) else .next s)
  else .next (s.partitionReset (pathDie path) 0xD)

/-- READY_WATCHDOG_EXPIRY (R374, R403): no ready 30 s after handover. -/
def execReadyWatchdogExpiry (s : State) : Out :=
  if s.boot.phase = .firmware then .next ((s.advanceTo (s.boot.handoverAt + 30000000)).chipReset 9) else .next s

/-! ## Escalation (R382) -/

/-- RESET_ESCALATED is logged, ahead of the next level's reset record, with the level code of the failed reset. -/
def State.escalated (s : State) (level src ctx : Nat) : State := s.writeNow 0x5007 (level + 1) src ctx

/-- A failed context reset ends where it stands (R382): the context is in no reset, and waits for the one that the next
level gives it. -/
def State.endFailed (s : State) (id : Nat) : State := s.mapCtx id fun c => { c with phase := .held, reset := none }

/-- A context reset that has not ended within the 20 ms of R372: the engines that still hold issued work of the context are
reset, whose failing operations start a context reset of their own (R378), or else the dies whose controllers have not finished, which nothing in the model tells:
any of its dies, one at least. -/
def State.escalateCtx (s : State) (c : Ctx) (r : CtxReset) : State :=
  let s := (s.advanceTo (r.start + 20000)).escalated 1 pkgPath c.id
  let grains := s.grains.flatMap pathEngines ++ s.copyEngines.map Engine.copy
  let busy := grains.filter fun e => (s.issuedOn e).any fun x => x.ctx == c.id
  if busy.isEmpty then
    let dies := (List.range 4).filter c.usesDie
    let (k, s) := s.draw
    let late := dies.filter fun d => bitOf (Config.freeNat k) d
    (if late.isEmpty then dies else late).foldl (fun s d => s.partitionReset d 6) s
  else
    let s := (busy.map enginePath).eraseDups.foldl (fun s p => s.resetEngines p 6 busy) (s.endFailed c.id)
    s.mapReset c.id fun x => { x with release := r.release }

/-- The escalation limit of a chip reset in µs (R372). -/
def chipLimit : Nat := 20000000

/-- RESET_ESCALATED (R372, R374, R382): a chip reset's limit does not run while PKG_RESET_N or PWR_GOOD is low or heat holds
ROM start. `level` is 1 for a context reset, of the context `part`; 2 for an engine reset, of the
ped path `part`; 3 for a partition reset, of the die `part`; 4 for a chip reset. -/
def execResetEscalated (level part : Nat) (s : State) : Out :=
  match level with
  | 1 =>
    match s.ctx? part with
    | some c => match c.reset with
      | some r => if r.dies.isEmpty then .next (s.escalateCtx c r) else .next s
      | none => .next s
    | none => .next s
  | 2 =>
    match (pathEngines part).find? fun e => (s.engineRec e).resetting.isSome with
    | some e =>
      let start := ((s.engineRec e).resetting.map Prod.snd).getD s.now
      .next (((s.advanceTo (start + 100000)).escalated 2 part noCtx).partitionReset (engineDie e) 6)
    | none => .next s
  | 3 =>
    match s.resets.parts.find? fun r => r.die == part with
    | some r => .next (((s.advanceTo (r.start + 5000000)).escalated 3 (diePath part) noCtx).chipReset 6)
    | none => .next s
  | 4 =>
    match s.resets.chip, s.powered && s.boot.pkgResetN && s.boot.pwrGood && !s.boot.thermHold with
    | some (_, start), true => .next ((s.advanceTo (start + chipLimit)).escalated 4 pkgPath noCtx).powerCycle
    | _, _ => .next s
  | _ => .next s

/-! ## RESET_REQ (R360, R383) -/

/-- RESET_REQ level 1: a context reset, whatever state the context is in (log entry 79). -/
def State.requestCtx (s : State) (sl : Slot) (se : Session) (c : Ctx) : State :=
  match c.phase with
  | .resetting => s.setBusy se.id (.contextReset c.id true) sl
  | _ =>
    let cause := if c.session = some se.id then 3 else 1
    (s.beginCtxReset c.id cause).setBusy se.id (.contextReset c.id false) sl

/-- RESET_REQ level 2. -/
def State.requestEngines (s : State) (sl : Slot) (se : Session) (path : Nat) : State :=
  let es := pathEngines path
  if !(decide (path < 256) || (decide (0x500 ≤ path) && decide (path < 0x540))) || !(s.engineOk (es.headD (.copy 64))) then
    s.invalid se.id sl 3
  else
    let inside := s.dieResetting (pathDie path) || es.any fun e => (s.engineRec e).resetting.isSome
    let s := s.setBusy se.id (.engineReset path inside) sl
    if inside then s else s.resetEngines path 1 es

/-- RESET_REQ level 3. -/
def State.requestDie (s : State) (sl : Slot) (se : Session) (d : Nat) : State :=
  if !(decide (d < 4)) || !(s.dieOk d) then s.invalid se.id sl 3
  else
    let inside := s.dieResetting d
    (s.partitionReset d 1).setBusy se.id (.partitionReset d inside) sl

/-- What RESET_REQ does once it passes the checks to order 6. -/
def State.resetReq (sl : Slot) (se : Session) (s : State) : State :=
  if sl.len ≠ 0 then s.invalid se.id sl 2
  else match sl.w 4 with
  | 1 => match s.ctx? (sl.w 5) with
    | some c => s.requestCtx sl se c
    | none => s.refuse se.id sl 0x6021 2
  | 2 => s.requestEngines sl se (sl.w 5)
  | 3 => s.requestDie sl se (sl.w 5)
  | 4 => (s.ok se.id sl).askReset 1
  | _ => s.invalid se.id sl 3

/-- RESET_REQ (R360). -/
def execResetReq (sl : Slot) (s : State) : Out :=
  .next (s.command (.resetReq sl) sl (sl.cmd == 0x80) (State.resetReq sl))

end Sys2Proof.Machine
end

