-- ==== Sys2Proof/Machine/LogCmd.lean ====
section
/-! DEFINITION. Reading and configuring the Sediment log (R431, R432, R437, R444 to R447): LOG_READ, DUMP_READ,
SED_RECORD_CLOSE, SED_TOKEN_REFILL. -/

namespace Sys2Proof

/-- The operation of a LOG_READ (R444). -/
def Slot.logOp (sl : Slot) : Nat := sl.w 4 / 2 % 8

/-- Whether a LOG_READ names an operation, with the reserved bits of word 4 at 0 (R444). -/
def Slot.isLog (sl : Slot) (op : Nat) : Bool := sl.cmd == 0x70 && sl.logOp == op

end Sys2Proof

namespace Sys2Proof.Machine

/-! ## Closing and refilling -/

/-- SED_RECORD_CLOSE: the open record closes 1 s after its last fold (R431). -/
def execSedRecordClose (s : State) : Out :=
  if s.sed.openRec then
    let s := s.advanceTo (s.sed.lastFold + 1000000)
    .next { s with sed := { s.sed with openRec := false } }
  else .next s

/-- SED_TOKEN_REFILL: one token after 2^p ms below burst (R432). -/
def execSedTokenRefill (code : Nat) (s : State) : Out :=
  let cfg := s.codeCfg code
  let b := s.bucket code
  if cfg.rate && b.tokens < cfg.burst then
    let due := b.since + 2 ^ cfg.p * 1000
    .next ((s.advanceTo due).setBucket { b with tokens := b.tokens + 1, since := due })
  else .next s

/-! ## Records (R445) -/

/-- A sequence in two words. -/
def seqWords (i seq : Nat) : List (Nat × Nat) := [(i, seq % 2 ^ 32), (i + 1, seq / 2 ^ 32 % 65536)]

/-- The answer to a record read. Sequences of records that do not exist are free (log entry 5). -/
def State.readRecords (s : State) (id : Nat) (sl : Slot) (ring : List SedRec) (start count : Nat) : State :=
  let (k, s) := s.draw
  let (k1, s) := s.draw
  let (k2, s) := s.draw
  let oldest := (ring.head?.map SedRec.seq).getD (Config.freeNat k)
  let newest := (ring.getLast?.map SedRec.seq).getD (Config.freeNat k1)
  let got := (ring.filter fun r => decide (start ≤ r.seq)).take count
  let first := (got.head?.map SedRec.seq).getD (Config.freeNat k2)
  let detail := flag (ring.head?.any fun r => decide (start < r.seq))
  s.answer id sl 0 detail (seqWords 4 first ++ [(6, got.length)] ++ seqWords 7 oldest ++ seqWords 9 newest)
    (got.flatMap SedRec.bytes)

/-- What LOG_READ does to read records, once it passes the checks to order 6; a reserved operation is refused here. -/
def State.logReadRecords (sl : Slot) (se : Session) (s : State) : State :=
  if sl.len ≠ 0 then s.invalid se.id sl 2
  else if 2 ≤ sl.w 4 ∨ 65536 ≤ sl.w 6 ∨ sl.w 7 = 0 ∨ 64 ≤ sl.w 7 then s.invalid se.id sl 3
  else s.readRecords se.id sl (if sl.w 4 = 1 then s.sed.flash else s.sed.ring) (sl.w48 5) (sl.w 7)

/-- LOG_READ_RECORDS (R444, R445). -/
def execLogReadRecords (sl : Slot) (s : State) : Out :=
  .next (s.command (.logReadRecords sl) sl (sl.cmd == 0x70 && (sl.logOp == 0 || decide (5 ≤ sl.logOp))) (State.logReadRecords sl))

/-! ## Code configuration (R446) -/

/-- A configuration entry. -/
def CodeCfg.bytes (c : CodeCfg) : List Byte :=
  leBytes 2 c.code ++ leBytes 1 (placed (flag c.rate) 4 + severity c.code) ++ leBytes 1 c.burst ++ leBytes 1 c.p ++
  leBytes 1 c.set ++ [0, 0]

/-- The configured codes in code order. -/
def Sed.sorted (l : List CodeCfg) : List CodeCfg :=
  l.foldl (fun l c => l.takeWhile (fun x => decide (x.code ≤ c.code)) ++ c :: l.dropWhile fun x => decide (x.code ≤ c.code)) []

/-- What LOG_READ does to read code configuration. -/
def State.logReadConfig (sl : Slot) (se : Session) (s : State) : State :=
  if sl.len ≠ 0 then s.invalid se.id sl 2
  else if 16 ≤ sl.w 4 ∨ 65536 ≤ sl.w 5 ∨ sl.w 7 = 0 ∨ 504 < sl.w 7 then s.invalid se.id sl 3
  else
    let l := ((Sed.sorted s.sed.cfgs).filter fun c => decide (sl.w 5 ≤ c.code)).take (sl.w 7)
    s.answer se.id sl 0 0 [] (l.flatMap CodeCfg.bytes)

/-- LOG_READ_CONFIG (R444, R446). -/
def execLogReadConfig (sl : Slot) (s : State) : Out :=
  .next (s.command (.logReadConfig sl) sl (sl.isLog 1) (State.logReadConfig sl))

/-- The settings of the running firmware are written (R434, R437, R446, R459). -/
def State.mapSettings (s : State) (f : Settings → Settings) : State :=
  if s.boot.phase ≠ .running then s
  else if s.boot.bank = 0 then { s with flash := { s.flash with setA := f s.flash.setA } }
  else { s with flash := { s.flash with setB := f s.flash.setB } }

/-- The entry in 8 bytes of payload; none where a field is out of range or a reserved bit is set. -/
def parseCfg (b : List Byte) : Option CodeCfg :=
  let flags := leAt b 2 1
  if 32 ≤ flags ∨ leAt b 3 1 = 0 ∨ 16 < leAt b 4 1 ∨ 63 < leAt b 5 1 ∨ leAt b 6 2 ≠ 0 then none
  else some { code := leAt b 0 2, rate := bitOf flags 4, burst := leAt b 3 1, p := leAt b 4 1, set := leAt b 5 1 }

/-- One code is configured, after its SED_CONFIG record; of an exempt code only the snapshot set counts, and a rate
bucket whose configuration changes starts full (R432, R433, R437, R446). -/
def State.configure (s : State) (e : CodeCfg) : State :=
  let words := (List.range 2).map fun i => leAt e.bytes (4 * i) 4
  let s := s.writeFirst { code := 0x31, detail := e.code, src := pkgPath, ctx := noCtx, words }
  let old := s.codeCfg e.code
  let new := if floodExempt e.code then { old with set := e.set } else e
  let cfgs := s.sed.cfgs.filter (fun c => c.code != e.code) ++ [new]
  let supp := (s.bucket e.code).supp
  let s := { s with sed := { s.sed with cfgs } }
  if new = old then s else s.setBucket { code := e.code, tokens := new.burst, since := 0, supp }

/-- What LOG_READ does to write code configuration. -/
def State.logWriteConfig (sl : Slot) (se : Session) (s : State) : State :=
  if sl.w 7 = 0 ∨ 504 < sl.w 7 ∨ sl.len ≠ 8 * sl.w 7 then s.invalid se.id sl (if sl.w 7 = 0 ∨ 504 < sl.w 7 then 3 else 2)
  else match (List.range (sl.w 7)).mapM fun i => parseCfg (sliceBytes sl.payload (8 * i) 8) with
  | none => s.invalid se.id sl 3
  | some l =>
    if 16 ≤ sl.w 4 then s.invalid se.id sl 3
    else
      let s := l.foldl State.configure s
      (s.mapSettings fun x => { x with cfgs := s.sed.cfgs }).ok se.id sl

/-- LOG_WRITE_CONFIG (R444, R446). -/
def execLogWriteConfig (sl : Slot) (s : State) : Out :=
  .next (s.command (.logWriteConfig sl) sl (sl.isLog 2) (State.logWriteConfig sl))

/-! ## Snapshot sets (R435, R437) -/

/-- What LOG_READ does to read a snapshot set. -/
def State.logReadSet (sl : Slot) (se : Session) (s : State) : State :=
  if sl.len ≠ 0 then s.invalid se.id sl 2
  else if 16 ≤ sl.w 4 ∨ sl.w 5 = 0 ∨ 63 < sl.w 5 then s.invalid se.id sl 3
  else s.answer se.id sl 0 0 [] ((getKey [] s.sed.sets (sl.w 5)).flatMap (leBytes 4))

/-- LOG_READ_SET (R444). -/
def execLogReadSet (sl : Slot) (s : State) : Out :=
  .next (s.command (.logReadSet sl) sl (sl.isLog 3) (State.logReadSet sl))

/-- What LOG_READ does to write a snapshot set, after its SED_CONFIG record. -/
def State.logWriteSet (sl : Slot) (se : Session) (s : State) : State :=
  let entries := (List.range (sl.len / 4)).map fun i => leAt sl.payload (4 * i) 4
  if sl.len % 4 ≠ 0 ∨ 128 < sl.len then s.invalid se.id sl 2
  else if 16 ≤ sl.w 4 ∨ sl.w 5 = 0 ∨ 63 < sl.w 5 ∨ entries.any (fun e => bitsOf e 30 24 != 0 || e % 4 != 0) then
    s.invalid se.id sl 3
  else
    let s := s.writeFirst { code := 0x31, detail := sl.w 5, src := pkgPath, ctx := noCtx, words := entries }
    let rest := s.sed.sets.filter fun x => x.1 != sl.w 5
    let sets := if entries.isEmpty then rest else rest ++ [(sl.w 5, entries)]
    (State.mapSettings { s with sed := { s.sed with sets } } fun x => { x with sets }).ok se.id sl

/-- LOG_WRITE_SET (R437, R444). -/
def execLogWriteSet (sl : Slot) (s : State) : Out :=
  .next (s.command (.logWriteSet sl) sl (sl.isLog 4) (State.logWriteSet sl))

/-! ## The crash dump (R443, R447) -/

/-- What DUMP_READ does once it passes the checks to order 6. -/
def State.dumpRead (sl : Slot) (se : Session) (s : State) : State :=
  if sl.len ≠ 0 then s.invalid se.id sl 2
  else if sl.w 5 = 0 ∨ maxPayload < sl.w 5 then s.invalid se.id sl 3
  else match s.sed.dump.or s.sed.dumpFlash with
  | none => s.refuse se.id sl 0x5009 0
  | some d =>
    s.answer se.id sl 0 0 ([(4, d.bytes.length), (5, leAt d.bytes 20 4)] ++ seqWords 6 d.seq) ((d.bytes.drop (sl.w 4)).take (sl.w 5))

/-- DUMP_READ (R447). -/
def execDumpRead (sl : Slot) (s : State) : Out :=
  .next (s.command (.dumpRead sl) sl (sl.cmd == 0x71) (State.dumpRead sl))

end Sys2Proof.Machine
end

