-- ==== Sys2Proof/Machine/Boot.lean ====
section
/-! DEFINITION. Boot, identity, attestation and firmware replacement (R394 to R424): the phases of a boot, the bank
choice, the boot lock, ATTEST, FW_OFFER, FW_CHUNK, FW_APPLY_DONE, FW_ACTIVATE and FW_CONFIRM. -/

namespace Sys2Proof.Machine

/-! ## Images (R401, R402) -/

/-- The bytes of a digest that a constant of Config gives by index. -/
def bytes48 (f : Nat → Byte) : List Byte := (List.range 48).map f

/-- The bytes of a bank; an erased one holds none. -/
def BankImage.bytes : BankImage → List Byte
  | .erased => []
  | .factory => (List.range Config.factoryLength).map Config.factoryImage
  | .image b => b

/-- The length field of a header. -/
def imgLength (h : List Byte) : Nat := leAt h 24 8

/-- The rlength field. -/
def imgRlength (h : List Byte) : Nat := leAt h 32 8

/-- The security version. -/
def imgSver (h : List Byte) : Nat := leAt h 12 4

/-- Whether an image is a difference image. -/
def imgIsDiff (h : List Byte) : Bool := leAt h 6 1 == 1

/-- An image length the spec accepts (R401). -/
def lengthOk (n : Nat) : Bool := n % 64 == 0 && decide (1024 ≤ n) && decide (n ≤ 2 ^ 27)

/-- Order 1 of R404 and R414: magic, version, kind and reserved fields. -/
def headOk (kind : Nat → Bool) (h : List Byte) : Bool :=
  leAt h 0 4 == 0x57464D59 && leAt h 4 2 == 1 && kind (leAt h 6 1) && decide (leAt h 7 1 < 4) &&
  (sliceBytes h 252 260).all (· == 0)

/-- Order 2: part code and stepping. -/
def hwOk (stepping : Nat) (h : List Byte) : Bool :=
  leAt h 10 2 == 0x0256 && decide (leAt h 9 1 ≤ stepping) && decide (stepping ≤ leAt h 8 1)

/-- Whether bytes are all 0. -/
def zeroBytes (b : List Byte) : Bool := b.all (· == 0)

/-- The binding of an image: none, or the first 128 bits of a digest as it is written. -/
def imgBinding (h : List Byte) : List Byte := sliceBytes h 136 16

/-- Whether an image is bound to this unit, which only a package with an identity can tell (R399, R400, R422). -/
def State.boundHere (s : State) (h : List Byte) : Bool := s.boot.ident && imgBinding h == beBytes 16 unitDigest.toNat

/-- Whether a header's public key is one of the ROM's (R401). -/
def keyOk (h : List Byte) : Bool := sha384 (sliceBytes h 152 96) == bytes48 (Config.romKeyDigest (leAt h 7 1 % 4))

/-- The signature of an image over its bytes up to it (R401). -/
def imgSigned (b : List Byte) : Bool :=
  ecdsaVerify (sliceBytes b 152 96) (sha384 (b.take (imgLength b - 96))) (sliceBytes b (imgLength b - 96) 96)

/-- The digest of an image (R401). -/
def imgDigest (b : List Byte) : List Byte := sha384 (b.take (imgLength b))

/-- The first check of R404 that image bytes fail; none when all pass. -/
def State.imageFails (s : State) (b : List Byte) : Option Nat :=
  if !(headOk (· == 0) b) then some 1
  else if !(hwOk s.caps.stepping b) then some 2
  else if imgSver b < s.flash.rollback then some 3
  else if !(lengthOk (imgLength b)) || imgRlength b != imgLength b then some 4
  else if !(zeroBytes (sliceBytes b 40 96)) then some 5
  else if !(zeroBytes (imgBinding b)) && !(s.boundHere b) then some 6
  else if !(keyOk b) then some 7
  else if imgSigned b then none else some 8

/-- The first check a bank fails. The factory image passes all but the rollback counter's (log entry 7). -/
def State.bankFails (s : State) (b : Nat) : Option Nat :=
  match s.flash.bank b with
  | .erased => some 1
  | .factory => if imgSver BankImage.factory.bytes < s.flash.rollback then some 3 else none
  | .image bytes => s.imageFails bytes

/-- The digest of the image a bank holds (R401). -/
def BankImage.digest : BankImage → List Byte
  | .erased => []
  | i => imgDigest i.bytes

/-- The digest of the image in a bank. -/
def State.bankDigest (s : State) (b : Nat) : List Byte := (s.flash.bank b).digest

/-- The digest of the running image; at reset the factory image runs (log entry 7). -/
def State.runningDigest (s : State) : List Byte := if s.boot.digest.isEmpty then BankImage.factory.digest else s.boot.digest

/-- A header field of the image in a bank. -/
def State.bankField (s : State) (b off n : Nat) : Nat :=
  match s.flash.bank b with
  | .erased => 0
  | i => leAt i.bytes off n

/-- The full image that the operations of a difference image write (R402); an unknown operation ends it. `fuel` bounds
the operations. -/
def applyOps (base payload : List Byte) : Nat → Nat → List Byte → List Byte
  | 0, _, out => out
  | fuel + 1, at_, out =>
    let len := leAt payload (at_ + 4) 4
    if payload.length ≤ at_ then out
    else match leAt payload at_ 1 with
    | 1 => applyOps base payload fuel (at_ + 16) (out ++ (base.drop (leAt payload (at_ + 8) 8)).take len)
    | 2 => applyOps base payload fuel (at_ + 16 + ceilDiv len 16 * 16) (out ++ sliceBytes payload (at_ + 16) len)
    | 3 => applyOps base payload fuel (at_ + 16) (out ++ List.replicate len 0)
    | _ => out

/-- The full image a staged image gives. -/
def builtImage (base staged : List Byte) : List Byte :=
  if imgIsDiff staged then
    let payload := sliceBytes staged 512 (imgLength staged - 608)
    applyOps base payload (payload.length / 16 + 1) 0 []
  else staged

/-- Fleet mode (R421): the applying enrolment asks for it, or the highest one is older than RPMC counter 1 says. -/
def State.fleetMode (s : State) : Bool :=
  match s.applying 5 with
  | some r => bitOf (leAt r.body 0 1) 0 || decide (r.seq < s.flash.fleetSeq)
  | none => decide (0 < s.flash.fleetSeq)

/-! ## Phases of a boot (R403) -/

/-- ROM_START_DONE (R403); the thermal hold keeps ROM start (R471). -/
def execRomStartDone (s : State) : Out :=
  if s.boot.phase = .romStart ∧ !s.boot.thermHold then .next { s with boot := { s.boot with phase := .identity } } else .next s

/-- Whether a power-up of the PUF gives, with the helper data of record kind 0x0013, a root secret whose public key is the
one in the record's certificate (R398 to R400). -/
def reproduces (body powerUp : List Byte) : Bool :=
  publicBytes (unitScalar (Config.reconstruct powerUp body)) == Config.certKey body

/-- IDENTITY_DONE (R398 to R400): the PUF, powered up once and up to 3 times more, gives the identity or none, and is
powered down; without an identity IDENTITY_FAIL is logged. -/
def execIdentityDone (powerUps : List (List Byte)) (s : State) : Out :=
  if s.boot.phase = .identity then
    let reproduced := (s.applying 0x13).any fun r => (powerUps.take 4).any (reproduces r.body)
    let prot := if s.boot.lockOpen then s.boot.prot ||| 1 else s.boot.prot
    let s := { s with boot := { s.boot with phase := .records, ident := reproduced, prot } }
    .next (if reproduced then s else s.raise 0x6008 0 pkgPath noCtx)
  else .next s

/-- RECORDS_DONE (R381, R396, R400, R421): invalid records are logged and ignored, the boot after a power cycle is
counted, and what settings alone held is written as unit-key records. -/
def execRecordsDone (s : State) : Out :=
  if s.boot.phase = .records then
    let bad := s.flash.records.filter fun r => !(s.recordOk r)
    let s := (bad.foldl (fun s r => s.raise 0x600B r.kind pkgPath noCtx) s).takeRecords
    let s := if s.boot.cold then { s with flash := { s.flash with pcc := s.flash.pcc + 1 } } else s
    let s := if s.boot.ident && s.flash.settingsOnly then
        ({ s with flash := { s.flash with settingsOnly := false } } : State).saveRetired.savePcc
      else if s.boot.cold then s.savePcc else s
    .next { s with boot := { s.boot with phase := .bankLoad, fleet := s.fleetMode, cold := false } }
  else .next s

/-- The image of a bank runs next (R405, R410). -/
def State.bootBank (s : State) (b : Nat) (upd : UpdPhase) : State :=
  { s with boot := { s.boot with
      phase := .handover, bank := b, upd, trial := upd == .trial
      sver := s.bankField b 12 4, display := s.bankField b 16 8, setfmt := s.bankField b 248 2, recfmt := s.bankField b 250 2
      digest := s.bankDigest b } }

/-- FW_FALLBACK (R405, R410). -/
def State.fallback (s : State) (detail : Nat) : State :=
  { s with boot := { s.boot with fallback := true } }.raise 0x6011 detail pkgPath noCtx

/-- No bank boots (R374, R407). -/
def State.recover (s : State) : State :=
  let s := s.raise 0x600A 0 pkgPath noCtx
  { s with
    boot := { s.boot with phase := .recovery, upd := .idle }
    resets := { s.resets with chip := none }
    power := { s.power with ibi := s.power.ibi ++ [0xA6] } }

/-- BOOT_BANK_FAIL of a candidate (R404). -/
def State.bankFailed (s : State) (b order : Nat) : State := s.raise 0x6009 (placed b 8 + order) pkgPath noCtx

/-- The trial of a staged image begins: the new firmware starts from the old one's settings (R406, R417, R418). -/
def State.beginTrial (s : State) (c : BootCtl) (b : Nat) : State :=
  let s := s.writeCtl { c with armed := false, staged := false, trial := true, tried := true, upd := 5 }
  ({ s with flash := s.flash.setSettings b (s.flash.settings (1 - b)) } : State).bootBank b .trial

/-- What follows when the second candidate, bank `b`, boots (R405). -/
def State.bootSecond (s : State) (c : BootCtl) (first : Bool) (b : Nat) : State :=
  if first then
    ((s.writeCtl { c with armed := false, staged := false, trial := false, tried := true, upd := 0 }).fallback 1).bootBank b .idle
  else if c.trial ∧ s.boot.ident then
    let s := s.writeCtl { c with active := b, trial := false, upd := 0 }
    let s := s.raiseRollback (s.bankField b 12 4)
    (s.raise 0x6010 1 pkgPath noCtx).bootBank b .idle
  else ((s.writeCtl { c with active := b, staged := false, upd := 0 }).fallback 2).bootBank b .idle

/-- What follows when the first candidate, bank `b`, boots (R405). -/
def State.bootFirst (s : State) (c : BootCtl) (first : Bool) (b : Nat) : State :=
  if first then s.beginTrial c b
  else if c.trial ∧ s.boot.ident then ((s.writeCtl { c with trial := false, upd := 0 }).fallback 1).bootBank b .idle
  else s.bootBank b (if c.staged ∧ s.boot.ident then .staged else .idle)

/-- BANK_LOAD_DONE (R404 to R407): the first candidate that passes boots. -/
def execBankLoadDone (s : State) : Out :=
  if s.boot.phase ≠ .bankLoad then .next s
  else
    let c := s.bootCtl
    let first := s.boot.ident && (c.armed || (c.trial && !c.tried))
    let a := if first then 1 - c.active else c.active
    match s.bankFails a with
    | none => .next (s.bootFirst c first a)
    | some o =>
      let s := s.bankFailed a o
      match s.bankFails (1 - a) with
      | none => .next (s.bootSecond c first (1 - a))
      | some o => .next (s.bankFailed (1 - a) o).recover

/-! ## Lock, handover, firmware start (R403, R408, R409) -/

/-- LGL_BOOT_LOCK_CLOSE (R13, R408). -/
def execLglBootLockClose (s : State) : Out := .next { s with boot := { s.boot with lockOpen := false } }

/-- LGL_PROT_CFG as the ROM leaves it: the bank that boots is protected, both in a trial, and jtag follows a debug
authorisation that has not had its boot (R408, R409). -/
def State.protCfg (s : State) : BitVec 6 :=
  let jtag := (s.applying 6).isSome && !s.boot.jtagRecord
  let wpA := s.boot.trial || s.boot.bank == 0
  let wpB := s.boot.trial || s.boot.bank == 1
  BitVec.ofNat 6 (placed (flag jtag) 5 + placed (flag wpB) 2 + placed (flag wpA) 1 + 0x19)

/-- HANDOVER_DONE (R374, R403, R408, R409). -/
def execHandoverDone (s : State) : Out :=
  if s.boot.phase = .handover then
    .next { s with
      boot := { s.boot with
        phase := .firmware, lockOpen := false, handoverAt := s.now, jtagRecord := (s.applying 6).isSome
        prot := if s.boot.lockOpen then s.protCfg else s.boot.prot }
      resets := { s.resets with chip := none } }
  else .next s

/-- The highest arithmetic clock set on a die, in steps (R459, R461). -/
def State.clock (s : State) (d : Nat) : Nat := if s.power.brake then 16 else s.dieCap d

/-- The power firmware sets each die's core voltage from its clock (R452). -/
def State.setVoltages (s : State) : State :=
  { s with power := { s.power with voltage := (List.range 4).map fun d => Config.voltageTable (s.clock d) } }

/-- A field of a port's configuration as a record gives it: a reserved value leaves the reset value. -/
def cfgField (v lo hi reset : Nat) : Nat := if lo ≤ v ∧ v ≤ hi then v else reset

/-- The configuration of port `p` from the body of the applying record of kind 0x0004: RIN_CFG, then RIN_TIMERS, 8 bytes for
each port in port order, a layout of the model's (R322, R396, log entry 157). -/
def PortCfg.loaded (body : List Byte) (p : Nat) : PortCfg :=
  if body.length < 8 * p + 8 then .init
  else
    let cfg := leAt body (8 * p) 4
    let timers := leAt body (8 * p + 4) 4
    let d := PortCfg.init
    { cryptReq := bitOf cfg 31, serExp := cfgField (bitsOf cfg 28 24) 6 20 d.serExp, ucw := cfgField (bitsOf cfg 23 16) 1 255 d.ucw
      malThr := cfgField (bitsOf cfg 15 0) 1 65535 d.malThr, quarS := cfgField (bitsOf timers 31 16) 10 3600 d.quarS
      starveMs := cfgField (bitsOf timers 9 0) 1 1000 d.starveMs }

/-- FIRMWARE_READY (R8, R239 to R241, R375, R380, R403, R418, R421, R434, R459): memory zeroed, capability words rebuilt,
ports configured by the record of kind 0x0004 and in PROBE, the firmware's settings in force, and the enrolment record that
applies accepted. -/
def execFirmwareReady (s : State) : Out :=
  if s.boot.phase = .firmware then
    let s := (List.range 4).foldl (fun s d => s.zeroDie d) s
    let set := s.flash.settings s.boot.bank
    let oldFmt := s.bankField (1 - s.boot.bank) 250 2
    let body := ((s.applying 4).map FlashRec.body).getD []
    let port (q : Port × Nat) : Port :=
      let p : Port := { q.1 with cfg := PortCfg.loaded body q.2 }
      if p.phase = .retired then p else { p with phase := .probe, returning := false }
    let accepted := ((s.applying 5).map FlashRec.seq).getD 0
    let s : State := { s with
      mem := []
      ports := s.ports.zipIdx.map port
      caps := { s.caps with
        grains := s.caps.grains &&& ~~~s.flash.retiredGrains, ports := s.caps.ports &&& ~~~s.flash.retiredPorts
        copyEngines := s.caps.copyEngines &&& ~~~s.flash.retiredCopy }
      boot := { s.boot with phase := .running }
      flash := { s.flash with recFmtBoth := if s.boot.trial ∧ s.boot.recfmt ≠ oldFmt then some oldFmt else none }
      sed := { s.sed with cfgs := set.cfgs, sets := set.sets, buckets := s.rebucketed set.cfgs }
      power := { s.power with limitW := set.limitW, capMhz := set.capMhz } }
    .next (s.raiseFleet accepted).setVoltages
  else .next s

/-! ## The reset input and the supply (R454 to R456) -/

/-- Whether a pulse of `ns` at a pin is recognised: always from `lo` + 20 ns on, never up to `lo`, and open between. -/
def State.pulse (s : State) (ns lo : Nat) : Bool × State :=
  if lo + 20 ≤ ns then (true, s)
  else if ns ≤ lo then (false, s)
  else
    let (k, s) := s.draw
    (Config.freeBool k, s)

/-- The device holds in reset while PKG_RESET_N is low. -/
def State.holdReset (s : State) : State :=
  if s.boot.pkgResetN ∨ s.boot.phase ≠ .romStart then s else { s with boot := { s.boot with phase := .held } }

/-- PKG_RESET_ASSERT (R456): a low level of `ns`. -/
def execPkgResetAssert (ns : Nat) (s : State) : Out :=
  let (hit, s) := s.pulse ns 490
  if hit && s.boot.pkgResetN then
    let s := { s with boot := { s.boot with pkgResetN := false } }
    .next (if s.powered then (s.chipReset 0xC).holdReset else s)
  else .next s

/-- The limit of a chip reset in progress begins to run now, when what held it from its start ends (R374). -/
def State.chipRuns (s : State) : State :=
  { s with resets := { s.resets with chip := s.resets.chip.map fun r => (r.1, s.now) } }

/-- ROM start begins once PWR_GOOD and PKG_RESET_N are both high; FAULT_N is released (R403, R454, R456). -/
def State.startRom (s : State) : State :=
  if s.boot.phase = .held ∧ s.boot.pwrGood ∧ s.boot.pkgResetN ∧ !s.resets.powerHold then
    ({ s with boot := { s.boot with phase := .romStart }, power := { s.power with faultN := true } } : State).chipRuns
  else s

/-- PKG_RESET_RELEASE (R456): a high level of `ns`. -/
def execPkgResetRelease (ns : Nat) (s : State) : Out :=
  let (hit, s) := s.pulse ns 490
  if hit && !s.boot.pkgResetN then .next { s with boot := { s.boot with pkgResetN := true } }.startRom else .next s

/-- The always-on domain powers up: the log resumes past what was flushed, buckets are full, port epochs are 0, and the
boot will count the power cycle (R303, R375, R381, R426, R432, R439). -/
def State.powerUp (s : State) : State :=
  let faultN := s.power.faultN
  let s := s.restart 0 .held
  { s with
    ports := s.ports.map fun p => { p with epoch := 0 }
    resets := { s.resets with chip := none, asked := none, lastChip := none, powerHold := false }
    boot := { s.boot with pwrGood := true, cold := true, thermHold := false }
    sed := { s.sed with
      bus := [], queue := [], ring := [], nextSeq := s.sed.flushed, openRec := false, buckets := [], lostPending := 0
      opMs := (s.sed.savedMs / 1000 + 1) * 1000, onAt := s.now, dump := none, dumpCopying := false }
    power := { s.power with doubled := List.replicate 12 false, temps := [], ibi := [], thermN := true, faultN } }

/-- PWR_GOOD_RISE (R454). -/
def execPwrGoodRise (s : State) : Out := if s.boot.pwrGood then .next s else .next s.powerUp.startRom

/-- PWR_GOOD_FALL (R330, R455): every context and session ends, and the stop phase begins. -/
def execPwrGoodFall (s : State) : Out :=
  if s.boot.pwrGood then
    let t := s.restart s.boot.resetCause .stopping
    .next { t with
      boot := { t.boot with pwrGood := false }, resets := { t.resets with chip := none }
      power := { t.power with faultN := s.power.faultN } }
  else .next s

/-- POWER_DOWN_STOP_DONE (R439, R443, R455). -/
def execPowerDownStopDone (s : State) : Out :=
  if s.boot.phase = .stopping then
    let s := s.flushLog
    .next { s with
      boot := { s.boot with phase := .off }
      sed := { s.sed with dumpFlash := s.sed.dump.or s.sed.dumpFlash, dumpCopying := false }
      power := { s.power with ibi := s.power.ibi ++ [0xA7] } }
  else .next s

/-! ## Attestation (R342, R411) -/

/-- The first 256 bytes of the attestation report. -/
def State.report (s : State) (nonce : List Byte) : List Byte :=
  let running := s.runningDigest
  let config := sha384 (([1, 2, 3, 4, 5, 6].filterMap s.applying).flatMap FlashRec.bytes)
  leBytes 4 0x54535441 ++ leBytes 2 1 ++ [0, 0] ++ beBytes 16 unitDigest.toNat ++ nonce ++
  leBytes 4 (s.flash.pcc % 2 ^ 24) ++ leBytes 4 (s.opMs / 3600000) ++ s.capWords.flatMap (leBytes 4) ++
  leBytes 4 s.bootStatus ++ bytes48 Config.romDigest ++ running ++ config ++ leBytes 4 s.boot.sver ++
  leBytes 4 s.flash.rollback ++ leBytes 8 s.boot.display ++ List.replicate 8 0

/-- What ATTEST does once it passes the checks to order 6. A package whose signing engine does not sign with the unit key
answers as one without an identity (R399, R400). -/
def State.attest (sl : Slot) (se : Session) (s : State) : State :=
  if sl.len ≠ 32 then s.invalid se.id sl 2
  else if !s.maySign then s.refuse se.id sl 0x6008 0
  else
    let body := s.report sl.payload
    let (sig, s) := s.unitSign body
    s.okPayload se.id sl (body ++ sig ++ Config.unitChain)

/-- ATTEST (R342, R411). -/
def execAttest (sl : Slot) (s : State) : Out := .next (s.command (.attest sl) sl (sl.cmd == 0x02) (State.attest sl))

/-! ## Replacing firmware (R412 to R420) -/

/-- FW_STATE (R413). -/
def State.fwState (s : State) (id : Nat) (sl : Slot) : State := s.refuse id sl 0x6007 s.boot.upd.code

/-- The update state changes. -/
def State.setUpd (s : State) (u : UpdPhase) : State := { s with boot := { s.boot with upd := u } }

/-- The binding check of R422; the detail of the refusal. The recovery of a package without an identity accepts unbound
images (R400). -/
def State.bindingFails (s : State) (h : List Byte) : Option Nat :=
  if zeroBytes (imgBinding h) then (if s.boot.fleet && (s.boot.ident || s.boot.phase != .recovery) then some 1 else none)
  else if s.boundHere h then none else some 2

/-- The checks of R414 on an offered header; code and detail of the refusal. -/
def State.offerFails (s : State) (h : List Byte) : Option (Nat × Nat) :=
  let kinds (k : Nat) : Bool := k == 0 || (k == 1 && s.boot.phase != .recovery)
  let base := sliceBytes h 40 48
  let running := s.runningDigest
  if !(headOk kinds h) then some (0x6001, 1)
  else if !(hwOk s.caps.stepping h) then some (0x6001, 2)
  else if imgSver h < s.flash.rollback then some (0x6002, s.flash.rollback % 65536)
  else if !(lengthOk (imgLength h)) || !(lengthOk (imgRlength h)) then some (0x6001, 3)
  else if !(if imgIsDiff h then base == running else zeroBytes (sliceBytes h 40 96)) then some (0x6001, 5)
  else match s.bindingFails h with
  | some d => some (0x6003, d)
  | none => if keyOk h then none else some (0x6004, 1)

/-- What FW_OFFER does once it passes the checks to order 6. -/
def State.fwOffer (sl : Slot) (se : Session) (s : State) : State :=
  if sl.len ≠ 512 then s.invalid se.id sl 2
  else if sl.w64 4 ≠ imgLength sl.payload then s.invalid se.id sl 3
  else if !s.boot.ident && s.boot.phase == .running then s.refuse se.id sl 0x6008 0
  else if s.boot.upd ≠ .idle ∧ s.boot.upd ≠ .staged then s.fwState se.id sl
  else match s.offerFails sl.payload with
  | some (code, d) => s.refuse se.id sl code d
  | none =>
    let s := if s.boot.upd = .staged then s.writeCtl { s.bootCtl with staged := false, upd := 1 } else s
    let s := (s.putBank s.updBank .erased).putStaging s.updBank []
    let s : State := { s with boot := { s.boot with upd := .receiving, offer := some (se.id, sl.payload) } }
    s.ok se.id sl

/-- FW_OFFER (R413, R414). -/
def execFwOffer (sl : Slot) (s : State) : Out := .next (s.command (.fwOffer sl) sl (sl.cmd == 0x60) (State.fwOffer sl))

/-- What FW_CHUNK does once it passes the checks to order 6. -/
def State.fwChunk (sl : Slot) (se : Session) (s : State) : State :=
  if sl.len = 0 then s.invalid se.id sl 2
  else match s.boot.upd, s.boot.offer with
  | .receiving, some (owner, h) =>
    let held := s.flash.staging s.updBank
    if owner ≠ se.id then s.refuse se.id sl 0x6021 5
    else if sl.w64 4 ≠ held.length ∨ imgLength h < held.length + sl.len then s.invalid se.id sl 3
    else
      let staging := held ++ sl.payload
      let s := s.putStaging s.updBank staging
      if staging.length < imgLength h then s.ok se.id sl
      else if ecdsaVerify (sliceBytes h 152 96) (sha384 (staging.take (imgLength h - 96))) (sliceBytes staging (imgLength h - 96) 96) then (s.setUpd .applying).ok se.id sl
      else
        let s := s.putStaging s.updBank []
        ({ s with boot := { s.boot with offer := none } }.setUpd .idle).refuse se.id sl 0x6004 2
  | _, _ => s.fwState se.id sl

/-- FW_CHUNK (R413, R415). -/
def execFwChunk (sl : Slot) (s : State) : Out := .next (s.command (.fwChunk sl) sl (sl.cmd == 0x61) (State.fwChunk sl))

/-- The application ends in a failure: operators hear of it, and nothing is staged; what was written stays in the bank,
where R404 judges it (R406, R412, R416). -/
def State.applyFailed (s : State) (code detail : Nat) : State :=
  let s := (s.raise code detail pkgPath noCtx).notifyOps code detail
  let s := s.writeCtl { s.bootCtl with staged := false, upd := 0 }
  ({ s with boot := { s.boot with offer := none } }).setUpd .idle

/-- FW_APPLY_DONE (R402, R406, R416). -/
def execFwApplyDone (s : State) : Out :=
  if s.boot.upd ≠ .applying then .next s
  else
    let staged := s.flash.staging s.updBank
    let diff := imgIsDiff staged
    if diff && s.bankDigest s.boot.bank != sliceBytes staged 40 48 then .next (s.applyFailed 0x6005 0)
    else
      let full := builtImage (s.flash.bank s.boot.bank).bytes staged
      let s := s.putBank s.updBank (.image full)
      if diff && imgDigest full != sliceBytes staged 88 48 then .next (s.applyFailed 0x6006 0)
      else if (s.imageFails full).isSome then .next (s.applyFailed 0x6004 3)
      else
        let s := s.writeCtl { s.bootCtl with staged := true, upd := 2, sver := imgSver full, digest := imgDigest full }
        let d := leAt full 16 2
        .next ((({ s with boot := { s.boot with offer := none } } : State).setUpd .staged).raise 0x20 d pkgPath noCtx |>.notifyOps 0x20 d)

/-- What FW_ACTIVATE does once it passes the checks to order 6. In recovery a chip reset follows (R407). -/
def State.fwActivate (sl : Slot) (se : Session) (s : State) : State :=
  if sl.len ≠ 0 then s.invalid se.id sl 2
  else if 2 ≤ sl.w 4 then s.invalid se.id sl 3
  else if s.boot.upd ≠ .staged ∧ s.boot.upd ≠ .armed then s.fwState se.id sl
  else if s.boot.phase = .recovery then (s.ok se.id sl).askReset 0xB
  else
    let s := if s.boot.upd = .staged then s.writeCtl { s.bootCtl with armed := true, upd := 4 } else s
    let s := (s.setUpd .armed).ok se.id sl
    if sl.w 4 = 1 then s.askReset 0xB else s

/-- FW_ACTIVATE (R407, R413, R417). -/
def execFwActivate (sl : Slot) (s : State) : Out :=
  .next (s.command (.fwActivate sl) sl (sl.cmd == 0x62) (State.fwActivate sl))

/-- What FW_CONFIRM does once it passes the checks to order 6. -/
def State.fwConfirm (sl : Slot) (se : Session) (s : State) : State :=
  if sl.len ≠ 0 then s.invalid se.id sl 2
  else if s.boot.upd ≠ .trial then s.fwState se.id sl
  else
    let s := s.raiseRollback s.boot.sver
    let s := s.writeCtl { s.bootCtl with active := s.boot.bank, trial := false, upd := 6 }
    let s : State := { s with
      flash := { s.flash with recFmtBoth := none }
      boot := { s.boot with upd := .confirmed, trial := false } }
    (s.raise 0x6010 0 pkgPath noCtx).ok se.id sl

/-- FW_CONFIRM (R413, R420). -/
def execFwConfirm (sl : Slot) (s : State) : Out :=
  .next (s.command (.fwConfirm sl) sl (sl.cmd == 0x63) (State.fwConfirm sl))

end Sys2Proof.Machine
end

