-- ==== Sys2Proof/Machine/Draw.lean ====
section
/-! DEFINITION. Instructions that draw random words (R206 to R209, R275, R287): DROPOUT, INIT and SAMPLE. -/

namespace Sys2Proof.Machine

/-! ## DROPOUT (R208, R275) -/

/-- DROPOUT's effect: every operation is FP32 with RNE (R275); an FP64 operand is converted first (log entry 20). -/
def State.dropout (s : State) (f : Found) (p : Plan) : Except Fail State := do
  let arg := p.arg (wLo f.words 5)
  let x ← s.operand f.ctx p (wLo f.words 4) f.run.step f.run.iter
  match p.tensors[wHi f.words 4]? with
  | none => .error windowViolation
  | some yt => do
    let y := yt.view f.run.iter
    let w64 := x.t.elem == .fp64
    let grain (k : Coord) : Nat := s.grainOfUnit f.path (tileCount y) (tileOf y k)
    let key ← f.ctx.key 2
    let id4 := yt.stream * 4 + bitsOf (wCf f.words) 1 0
    let l ← y.coords.mapM fun k => do
      let w := drawWord key f.run.step (wMb f.words) id4 (logicalPos yt k)
      if bitsOf w 31 8 < leAt arg 0 3 then return (k, FV.of 0)
      else
        let v ← s.vecRead f.ctx x.t { k with c1 := x.row0 + (k.c1 - y.row0) } w64
        return (k, mulV (if w64 then FV.toFp32 .rne v else v) (FV.of (leAt arg 4 4)))
    let s := s.drew f.ctx.id (drawBlocks yt grain y.coords)
    s.finishVec f y .fp32 (tileCount y) (tileOf y) l

/-- DROPOUT (R208, R275). -/
def execDropout (r : InstrRef) (s : State) : Out :=
  .next (s.runIssued r (fun f => wOp f.words == 0x24) (fun f _ => [wHi f.words 4]) fun f p s => s.dropout f p)

/-! ## INIT (R207, R275) -/

/-- The uniform variate of a word (R207), at its exact value: one of 2^23 or more does not fit the 24 bits of an FP32
significand, and rounding it could give 1. -/
def variate (w : Nat) : Num := .fin false (2 * bitsOf w 31 8 + 1) (-25)

/-- The FP32 sum of two variates, rounded once. -/
def addVariates (x y : Num) : FV :=
  let r := addNum .rne x y
  fp32.finish .rne r.2 r.1

/-- FP32 fused multiply-add with a variate as its second factor, rounded once. -/
def fmaVariate (a : FV) (u : Num) (c : FV) : FV :=
  let p := mulNum (fp32.decode a.1) u
  let r := addNum .rne p.1 (fp32.decode c.1)
  FV.join (fp32.finish .rne (p.2 || r.2 || fp32.isSnan a.1 || fp32.isSnan c.1) r.1) (a.2 ||| c.2)

/-- RNE(√3) (R275). -/
def sqrt3 : Nat := 0x3FDDB3D7

/-- The value of an initialised element from its four variates (R275). -/
def initValue (dist a b : Nat) (u : Nat → Num) : FV :=
  match dist with
  | 0 => FV.of a
  | 1 => fmaVariate (subV (FV.of b) (FV.of a)) (u 0) (FV.of a)
  | _ =>
    let z := subV (addV (addVariates (u 0) (u 1)) (addVariates (u 2) (u 3))) (FV.of 0x40000000)
    fmaV (mulV (FV.of b) (FV.of sqrt3)) z (FV.of a)

/-- The draw slots a distribution uses. -/
def initSlots : Nat → Nat
  | 0 => 0
  | 1 => 1
  | _ => 4

/-- INIT's effect. -/
def State.initialise (s : State) (f : Found) (p : Plan) : Except Fail State := do
  let arg := p.arg (wLo f.words 5)
  let dist := bitsOf (wCf f.words) 1 0
  match p.tensors[wLo f.words 4]? with
  | none => .error windowViolation
  | some dt => do
    let d := dt.view f.run.iter
    let key ← if dist = 0 then .ok [] else f.ctx.key 4
    let base := dt.stream * 4 + bitsOf (wCf f.words) 3 2
    let l := d.coords.map fun k =>
      (k, initValue dist (leAt arg 0 4) (leAt arg 4 4) fun j => variate (drawWord key 0 0 (base + j) (logicalPos dt k)))
    let grain (k : Coord) : Nat := s.grainOfUnit f.path (tileCount d) (tileOf d k)
    let s := s.drew f.ctx.id (initSlots dist * drawBlocks dt grain d.coords)
    s.finishVec f d .fp32 (tileCount d) (tileOf d) l

/-- INIT (R207, R275). -/
def execInitTensor (r : InstrRef) (s : State) : Out :=
  .next (s.runIssued r (fun f => wOp f.words == 0x25) (fun f _ => [wLo f.words 4]) fun f p s => s.initialise f p)

/-! ## SAMPLE (R209, R287) -/

/-- The variate of sequence `j` (R209). -/
def sampleVariate (key : List Byte) (step mb id4 j : Nat) : Nat :=
  let d := drawWord key step mb id4 (2 * j + 1) * 2 ^ 32 + drawWord key step mb id4 (2 * j)
  (fp64.round .rne false (d / 2 ^ 11) (-53) false).1

/-- Inserts a weight behind all that are at least as large: weights are FP32 codes that are not negative. -/
def insertWeight (x : Nat × Nat) : List (Nat × Nat) → List (Nat × Nat)
  | [] => [x]
  | y :: ys => if y.1 < x.1 then x :: y :: ys else y :: insertWeight x ys

/-- Weights with their indices, descending, equal weights by lower index (R287). -/
def sortWeights (l : List (Nat × Nat)) : List (Nat × Nat) := l.foldl (fun acc x => insertWeight x acc) []

/-- The running FP64 sums of a list of values with flags (R287). -/
def runningSums : FV → List Nat → List FV
  | _, [] => []
  | c, w :: ws => let c' := fp64.addF .rne c (FV.of w); c' :: runningSums c' ws

/-- Numeric order of two FP64 codes. -/
def less64 (a b : Nat) : Bool := cmpNum (fp64.decode a) (fp64.decode b) == .lt

/-- The token of a row of weights, with the flags its FP64 work raises (R287). -/
def pickToken (ws : List Nat) (topK topP u : Nat) : Nat × Flags :=
  let sorted := sortWeights ws.zipIdx
  let top := if topK = 0 then sorted else sorted.take topK
  let vals := top.map fun p => widen fp32 fp64 p.1
  let cs := match vals with
    | [] => []
    | v :: vs => FV.of v :: runningSums (FV.of v) vs
  let lim := fp64.mulF .rne (FV.of (widen fp32 fp64 topP)) (cs.getLastD (FV.of 0))
  let cut := (cs.takeWhile fun c => less64 c.1 lim.1).length + 1
  let kept := (top.zip cs).take cut
  let t := fp64.mulF .rne (FV.of u) ((kept.getLast?.map Prod.snd).getD (FV.of 0))
  let tok := match kept.find? (fun p => less64 t.1 p.2.1) with
    | some p => p.1.2
    | none => (kept.getLast?.map fun p => p.1.2).getD 0
  (tok, lim.2 ||| t.2)

/-- The greedy token: the lowest index of the largest logit (R287). -/
def greedyToken (zs : List Nat) : Nat :=
  let mx := (maxOrder fp32 zs).1
  ((zs.zipIdx.find? fun p => cmpNum (fp32.decode p.1) (fp32.decode mx) == .eq).map Prod.snd).getD 0

/-- What one row comes to: its token, none where −1.0 is written, and flags. A greedy row forms no product: it is judged
by its logits (R287, R291). Where a weight is NaN, which the rule gives no order for, the token is free, one value for one
row and argument block (R30; log entry 21). -/
def sampleRow (invT topK topP u : Nat) (zs : List Nat) : Option Nat × Flags :=
  if invT = 0x7F800000 then
    if zs.any fp32.isNan || zs.all fun z => z == fp32.infCode true then (none, 0) else (some (greedyToken zs), 0)
  else
  let ls := zs.map fun z => mulV (FV.of z) (FV.of invT)
  let fl := flagsOf ls
  if zs.any fp32.isNan || ls.all fun l => l.1 == fp32.infCode true then (none, fl)
  else
    let mx := FV.of (maxOrder fp32 (ls.map Prod.fst)).1
    let es := ls.map fun l => FV.elem exp32 (subV l mx)
    if es.any fun e => fp32.isNan e.1 then
      (some (Config.sampleToken (invT :: topK :: topP :: u :: zs) % zs.length), flagsOf es)
    else
      let r := pickToken (es.map Prod.fst) topK topP u
      (some r.1, r.2 ||| flagsOf es)

/-- The stop tokens of an argument block. -/
def stopTokens (arg : List Byte) : List Nat :=
  ((List.range 4).map fun i => leAt arg (12 + 4 * i) 4).filter (· != 0xFFFFFFFF)

/-- The row of the token tensor that an iteration writes (R287). -/
def tokenRow (t : Tensor) (iter : Nat) : TView := { t := { t with grow := 2 }, row0 := t.len0 + iter, rows := 1 }

/-- SAMPLE's effect. -/
def State.sample (s : State) (f : Found) (p : Plan) : Except Fail State := do
  let arg := p.arg (wLo f.words 5)
  let invT := leAt arg 0 4
  let x ← s.operand f.ctx p (wLo f.words 4) f.run.step f.run.iter
  match p.tensors[wHi f.words 4]? with
  | none => .error windowViolation
  | some tt => do
    let row := tt.len0 + f.run.iter
    let n := x.rowList.length
    let greedy := invT == 0x7F800000
    let key ← if greedy then .ok [] else f.ctx.key 3
    let got ← (x.rowList.zipIdx).mapM fun q => do
      let zs ← s.rowVals f x q.1.1 q.1.2.1 q.1.2.2 false
      let at_ := leAt arg 28 6 + 4 * q.2
      let st ← s.rdNat f.ctx at_ 4
      let u := if greedy then 0 else sampleVariate key f.run.step (wMb f.words) (tt.stream * 4) q.2
      let res := sampleRow invT (leAt arg 4 4) (leAt arg 8 4) u (zs.map Prod.fst)
      let ended := bitOf st 0
      let before ← if ended && row != 0 then
          (s.readCode f.ctx tt { c0 := q.2, c1 := row - 1, c2 := 0, c3 := 0 }).map fun c => widen tt.elem.layout fp32 c
        else .ok (nat32 (Config.endedToken (stopTokens arg)))
      let code := if ended then before else match res.1 with
        | some t => nat32 t
        | none => 0xBF800000
      let stop := !ended && (match res.1 with
        | some t => (stopTokens arg).contains t
        | none => true)
      return ((q.2, code, res.2), at_, if stop then st ||| 1 else st, !ended && res.1.isNone)
    let s ← got.foldlM (fun s g => s.wrNat f.ctx.id g.2.1 4 g.2.2.1) s
    let s := if greedy then s
      else s.drew f.ctx.id (evaluations ((List.range (2 * n)).map fun e => (e / 16, s.grainOfUnit f.path n (e / 2))))
    let s := if got.any fun g => g.2.2.2 then s.raise 0x1501 0 f.path f.ctx.id else s
    s.finishVec f (tokenRow tt f.run.iter) .fp32 n (fun k => k.c0)
      (got.map fun g => (({ c0 := g.1.1, c1 := row, c2 := 0, c3 := 0 } : Coord), (g.1.2.1, g.1.2.2)))

/-- SAMPLE (R209, R287). -/
def execSample (r : InstrRef) (s : State) : Out :=
  .next (s.runIssuedWith r (fun f => wOp f.words == 0x26)
    (fun f p s => ((p.tensors[wHi f.words 4]?).toList).foldl (fun s t => s.undefView r.ctx (tokenRow t f.run.iter)) s)
    fun f p s => s.sample f p)

end Sys2Proof.Machine
end

