-- ==== Sys2Proof/Machine/Power.lean ====
section
/-! DEFINITION. Power, clocks and thermal limits (R451 to R471), the power states of units and ports (R462 to R465), and
the test access port (R477). Times here are in steps of 100 ns where a name ends in `T`. -/

namespace Sys2Proof.Machine

/-! ## POWER_POLICY (R459, R465) -/

/-- The ports OFF, but those of a die in a partition reset, begin their return to PROBE (R465). -/
def State.returnAll (s : State) : State := s.returnPorts ((List.range 32).filter fun p => !(s.dieResetting (p / 8)))

/-- What POWER_POLICY does once it passes the checks to order 6. -/
def State.powerPolicy (sl : Slot) (se : Session) (s : State) : State :=
  let limit := sl.w 4
  let cap := sl.w 5
  if sl.len ≠ 0 then s.invalid se.id sl 2
  else if limit < 800 ∨ 3200 < limit ∨ cap < 250 ∨ 2000 < cap then s.invalid se.id sl 3
  else
    let s := s.mapSettings fun x => { x with limitW := limit, capMhz := cap }
    let s : State := { s with power := { s.power with limitW := limit, capMhz := cap, sinceLow := 0 } }
    let s := if 1600 ≤ limit then s.returnAll else s
    s.setVoltages.ok se.id sl

/-- POWER_POLICY (R459). -/
def execPowerPolicy (sl : Slot) (s : State) : Out :=
  .next (s.command (.powerPolicy sl) sl (sl.cmd == 0x81) (State.powerPolicy sl))

/-! ## The power brake (R461) -/

/-- POWER_BRAKE_APPLY: a low level of `ns`. -/
def execPowerBrakeApply (ns : Nat) (s : State) : Out :=
  let (hit, s) := s.pulse ns 90
  if hit && !s.power.brake then
    .next (({ s with power := { s.power with brake := true, brakeAt := s.now } }.raise 0x7003 1 pkgPath noCtx).setVoltages)
  else .next s

/-- POWER_BRAKE_RELEASE: a high level of `ns`; the islands were held for 1 µs at least. -/
def execPowerBrakeRelease (ns : Nat) (s : State) : Out :=
  let (hit, s) := s.pulse ns 90
  if hit && s.power.brake then
    let s := s.advanceTo (s.power.brakeAt + 1)
    .next (({ s with power := { s.power with brake := false } }.raise 0x7003 0 pkgPath noCtx).setVoltages)
  else .next s

/-! ## Reference clocks (R457, R458) -/

/-- A port whose reference clock is lost goes down and stays in PROBE (R302, R458). -/
def State.loseClock (s : State) (p : Nat) : State :=
  match s.port? p with
  | some q =>
    if q.phase = .train ∨ q.phase = .auth ∨ q.phase = .up then s.portDown p else s
  | none => s

/-- REFCLK_LOST: clock 0 is REFCLK_SYS, clock 1 + d SDS_REFCLKd. -/
def execRefclkLost (clock : Nat) (s : State) : Out :=
  if clock = 0 then
    if s.power.sysLost then .next s
    else .next ({ s with power := { s.power with sysLost := true } }.raise 0x7004 0 pkgPath noCtx)
  else if clock ≤ 4 ∧ !(s.power.sdsLost.getD (clock - 1) false) then
    let s := { s with power := { s.power with sdsLost := s.power.sdsLost.set (clock - 1) true } }.raise 0x7004 clock pkgPath noCtx
    .next (((List.range 8).map fun i => 8 * (clock - 1) + i).foldl (fun s p => s.loseClock p) s)
  else .next s

/-- REFCLK_RETURN: the ports of the die train again from PROBE. -/
def execRefclkReturn (clock : Nat) (s : State) : Out :=
  if clock = 0 then
    if s.power.sysLost then .next ({ s with power := { s.power with sysLost := false } }.raise 0x7004 0x8000 pkgPath noCtx) else .next s
  else if clock ≤ 4 ∧ s.power.sdsLost.getD (clock - 1) false then
    .next ({ s with power := { s.power with sdsLost := s.power.sdsLost.set (clock - 1) false } }.raise 0x7004 (0x8000 + clock) pkgPath noCtx)
  else .next s

/-- Whether an island's generator follows the arithmetic clock that is set for its die: grains, ped controllers, copy
engines and die bridge endpoints; a port's clock is set by the port, a subsoil controller's by the stack interface, and the
management domain has its own (R27, R452). -/
def followsClock (path : Nat) : Bool :=
  decide (path / 256 ≤ 5) || path / 256 == 9

/-- ISLAND_CLOCK_TRIM: a generator is trimmed to the frequency set; without REFCLK_SYS it keeps its last trim. -/
def execIslandClockTrim (path : Nat) (s : State) : Out :=
  if pathKnown path ∧ followsClock path ∧ !s.power.sysLost then
    .next { s with power := { s.power with trims := setKey s.power.trims path (s.clock (pathDie path)) } }
  else .next s

/-! ## Thermal limits (R469 to R471) -/

/-- The limits of a sensor in °C: throttle at, throttle released below, trip at. -/
def sensorLimits (p : Nat) : Int × Int × Int := if p / 256 = 7 then (95, 93, 105) else (100, 98, 110)

/-- Whether a ped path has a sensor: a grain, a ped-2's base-die region, a stack (R469). -/
def isSensor (p : Nat) : Bool := decide (p < 256) || (p / 256 == 2 && p % 16 == 0) || (p / 256 == 7 && decide (p % 256 < 12))

/-- Whether a reading is at or above its throttle value. -/
def isHot (r : Nat × Int) : Bool := decide (16 * (sensorLimits r.1).1 ≤ r.2)

/-- Whether a reading is below its release value. -/
def isCool (r : Nat × Int) : Bool := decide (r.2 < 16 * (sensorLimits r.1).2.1)

/-- Whether a reading trips. -/
def isTrip (r : Nat × Int) : Bool := decide (16 * (sensorLimits r.1).2.2 ≤ r.2)

/-- The readings of a die's sensors. -/
def State.sensorsOf (s : State) (d : Nat) : List (Nat × Int) := s.power.temps.filter fun r => pathDie r.1 == d

/-- THERM_N is low while a die throttles or heat holds ROM start (R470, R471). -/
def State.setTherm (s : State) : State :=
  { s with power := { s.power with thermN := !(s.power.throttle.any id) && !s.boot.thermHold } }

/-- Refresh of a stack doubles or returns to normal (R469). -/
def State.refresh (s : State) (st : Nat) (t : Int) : State :=
  let on := s.power.doubled.getD st false
  if !on && decide (16 * 85 ≤ t) then
    { s with power := { s.power with doubled := s.power.doubled.set st true } }.raise 0x7006 st (0x700 + st) noCtx
  else if on && decide (t < 16 * 82) then
    { s with power := { s.power with doubled := s.power.doubled.set st false } }.raise 0x7006 (0x8000 + st) (0x700 + st) noCtx
  else s

/-- A throttling episode of a die begins: its cap starts from the POWER_POLICY cap (R470). -/
def State.beginThrottle (s : State) (d : Nat) : State :=
  let hot := (s.sensorsOf d).filter isHot
  if hot.isEmpty || s.power.throttle.getD d false || s.boot.phase != .running then s
  else
    let detail := d + placed (flag (hot.any fun r => r.1 / 256 == 7)) 8
    let s : State := { s with power := { s.power with
      throttle := s.power.throttle.set d true, thermalCap := s.power.thermalCap.set d (mhzSteps s.power.capMhz) } }
    (s.raise 0x7001 detail (diePath d) noCtx).notifyOps 0x7001 detail

/-- A trip: logged, and a chip reset with ROM start held until the package is cool (R471). -/
def State.trip (s : State) (sensor : Nat) : State :=
  let s := (s.writeNow 0x7002 sensor sensor noCtx).notifyOps 0x7002 sensor
  (({ s with boot := { s.boot with thermHold := true } } : State).chipReset 0xA).holdReset

/-- THERMAL_SAMPLE: every sensor named is read. -/
def execThermalSample (readings : List Reading) (s : State) : Out :=
  let seen := (readings.filter fun r => isSensor r.sensor).map fun r => (r.sensor, r.temp)
  let temps := seen.foldl (fun l r => setKey l r.1 r.2) s.power.temps
  let us := (List.range 4).map fun d => s.power.throttleUs.getD d 0 + (if s.power.throttle.getD d false then 100 else 0)
  let s : State := { s with power := { s.power with temps, throttleUs := us } }
  if !s.powered then .next s
  else
    let s := seen.foldl (fun s r => if r.1 / 256 = 7 then s.refresh (r.1 % 256) r.2 else s) s
    match seen.find? isTrip, s.boot.thermHold with
    | some r, false => .next (s.trip r.1)
    | _, hold =>
      let cool := temps.all fun r => decide (r.2 < 16 * 90)
      let s : State := { s with boot := { s.boot with thermHold := hold && !cool } }
      let s := if hold && cool then s.chipRuns else s
      .next ((List.range 4).foldl (fun s d => s.beginThrottle d) s).setTherm

/-- THERMAL_CAP_STEP: the thermal cap of a throttling die falls while a sensor is hot and rises once all are cool, until
it no longer limits. -/
def execThermalCapStep (d : Nat) (s : State) : Out :=
  let sensors := s.sensorsOf d
  let cap := s.power.thermalCap.getD d 128
  let limit := mhzSteps s.power.capMhz
  if !(s.power.throttle.getD d false) then .next s
  else if sensors.any isHot then
    .next { s with power := { s.power with thermalCap := s.power.thermalCap.set d (max 16 (cap - 1)) } }.setVoltages
  else if sensors.all isCool then
    let done := decide (limit ≤ cap + 1)
    .next ({ s with power := { s.power with
      thermalCap := s.power.thermalCap.set d (if done then 128 else cap + 1)
      throttle := if done then s.power.throttle.set d false else s.power.throttle } }.setTherm).setVoltages
  else .next s

/-! ## The power limit loop (R460) -/

/-- POWER_LIMIT_LOOP: the mean of the samples of the last 10 ms against the limit. -/
def execPowerLimitLoop (milliwatts : Nat) (s : State) : Out :=
  if s.boot.phase ≠ .running then .next s
  else
    let history := (s.power.history ++ [milliwatts]).drop (s.power.history.length + 1 - 10)
    let total := sumNat history
    let limit := s.power.limitW * 1000 * history.length
    let low := if 100 * total < 98 * limit then s.power.sinceLow + 1 else 0
    let old := s.power.loopCap
    let cap := if limit < total then max 16 (old - 1) else if 10 ≤ low then min 128 (old + 1) else old
    let policy := mhzSteps s.power.capMhz
    let s : State := { s with power := { s.power with history, sinceLow := low, loopCap := cap, limited := decide (cap < policy) } }
    let s := if cap < policy ∧ policy ≤ old then s.raise 0x7005 (stepsMhz cap) pkgPath noCtx else s
    .next s.setVoltages

/-! ## Power states of units (R462 to R464) -/

/-- Whether a ped path names a unit that chooses its own power state. -/
def powerUnit (p : Nat) : Bool := pathKnown p && (decide (p / 256 ≤ 3) || p / 256 == 5)

/-- The shallowest state a unit is in or on its way from. -/
def UnitPower.depth (u : UnitPower) : Nat := if u.waking then 0 else u.state

/-- The engines of a unit: a ped controller has none. -/
def unitParts (p : Nat) : List Engine := if p < 256 ∨ p / 256 = 5 then pathEngines p else []

/-- Wake time of a state in µs, rounded up (R462). -/
def wakeUs (state : Nat) : Nat := [0, 1, 2, 60].getD state 0

/-- The time from the start of an entry to its end in µs, rounded up (R462). -/
def reachUs (state : Nat) : Nat := [0, 1, 1, 20].getD state 0

/-- The instructions waiting at a ped, with the wait each showed in the previous step (R463). -/
def Ctx.predicted (c : Ctx) (p now : Nat) : List Nat :=
  c.allPlaced.filterMap fun rp =>
    let mine := c.streamPath rp.2.stream == p ||
      (p / 256 == 5 && laneOf (c.words rp.2.stream rp.2.index) == some (Lane.copy (p % 256)))
    if rp.2.phase = .placed ∧ mine = true then
      (c.waits.find? fun w => w.1 == rp.2.stream && w.2.1 == rp.2.index).map fun w =>
        10 * (rp.2.since.getD now + w.2.2 - now)
    else none

/-- t_next in steps of 100 ns from now; none when no hint and no prediction applies (R463). -/
def State.nextT (s : State) (p : Nat) : Option Nat :=
  let hints := s.ctxs.filterMap fun c =>
    let r := c.path p
    if r.hintValid then some (10 * r.hintAt + r.hintNext - 10 * s.now) else none
  let all := hints ++ s.ctxs.flatMap fun c => c.predicted p s.now
  match all with
  | [] => none
  | x :: xs => some (xs.foldl min x)

/-- How long a unit has been idle, in steps of 100 ns; a row names no unit that has not been idle for 200 ns. -/
def State.idleT (s : State) (p : Nat) : Nat :=
  let last := ((unitParts p).map fun e => (s.engineRec e).lastRetire).foldl max (s.unit p).idleSince
  max 2 (10 * (s.now - last))

/-- The deepest state whose break-even does not exceed a time. -/
def deepest (t : Nat) : Nat := if 20000 ≤ t then 3 else if 200 ≤ t then 2 else if 2 ≤ t then 1 else 0

/-- Whether a unit may enter a state: no issued work; a ped's children as deep; a grain without items for Off
(R462). -/
def State.mayPower (s : State) (p state : Nat) : Bool :=
  let kids := if 1 ≤ p / 256 ∧ p / 256 ≤ 3 then (s.children p).map Prod.fst else []
  let q := s.sched p
  (unitParts p).all (fun e => (s.issuedOn e).isEmpty) && kids.all (fun k => decide (state ≤ (s.unit k).depth)) &&
  (state != 3 || !(decide (p < 256)) || (q.fwd.isEmpty && q.bwd.isEmpty && q.queue.isEmpty && q.running.isEmpty))

/-- POWER_STATE_ENTER (R463, R464): a request during a wake is queued. -/
def execPowerStateEnter (p : Nat) (s : State) : Out :=
  let target := deepest ((s.nextT p).getD (s.idleT p))
  let u := s.unit p
  if !(powerUnit p) || target ≤ u.depth || u.entering.isSome || !(s.mayPower p target) then .next s
  else if u.waking then .next (s.setUnit p { u with shutPending := some target })
  else .next (s.setUnit p { u with entering := some (target, s.now) })

/-- POWER_STATE_REACHED (R464): an enable queued meanwhile begins its wake. -/
def execPowerStateReached (p : Nat) (s : State) : Out :=
  match (s.unit p).entering with
  | some (st, start) =>
    let s := s.advanceTo (start + reachUs st)
    let u := s.unit p
    .next (s.setUnit p { u with state := st, entering := none, waking := u.wakePending, wakePending := false })
  | none => .next s

/-- POWER_ENABLE (R464). -/
def execPowerEnable (p : Nat) (s : State) : Out := if powerUnit p then .next (s.enable p) else .next s

/-- POWER_WAKE (R463): at t_next minus the wake time of the state. -/
def execPowerWake (p : Nat) (s : State) : Out :=
  match s.nextT p, powerUnit p with
  | some t, true =>
    let st := (((s.unit p).entering).map Prod.fst).getD (s.unit p).state
    .next ((s.advanceTo (s.now + (t / 10 - wakeUs st))).enable p)
  | _, _ => .next s

/-- POWER_WAKE_DONE (R464): a shutdown request queued meanwhile is acted on. -/
def execPowerWakeDone (p : Nat) (s : State) : Out :=
  let u := s.unit p
  if u.waking then
    .next (s.setUnit p { state := 0, entering := u.shutPending.map fun t => (t, s.now), waking := false, wakePending := false,
                         shutPending := none, idleSince := s.now })
  else .next s

/-! ## Ports OFF (R465) -/

/-- PORT_POWER_OFF: only a port that no context reserves, below 1,600 W. -/
def execPortPowerOff (p : Nat) (s : State) : Out :=
  match s.port? p with
  | some q =>
    let used := s.ctxs.any fun c => c.bindings.any fun b => b.port == p
    if !used ∧ s.power.limitW < 1600 ∧ (q.phase = .probe ∨ q.phase = .train ∨ q.phase = .auth ∨ q.phase = .up) then
      .next (s.portLeave p .off)
    else .next s
  | none => .next s

/-- PORT_OFF_RETURN_DONE: the port is in PROBE, and RESERVEs that waited for it are answered. -/
def execPortOffReturnDone (p : Nat) (s : State) : Out :=
  match s.port? p with
  | some q =>
    if q.phase = .off ∧ q.returning then
      .next (s.mapPort p fun q => { q with phase := .probe, returning := false }).answerReserves
    else .next s
  | none => .next s

/-! ## The test access port (R477) -/

/-- The IDCODE: stepping version (A0 0, A1 1, B0 2; the steppings of R401 are 0x00, 0x01 and 0x10), part code,
manufacturer code, 1. -/
def idcode (stepping : Nat) : Nat := placed (if stepping < 0x10 then stepping else 2) 28 + 0x0025_6347

/-- The device identification register, which the port shows while it holds IDCODE. -/
def State.tapIdcode (s : State) : Option Nat := if s.tap = .idcode then some (idcode s.caps.stepping) else none

/-- TAP_INSTRUCTION: what may not act acts as BYPASS; a private debug instruction of Tuinel's has no effect that the spec
gives. -/
def execTapInstruction (i : TapInstr) (s : State) : Out :=
  match i with
  | .debug code => if s.boot.prot.getLsbD 5 then .fault (.debugInstruction code) else .next { s with tap := .bypass }
  | .drive code => .next { s with tap := if s.boot.pkgResetN then .bypass else .drive code }
  | .bypass => .next { s with tap := .bypass }
  | .idcode => .next { s with tap := .idcode }
  | .samplePreload => .next { s with tap := .samplePreload }

/-- TAP_RESET. -/
def execTapReset (s : State) : Out := .next { s with tap := .idcode }

end Sys2Proof.Machine
end

