-- ==== Sys2Proof/Machine/Dispatch.lean ====
section
/-! DEFINITION. What each command does: one arm per constructor, each one call of its meaning. -/

namespace Sys2Proof.Machine

/-- The effect of a command on everything but the queue of waiting commands. -/
def exec (i : Instr) (s : State) : Host.Outcome State Fault Refusal :=
  match i with
  | .mmFwd r => Sys2Proof.Machine.execMmFwd r s
  | .mmBwd r => Sys2Proof.Machine.execMmBwd r s
  | .vecElt r => Sys2Proof.Machine.execVecElt r s
  | .vecRowred r => Sys2Proof.Machine.execVecRowred r s
  | .rowstatFwd r => Sys2Proof.Machine.execRowstatFwd r s
  | .rowstatBwd r => Sys2Proof.Machine.execRowstatBwd r s
  | .dropout r => Sys2Proof.Machine.execDropout r s
  | .initTensor r => Sys2Proof.Machine.execInitTensor r s
  | .sample r => Sys2Proof.Machine.execSample r s
  | .clipSum r => Sys2Proof.Machine.execClipSum r s
  | .clipFinish r => Sys2Proof.Machine.execClipFinish r s
  | .convert r => Sys2Proof.Machine.execConvert r s
  | .optimise r => Sys2Proof.Machine.execOptimise r s
  | .copy number => Sys2Proof.Machine.execCopy number s
  | .copyComplete r => Sys2Proof.Machine.execCopyComplete r s
  | .promote r => Sys2Proof.Machine.execPromote r s
  | .evict r => Sys2Proof.Machine.execEvict r s
  | .sealObject r => Sys2Proof.Machine.execSealObject r s
  | .commonsFillDone obj => Sys2Proof.Machine.execCommonsFillDone obj s
  | .commonsDrainDone obj => Sys2Proof.Machine.execCommonsDrainDone obj s
  | .copyPort r => Sys2Proof.Machine.execCopyPort r s
  | .portCopyCompletion r how => Sys2Proof.Machine.execPortCopyCompletion r how s
  | .synWait r => Sys2Proof.Machine.execSynWait r s
  | .synSignal r => Sys2Proof.Machine.execSynSignal r s
  | .allReduce r => Sys2Proof.Machine.execAllReduce r s
  | .reduceScatter r => Sys2Proof.Machine.execReduceScatter r s
  | .allGather r => Sys2Proof.Machine.execAllGather r s
  | .ringPass r => Sys2Proof.Machine.execRingPass r s
  | .collMessageReceive port bind m => Sys2Proof.Machine.execCollMessageReceive port bind m s
  | .nop r => Sys2Proof.Machine.execNop r s
  | .regWrite r => Sys2Proof.Machine.execRegWrite r s
  | .grnFpcsrWrite r => Sys2Proof.Machine.execGrnFpcsrWrite r s
  | .pwrHintWrite r => Sys2Proof.Machine.execPwrHintWrite r s
  | .lglBootLockClose => Sys2Proof.Machine.execLglBootLockClose s
  | .sieveCommit r => Sys2Proof.Machine.execSieveCommit r s
  | .stepEnd r => Sys2Proof.Machine.execStepEnd r s
  | .loopEnd r => Sys2Proof.Machine.execLoopEnd r s
  | .instructionAccept grain r sameCycle => Sys2Proof.Machine.execInstructionAccept grain r sameCycle s
  | .itemEnterWindow grain backward => Sys2Proof.Machine.execItemEnterWindow grain backward s
  | .itemIssue grain array => Sys2Proof.Machine.execItemIssue grain array s
  | .itemComplete grain array => Sys2Proof.Machine.execItemComplete grain array s
  | .laneIssue r => Sys2Proof.Machine.execLaneIssue r s
  | .instructionComplete r => Sys2Proof.Machine.execInstructionComplete r s
  | .itemRetry e r => Sys2Proof.Machine.execItemRetry e r s
  | .waitTimeout r => Sys2Proof.Machine.execWaitTimeout r s
  | .engineHang e => Sys2Proof.Machine.execEngineHang e s
  | .collTimeout r => Sys2Proof.Machine.execCollTimeout r s
  | .updateStall r => Sys2Proof.Machine.execUpdateStall r s
  | .snapshotFirstWrite ctx page => Sys2Proof.Machine.execSnapshotFirstWrite ctx page s
  | .snapshotDrainPage ctx => Sys2Proof.Machine.execSnapshotDrainPage ctx s
  | .hello sl => Sys2Proof.Machine.execHello sl s
  | .attest sl => Sys2Proof.Machine.execAttest sl s
  | .admitCtx sl => Sys2Proof.Machine.execAdmitCtx sl s
  | .reserve sl => Sys2Proof.Machine.execReserve sl s
  | .release sl => Sys2Proof.Machine.execRelease sl s
  | .attachCommons sl => Sys2Proof.Machine.execAttachCommons sl s
  | .attachCommonsGrant sl => Sys2Proof.Machine.execAttachCommonsGrant sl s
  | .detachCommons sl => Sys2Proof.Machine.execDetachCommons sl s
  | .detachCommonsRevoke sl => Sys2Proof.Machine.execDetachCommonsRevoke sl s
  | .loadPlan sl => Sys2Proof.Machine.execLoadPlan sl s
  | .bindDataOpenIn sl => Sys2Proof.Machine.execBindDataOpenIn sl s
  | .bindDataOpenOut sl => Sys2Proof.Machine.execBindDataOpenOut sl s
  | .bindDataClose sl => Sys2Proof.Machine.execBindDataClose sl s
  | .bulkFrame conn head bulk data => Sys2Proof.Machine.execBulkFrame conn head bulk data s
  | .runStep sl => Sys2Proof.Machine.execRunStep sl s
  | .hold sl => Sys2Proof.Machine.execHold sl s
  | .holdComplete ctx => Sys2Proof.Machine.execHoldComplete ctx s
  | .resume sl => Sys2Proof.Machine.execResume sl s
  | .snapshot sl => Sys2Proof.Machine.execSnapshot sl s
  | .restore sl => Sys2Proof.Machine.execRestore sl s
  | .exportSnapshot sl => Sys2Proof.Machine.execExportSnapshot sl s
  | .queryStats sl => Sys2Proof.Machine.execQueryStats sl s
  | .queryCaps sl => Sys2Proof.Machine.execQueryCaps sl s
  | .fwOffer sl => Sys2Proof.Machine.execFwOffer sl s
  | .fwChunk sl => Sys2Proof.Machine.execFwChunk sl s
  | .fwApplyDone => Sys2Proof.Machine.execFwApplyDone s
  | .fwActivate sl => Sys2Proof.Machine.execFwActivate sl s
  | .fwConfirm sl => Sys2Proof.Machine.execFwConfirm sl s
  | .logReadRecords sl => Sys2Proof.Machine.execLogReadRecords sl s
  | .logReadConfig sl => Sys2Proof.Machine.execLogReadConfig sl s
  | .logWriteConfig sl => Sys2Proof.Machine.execLogWriteConfig sl s
  | .logReadSet sl => Sys2Proof.Machine.execLogReadSet sl s
  | .logWriteSet sl => Sys2Proof.Machine.execLogWriteSet sl s
  | .dumpRead sl => Sys2Proof.Machine.execDumpRead sl s
  | .resetReq sl => Sys2Proof.Machine.execResetReq sl s
  | .powerPolicy sl => Sys2Proof.Machine.execPowerPolicy sl s
  | .clientConnect conn front cert => Sys2Proof.Machine.execClientConnect conn front cert s
  | .sessionEnd conn => Sys2Proof.Machine.execSessionEnd conn s
  | .eventSlotRelease conn head slot => Sys2Proof.Machine.execEventSlotRelease conn head slot s
  | .eventDeliver session => Sys2Proof.Machine.execEventDeliver session s
  | .flitSend port => Sys2Proof.Machine.execFlitSend port s
  | .flitReceive port bytes clean => Sys2Proof.Machine.execFlitReceive port bytes clean s
  | .retryRequest port seq => Sys2Proof.Machine.execRetryRequest port seq s
  | .ackTimeout port => Sys2Proof.Machine.execAckTimeout port s
  | .linkDown port => Sys2Proof.Machine.execLinkDown port s
  | .laneLockLoss port lanes => Sys2Proof.Machine.execLaneLockLoss port lanes s
  | .peerSlow port vc => Sys2Proof.Machine.execPeerSlow port vc s
  | .laneErrorInterval port errs => Sys2Proof.Machine.execLaneErrorInterval port errs s
  | .laneWidthChangeDone w => Sys2Proof.Machine.execLaneWidthChangeDone w s
  | .probeBurst port => Sys2Proof.Machine.execProbeBurst port s
  | .portBurstHeard port => Sys2Proof.Machine.execPortBurstHeard port s
  | .portTrainDone port selfTest lanes => Sys2Proof.Machine.execPortTrainDone port selfTest lanes s
  | .portAuthDone port h => Sys2Proof.Machine.execPortAuthDone port h s
  | .peerAuthTimeout port => Sys2Proof.Machine.execPeerAuthTimeout port s
  | .quarantineExpiry port => Sys2Proof.Machine.execQuarantineExpiry port s
  | .linkKeyUpdate h => Sys2Proof.Machine.execLinkKeyUpdate h s
  | .bindingTableExchange port table => Sys2Proof.Machine.execBindingTableExchange port table s
  | .contextReset ctx cause => Sys2Proof.Machine.execContextReset ctx cause s
  | .contextResetStopDone ctx => Sys2Proof.Machine.execContextResetStopDone ctx s
  | .contextResetRestoreDone ctx => Sys2Proof.Machine.execContextResetRestoreDone ctx s
  | .engineReset e cause => Sys2Proof.Machine.execEngineReset e cause s
  | .engineResetDone e => Sys2Proof.Machine.execEngineResetDone e s
  | .partitionReset die cause => Sys2Proof.Machine.execPartitionReset die cause s
  | .partitionStopDone die => Sys2Proof.Machine.execPartitionStopDone die s
  | .partitionDumpDone die => Sys2Proof.Machine.execPartitionDumpDone die s
  | .partitionRetireDone die => Sys2Proof.Machine.execPartitionRetireDone die s
  | .partitionTrainDone t => Sys2Proof.Machine.execPartitionTrainDone t s
  | .partitionZeroDone die => Sys2Proof.Machine.execPartitionZeroDone die s
  | .chipReset cause => Sys2Proof.Machine.execChipReset cause s
  | .resetEscalated level part => Sys2Proof.Machine.execResetEscalated level part s
  | .powerCycleRequest => Sys2Proof.Machine.execPowerCycleRequest s
  | .controllerHeartbeatExpiry path => Sys2Proof.Machine.execControllerHeartbeatExpiry path s
  | .managementHeartbeatExpiry => Sys2Proof.Machine.execManagementHeartbeatExpiry s
  | .readyWatchdogExpiry => Sys2Proof.Machine.execReadyWatchdogExpiry s
  | .romStartDone => Sys2Proof.Machine.execRomStartDone s
  | .identityDone powerUps => Sys2Proof.Machine.execIdentityDone powerUps s
  | .recordsDone => Sys2Proof.Machine.execRecordsDone s
  | .bankLoadDone => Sys2Proof.Machine.execBankLoadDone s
  | .handoverDone => Sys2Proof.Machine.execHandoverDone s
  | .firmwareReady => Sys2Proof.Machine.execFirmwareReady s
  | .dumpFlashCopyDone => Sys2Proof.Machine.execDumpFlashCopyDone s
  | .pkgResetAssert ns => Sys2Proof.Machine.execPkgResetAssert ns s
  | .pkgResetRelease ns => Sys2Proof.Machine.execPkgResetRelease ns s
  | .pwrGoodRise => Sys2Proof.Machine.execPwrGoodRise s
  | .pwrGoodFall => Sys2Proof.Machine.execPwrGoodFall s
  | .powerDownStopDone => Sys2Proof.Machine.execPowerDownStopDone s
  | .powerBrakeApply ns => Sys2Proof.Machine.execPowerBrakeApply ns s
  | .powerBrakeRelease ns => Sys2Proof.Machine.execPowerBrakeRelease ns s
  | .refclkLost clock => Sys2Proof.Machine.execRefclkLost clock s
  | .refclkReturn clock => Sys2Proof.Machine.execRefclkReturn clock s
  | .islandClockTrim path => Sys2Proof.Machine.execIslandClockTrim path s
  | .thermalSample readings => Sys2Proof.Machine.execThermalSample readings s
  | .thermalCapStep die => Sys2Proof.Machine.execThermalCapStep die s
  | .powerLimitLoop milliwatts => Sys2Proof.Machine.execPowerLimitLoop milliwatts s
  | .powerStateEnter path => Sys2Proof.Machine.execPowerStateEnter path s
  | .powerWake path => Sys2Proof.Machine.execPowerWake path s
  | .powerEnable path => Sys2Proof.Machine.execPowerEnable path s
  | .portPowerOff port => Sys2Proof.Machine.execPortPowerOff port s
  | .patrolScrub page finding => Sys2Proof.Machine.execPatrolScrub page finding s
  | .topsoilScrub page finding => Sys2Proof.Machine.execTopsoilScrub page finding s
  | .equaliserRecalibration port lane => Sys2Proof.Machine.execEqualiserRecalibration port lane s
  | .subsoilRetraining stack channel => Sys2Proof.Machine.execSubsoilRetraining stack channel s
  | .pageZeroDone page => Sys2Proof.Machine.execPageZeroDone page s
  | .flashWearLevelling block => Sys2Proof.Machine.execFlashWearLevelling block s
  | .bgDeadlineForced task => Sys2Proof.Machine.execBgDeadlineForced task s
  | .telemetrySample t => Sys2Proof.Machine.execTelemetrySample t s
  | .sedEventPost src => Sys2Proof.Machine.execSedEventPost src s
  | .sedRecordWrite => Sys2Proof.Machine.execSedRecordWrite s
  | .sedRecordClose => Sys2Proof.Machine.execSedRecordClose s
  | .sedTokenRefill code => Sys2Proof.Machine.execSedTokenRefill code s
  | .sedFlush => Sys2Proof.Machine.execSedFlush s
  | .commandSlotRelease conn head slot => Sys2Proof.Machine.execCommandSlotRelease conn head slot s
  | .powerStateReached path => Sys2Proof.Machine.execPowerStateReached path s
  | .powerWakeDone path => Sys2Proof.Machine.execPowerWakeDone path s
  | .portOffReturnDone port => Sys2Proof.Machine.execPortOffReturnDone port s
  | .exportEnd ctx => Sys2Proof.Machine.execExportEnd ctx s
  | .controlStateUe path => Sys2Proof.Machine.execControlStateUe path s
  | .tapInstruction v => Sys2Proof.Machine.execTapInstruction v s
  | .tapReset => Sys2Proof.Machine.execTapReset s

end Sys2Proof.Machine
end

