-- ==== Sys2Proof/Machine/Idle.lean ====
section
/-! DEFINITION. What the block does when no command waits in its queue: it takes a Ligil command that waited at the
device (R228, R334, R335, R345), or lets 1 µs pass, and then a chip reset that a command asked for begins once its time
of R360 is over (log entry 25). -/

namespace Sys2Proof.Machine

/-- The first waiting command that can be taken now, with those before it and those after it. -/
def State.nextWaiting (s : State) : List Instr → List Instr → Option (List Instr × Instr × List Instr)
  | _, [] => none
  | before, c :: rest =>
    if s.takeable s.reserveWaits before c then some (before, c, rest) else s.nextWaiting (before ++ [c]) rest

/-- The commands that still wait after one was taken: those whose session lives, ahead of any that began to wait. -/
def State.stillWaiting (s : State) (l : List Instr) : State :=
  let alive (c : Instr) : Bool := (slotOf c).any fun sl => (s.sessionOf sl.conn).isSome
  let kept := if s.boot.phase = .running then l.filter alive else []
  { s with ligil := { s.ligil with deferred := kept ++ s.ligil.deferred } }

/-- An idle step. -/
def State.idle (s : State) : Host.Outcome State Fault Refusal :=
  match s.nextWaiting [] s.ligil.deferred with
  | some (before, c, after) =>
    match exec c { s with ligil := { s.ligil with deferred := [] } } with
    | .next s' => .next (s'.stillWaiting (before ++ after))
    | o => o
  | none => .next (s.advanceTo (s.now + 1)).dueReset

end Sys2Proof.Machine
end

