-- ==== Sys2Proof/Safety.lean ====
section
/-! DEFINITION. What counts as a safe run, and the terms in which the statements say what a command leaves alone. -/

namespace Sys2Proof.Machine

/-- A run of `n` steps from `s` ends in a next state: the block has stopped nowhere on it. -/
def SafeRun (n : Nat) (s : State) : Prop := ∃ t, Host.Core.run Sys2Proof.core n s = .next t

/-- What every statement about a state asks of it: its memory is in canonical form. -/
def Inv (s : State) : Prop := Memory.wf s.mem = true

/-- Every context but `id` is as before. -/
def SameOthers (id : Nat) (s t : State) : Prop := ∀ j, j ≠ id → t.ctx? j = s.ctx? j

/-- Every port but `p` is as before. -/
def SameOtherPorts (p : Nat) (s t : State) : Prop := ∀ q, q ≠ p → t.ports[q]? = s.ports[q]?

/-- The waiting commands, the units in service, boot, flash, power and the test port are as before. -/
structure SameBase (s t : State) : Prop where
  pending : t.pending = s.pending
  caps : t.caps = s.caps
  boot : t.boot = s.boot
  flash : t.flash = s.flash
  power : t.power = s.power
  tap : t.tap = s.tap

/-- Beside `SameBase`: the ports, the resets in progress and the background work are as before. -/
structure SameDevice (s t : State) : Prop extends SameBase s t where
  ports : t.ports = s.ports
  resets : t.resets = s.resets
  bg : t.bg = s.bg

/-- An address lies in no device page that a context has mapped, has as a fall-back page or keeps snapshots in. -/
def Ctx.outside (c : Ctx) (a : Nat) : Prop :=
  ∀ p, (p ∈ c.pages.window.map PageMap.dev ∨ p ∈ c.pages.fallback.map PageMap.dev ∨ p ∈ c.pages.area) →
    a < pageAddr p ∨ pageAddr p + pageSize ≤ a

/-- What a list of signals adds to a counter. -/
def signalSum (l : List (Nat × Nat)) (i : Nat) : Nat := sumNat ((l.filter fun p => p.1 == i).map Prod.snd)

/-- No counter of a context passes 2^32 − 1 by a list of signals (R262). -/
def Ctx.fits (c : Ctx) (l : List (Nat × Nat)) : Prop := ∀ i, c.counter i + signalSum l i ≤ 0xFFFFFFFF

/-- A command arrives in a sound, free slot of an open session that has nothing else to do, while the block serves it,
and the checks of orders 1 to 6 of R335 and the reserved header fields of order 7 let it through. -/
structure Accepted (s : State) (sl : Slot) (se : Session) : Prop where
  serving : s.serving sl.conn = true
  session : s.sessionOf sl.conn = some se
  form : sl.formOk = true
  header : sl.headerOk = true
  names : sl.session.toNat = se.id
  free : s.slotBusy se sl.number = false
  open_ : se.hello = true ∨ se.id = 0 ∨ sl.cmd = 1
  idle : se.busy = []
  alone : s.ligil.deferred.any (cameOver sl.conn) = false
  verdict : s.verdict se sl = .go

/-- The command's slot of a session holds the response to it, with a status. -/
def State.responded (t : State) (id : Nat) (sl : Slot) (status : Nat) : Prop :=
  ∃ x y, t.session? id = some x ∧ y ∈ x.slots ∧ y.number = sl.number ∧ y.code = sl.cmd ∧ y.seq = sl.seq.toNat ∧
    y.status = status

end Sys2Proof.Machine
end

