-- ==== Sys2Proof/Certificates/Slice0/Obligations.lean ====
section
/-! DEFINITION. The statements for the provers: what the block's commands do, what they leave alone, and what every step
keeps. -/

open Sys2Proof Sys2Proof.Machine

/-- One step takes the command at the front of the queue and is what exec does with it on the queue's rest; with no
command waiting it is an idle step (the model's choice, log entry 25). -/
def Obligations.StepRunsFrontCommand : Prop :=
  ∀ (c : Instr) (rest : List Instr) (s : State),
    step { s with pending := c :: rest } = exec c { s with pending := rest } ∧
    step { s with pending := [] } = State.idle { s with pending := [] }

/-- What the spec gives the state after reset, once the firmware accepts HELLO (log entry 1): every page zeroed
(R380), no context and no session but session 0 (R328, R330), RIN_CFG and RIN_TIMERS at the Reset column of R322,
limit and cap of R459, every port in PROBE, no log record and the token configuration of R434. -/
def Obligations.ResetLeavesTheStatedValues : Prop :=
  (∀ a, memRead State.reset.mem a = 0) ∧ State.reset.ctxs = [] ∧
  State.reset.ligil.sessions.map Session.id = [0] ∧
  (∀ p, p < 32 → (State.reset.ports[p]?).map (fun q => (q.phase, q.epoch, q.cfg)) =
    some (PortPhase.probe, 0, { cryptReq := false, serExp := 10, ucw := 4, malThr := 64, quarS := 300, starveMs := 10 })) ∧
  State.reset.power.limitW = 3200 ∧ State.reset.power.capMhz = 2000 ∧
  State.reset.sed.ring = [] ∧ State.reset.pending = [] ∧
  (∀ c, State.reset.codeCfg c =
    if c = 0x2101 ∨ c = 0x2201 then { code := c, rate := true, burst := 32, p := 10, set := 0 }
    else if c = 0x3101 ∨ c = 0x3107 ∨ c = 0x3108 then { code := c, rate := true, burst := 16, p := 8, set := 0 }
    else if c = 0x1001 ∨ c = 0x1002 ∨ c = 0x1003 then { code := c, rate := true, burst := 8, p := 12, set := 0 }
    else { code := c, rate := false, burst := 1, p := 0, set := if c = 0x1101 ∨ c = 0x1103 then 1 else 0 })

/-- Memory is in canonical form after reset. -/
def Obligations.ResetMemoryIsCanonical : Prop :=
  Inv State.reset

/-- Every step keeps memory in canonical form, whatever command is in front: equal memories stay equal data. -/
def Obligations.EveryStepKeepsMemoryCanonical : Prop :=
  ∀ s t : State, Inv s → step s = .next t → Inv t

/-- A command's effect is on everything but the queue: no command adds to the commands that wait or removes one. -/
def Obligations.NoCommandTouchesTheQueue : Prop :=
  ∀ (c : Instr) (s t : State), exec c s = .next t → t.pending = s.pending

/-- No command is refused, and none stops the block but a private debug instruction of the test port while
LGL_PROT_CFG.jtag is 1 (R477), which the spec gives no effect. The test port takes every other instruction; a private
one while jtag is 0, and one that drives outputs outside the reset input, act as BYPASS. A B0 part's IDCODE is
0x20256347. -/
def Obligations.OnlyADebugInstructionStopsTheBlock : Prop :=
  (∀ (c : Instr) (s : State), (∃ t, exec c s = .next t) ∨
    ∃ k, c = .tapInstruction (.debug k) ∧ s.boot.prot.getLsbD 5 = true ∧ exec c s = .fault (.debugInstruction k)) ∧
  (∀ (s : State), exec .tapReset s = .next { s with tap := .idcode } ∧
    (s.tap = .idcode → s.caps.stepping = 0x10 → s.tapIdcode = some 0x20256347) ∧
    (∀ i, i = .bypass ∨ i = .idcode ∨ i = .samplePreload → exec (.tapInstruction i) s = .next { s with tap := i }) ∧
    (∀ k, exec (.tapInstruction (.drive k)) s =
      .next { s with tap := if s.boot.pkgResetN then .bypass else .drive k }) ∧
    (∀ k, s.boot.prot.getLsbD 5 = false → exec (.tapInstruction (.debug k)) s = .next { s with tap := .bypass }))

/-- NOP, SYN_WAIT and SYN_SIGNAL (R262, R263, R272): issued at the head of the control lane with their waits holding,
on active units, they retire and add each of their signals once; nothing else changes. `upd` belongs to OPTIMISE and
`flags` to the vector unit. `u` is the state after the decision for the boundary in front, which the row makes first
under overlap (R268). A control instruction whose wait does not hold does nothing (R263): it stays where it is, once
the decision of R268 that its row may make is made. -/
def Obligations.ControlLaneInstructionsRetireAndSignal : Prop :=
  (∀ (s u : State) (r : InstrRef) (f : Found) (i : Instr), u = s.decideEntry r → u.found? r = some f → u.issuable f = true →
     (u.workUnits f).all u.active = true → f.p.upd = none → f.p.flags = [] → f.ctx.fits (signalsOf f.words) →
     ((i = .nop r ∧ wOp f.words = 0x70) ∨ (i = .synWait r ∧ wOp f.words = 0x50) ∨
       (i = .synSignal r ∧ wOp f.words = 0x51)) →
     ∃ t c, exec i s = .next t ∧ t.found? r = none ∧ t.ctx? r.ctx = some c ∧
       (∀ k, c.counter k = f.ctx.counter k + signalSum (signalsOf f.words) k) ∧
       c.grains = f.ctx.grains ∧ c.paths = f.ctx.paths ∧ c.sieve = f.ctx.sieve ∧ c.syn = f.ctx.syn ∧ c.spr = f.ctx.spr ∧
       t.mem = s.mem ∧ SameOthers r.ctx s t ∧ SameDevice s t ∧ t.sed = s.sed ∧ t.ligil = s.ligil) ∧
  (∀ (s u : State) (r : InstrRef) (f : Found), u = s.decideEntry r →
     (u.found? r = some f → u.waitHolds f = false →
       exec (.nop r) s = .next u ∧ exec (.synWait r) s = .next u ∧ exec (.synSignal r) s = .next u ∧
       exec (.regWrite r) s = .next u ∧ exec (.grnFpcsrWrite r) s = .next u ∧ exec (.pwrHintWrite r) s = .next u ∧
       exec (.sieveCommit r) s = .next u) ∧
     (s.found? r = some f → s.waitHolds f = false → exec (.stepEnd r) s = .next s ∧ exec (.loopEnd r) s = .next s))

/-- REG_WRITE, the write to GRN_FPCSR and the write to PWR_HINT (R65, R278, R478): issued with their waits holding, on
active units, they write their register as R278 says and complete. `u` is the state after the decision of R268.
SIEVE_COMMIT (R128, R279): issued on an active controller, it commits the tensors it names and retires; when a record
cannot be read or written the context faults instead. `u` is the state after the decision of R268. -/
def Obligations.RegisterWritesComplete : Prop :=
  (∀ (s u : State) (r : InstrRef) (f : Found), u = s.decideEntry r → u.found? r = some f → u.issuable f = true →
     (u.workUnits f).all u.active = true → wOp f.words = 0x71 →
     (isFpcsrWrite f.path f.words = false → isHintWrite f.words = false →
       exec (.regWrite r) s = .next ((u.doRegWrite f).completeInstr r f)) ∧
     (isFpcsrWrite f.path f.words = true → exec (.grnFpcsrWrite r) s = .next ((u.doRegWrite f).completeInstr r f)) ∧
     (isHintWrite f.words = true → exec (.pwrHintWrite r) s = .next ((u.doRegWrite f).completeInstr r f)) ∧
     (u.doRegWrite f).mem = s.mem ∧ SameDevice s (u.doRegWrite f) ∧ SameOthers f.ctx.id s (u.doRegWrite f)) ∧
  (∀ (s u v : State) (r : InstrRef) (f : Found) (p : Plan) (e : Fail), u = s.decideEntry r → u.found? r = some f →
     wOp f.words = 0x72 → u.issuable f = true → (u.workUnits f).all u.active = true → f.ctx.plan = some p →
     (u.commitAll r.ctx f.path f.run.step p (commitNames f.words) = .ok v →
       exec (.sieveCommit r) s = .next (v.completeInstr r f)) ∧
     (u.commitAll r.ctx f.path f.run.step p (commitNames f.words) = .error e →
       exec (.sieveCommit r) s = .next (u.fault r.ctx f.path e)))

/-- What a masked write does to GRN_FPCSR (R65, R278): each bit of rdir takes the value's where the mask has a 1, each
sticky flag is cleared where value and mask have a 1, and nothing else of the grain's registers changes. GRN_FPCSR's
flags are sticky (R64): what a grain raises, and what it had, stays set; no other register of the grain and no other
grain's register changes. -/
def Obligations.GrainStatusIsMaskedAndSticky : Prop :=
  (∀ (r : GrainRegs) (v m : Nat), r.rdir < 8 → r.flags < 32 →
     (∀ j, j < 3 → (writeGrain r 0x040 v m).rdir.testBit j =
       if m.testBit (8 + j) then v.testBit (8 + j) else r.rdir.testBit j) ∧
     (∀ j, j < 5 → (writeGrain r 0x040 v m).flags.testBit j =
       (r.flags.testBit j && !(v.testBit j && m.testBit j))) ∧
     (writeGrain r 0x040 v m).rdir < 8 ∧ (writeGrain r 0x040 v m).flags < 32 ∧
     (writeGrain r 0x040 v m).preferFwd = r.preferFwd ∧ (writeGrain r 0x040 v m).skewValid = r.skewValid ∧
     (writeGrain r 0x040 v m).busy = r.busy ∧ (writeGrain r 0x040 v m).starve = r.starve) ∧
  (∀ (s : State) (id g fl : Nat) (c : Ctx), s.ctx? id = some c →
     ∃ d, (s.raiseFlags id g fl).ctx? id = some d ∧ (d.grain g).flags = ((c.grain g).flags ||| fl) ∧
       (d.grain g).rdir = (c.grain g).rdir ∧ (d.grain g).preferFwd = (c.grain g).preferFwd ∧
       (∀ h, h ≠ g → d.grain h = c.grain h) ∧ d.counters = c.counters ∧ d.paths = c.paths)

/-- LANE_ISSUE (R266): the head of a stream-order lane whose wait holds, and whose engine has no older one to take, is
issued at this moment when the units it goes to are active, and wakes them first when they are not (R464); anything
else stays where it is. `u` is the state after the decision of R268. INSTRUCTION_COMPLETE, COPY_COMPLETE and
PORT_COPY_COMPLETION (R259, R285, R312): an executed instruction of which no item is left retires and signals; the
copy's bytes are counted for its engine. -/
def Obligations.LanesIssueAndComplete : Prop :=
  (∀ (s u : State) (r : InstrRef) (f : Found) (l : Lane), u = s.decideEntry r → u.found? r = some f →
     laneOf f.words = some l → l.isArray = false → l ≠ .control →
     (u.issuable f = true → (u.workUnits f).all u.active = true →
       ∃ t g, exec (.laneIssue r) s = .next t ∧ t.found? r = some g ∧ g.p.phase = .issued ∧
         g.p.issuedAt = s.now ∧ g.words = f.words ∧ g.ctx.counters = f.ctx.counters ∧ g.ctx.grains = f.ctx.grains ∧
         t.mem = s.mem ∧ SameOthers r.ctx s t ∧ SameDevice s t) ∧
     (u.issuable f = true → (u.wake (u.workUnits f)).ctxs = u.ctxs ∧
       ((u.workUnits f).all (u.wake (u.workUnits f)).active = false →
         exec (.laneIssue r) s = .next (u.wake (u.workUnits f)))) ∧
     (u.issuable f = false → exec (.laneIssue r) s = .next u)) ∧
  (∀ (s : State) (r : InstrRef) (f : Found), s.found? r = some f → f.p.phase = .executed →
     (laneOf f.words = some .vector ∨ laneOf f.words = some .conversion →
       exec (.instructionComplete r) s = .next ((s.unitsRetire f).completeInstr r f)) ∧
     (laneOf f.words = some .forward ∨ laneOf f.words = some .backward →
       (∀ q ∈ s.scheds, ∀ i ∈ q.2.queue ++ q.2.fwd ++ q.2.bwd ++ q.2.running.map (fun x => x.2.1), i.ref ≠ r) →
       exec (.instructionComplete r) s = .next (s.completeInstr r f)) ∧
     (wOp f.words = 0x40 →
       exec (.copyComplete r) s = .next ((s.copyRetires f.words (copyLen f.words)).completeInstr r f)) ∧
     (wOp f.words = 0x44 →
       exec (.portCopyCompletion r .written) s =
         .next ((s.copyRetires f.words (portLines f.words * 64)).completeInstr r f) ∧
       exec (.portCopyCompletion r .notReceiving) s = .next (s.copyEnded r (copyPortOf f.words)) ∧
       exec (.portCopyCompletion r .violation) s = .next (s.fault r.ctx f.path windowViolation)))

/-- The vector and conversion instructions and OPTIMISE: issued, outside a context reset and an engine reset, with
operands that can be read and a destination that can be written, each has its effect and is executed. MM_FWD, MM_BWD
and OPTIMISE (R68, R157, R176, R180): a product whose grains have all accepted it, whose waits hold and whose items
have all run, and an issued OPTIMISE whose gate has no read missing, have their effect and are executed. A vector or
conversion instruction, a copy, a product or an update that cannot read an operand or write its destination (R98): its
output becomes undefined, it ends, its context faults with the code, and it signals nothing. A product or an update
that cannot read an operand or write its destination: its output becomes undefined and its context faults with the
code (R98). -/
def Obligations.LaneInstructionsExecute : Prop :=
  (∀ (s u : State) (r : InstrRef) (f : Found) (p : Plan), s.found? r = some f → f.p.phase = .issued →
     f.ctx.phase ≠ .resetting → s.engineStopped f = false → f.ctx.plan = some p →
     (wOp f.words = 0x20 → s.vecElt f p = .ok u → exec (.vecElt r) s = .next (u.setPhase r .executed)) ∧
     (wOp f.words = 0x21 → s.vecRowred f p = .ok u → exec (.vecRowred r) s = .next (u.setPhase r .executed)) ∧
     (wOp f.words = 0x22 → s.rowStatistic f p (wHi f.words 5) 0xFFFF (wLo f.words 5) false = .ok u →
       exec (.rowstatFwd r) s = .next (u.setPhase r .executed)) ∧
     (wOp f.words = 0x23 → s.rowStatistic f p (wHi f.words 5) (wLo f.words 5) 0xFFFF true = .ok u →
       exec (.rowstatBwd r) s = .next (u.setPhase r .executed)) ∧
     (wOp f.words = 0x24 → s.dropout f p = .ok u → exec (.dropout r) s = .next (u.setPhase r .executed)) ∧
     (wOp f.words = 0x25 → s.initialise f p = .ok u → exec (.initTensor r) s = .next (u.setPhase r .executed)) ∧
     (wOp f.words = 0x26 → s.sample f p = .ok u → exec (.sample r) s = .next (u.setPhase r .executed)) ∧
     (wOp f.words = 0x27 → s.clipSum f p = .ok u → exec (.clipSum r) s = .next (u.setPhase r .executed)) ∧
     (wOp f.words = 0x28 → s.clipFinish f p = .ok u → exec (.clipFinish r) s = .next (u.setPhase r .executed)) ∧
     (wOp f.words = 0x30 → s.convert f p = .ok u → exec (.convert r) s = .next (u.setPhase r .executed))) ∧
  (∀ (s u : State) (r : InstrRef) (f : Found) (p : Plan) (out : Tensor), s.found? r = some f → f.ctx.plan = some p →
     (f.p.phase = .placed → f.ctx.phase ≠ .resetting → s.allAccepted f = true → s.itemsLeft r = false → s.waitHolds f = true →
       p.tensors[(productOf f.words).output]? = some out → s.product f p out (productOf f.words).output = .ok u →
       (wOp f.words = 0x10 → exec (.mmFwd r) s = .next (u.setPhase r .executed)) ∧
       (wOp f.words = 0x11 → exec (.mmBwd r) s = .next (u.setPhase r .executed))) ∧
     (∀ rep, wOp f.words = 0x32 → f.p.phase = .issued → f.ctx.placing = true → s.gateMissing f = .ok 0 → s.optimise f p = .ok (u, rep) →
       exec (.optimise r) s = .next (u.mapPlaced r fun q => { q with phase := .executed, upd := rep, gateDue := none }))) ∧
  (∀ (s : State) (r : InstrRef) (f : Found) (p : Plan) (e : Fail), s.found? r = some f → f.p.phase = .issued →
     f.ctx.phase ≠ .resetting → s.engineStopped f = false → f.ctx.plan = some p →
     (wOp f.words = 0x20 → s.vecElt f p = .error e →
       exec (.vecElt r) s = .next (((s.undefTensors r.ctx p f.run.iter [wHi f.words 5]).setPhase r .retired).fault r.ctx f.path e)) ∧
     (wOp f.words = 0x30 → s.convert f p = .error e →
       exec (.convert r) s = .next (((s.undefTensors r.ctx p f.run.iter [wHi f.words 4]).setPhase r .retired).fault r.ctx f.path e)) ∧
     (wOp f.words = 0x21 → s.vecRowred f p = .error e →
       exec (.vecRowred r) s = .next (((s.undefTensors r.ctx p f.run.iter [wLo f.words 5]).setPhase r .retired).fault r.ctx f.path e)) ∧
     (wOp f.words = 0x22 → s.rowStatistic f p (wHi f.words 5) 0xFFFF (wLo f.words 5) false = .error e →
       exec (.rowstatFwd r) s = .next (((s.undefTensors r.ctx p f.run.iter [wHi f.words 5]).setPhase r .retired).fault r.ctx f.path e)) ∧
     (wOp f.words = 0x23 → s.rowStatistic f p (wHi f.words 5) (wLo f.words 5) 0xFFFF true = .error e →
       exec (.rowstatBwd r) s = .next (((s.undefTensors r.ctx p f.run.iter [wHi f.words 5]).setPhase r .retired).fault r.ctx f.path e)) ∧
     (wOp f.words = 0x24 → s.dropout f p = .error e →
       exec (.dropout r) s = .next (((s.undefTensors r.ctx p f.run.iter [wHi f.words 4]).setPhase r .retired).fault r.ctx f.path e)) ∧
     (wOp f.words = 0x25 → s.initialise f p = .error e →
       exec (.initTensor r) s = .next (((s.undefTensors r.ctx p f.run.iter [wLo f.words 4]).setPhase r .retired).fault r.ctx f.path e)) ∧
     (wOp f.words = 0x26 → s.sample f p = .error e → ∀ d, p.tensors[wHi f.words 4]? = some d →
       exec (.sample r) s =
         .next (((s.undefView r.ctx (tokenRow d f.run.iter)).setPhase r .retired).fault r.ctx f.path e)) ∧
     (wOp f.words = 0x27 → s.clipSum f p = .error e →
       exec (.clipSum r) s =
         .next (((s.undefRange r.ctx (leAt (p.arg (wHi f.words 4)) 0 6) 8).setPhase r .retired).fault r.ctx f.path e)) ∧
     (wOp f.words = 0x28 → s.clipFinish f p = .error e →
       exec (.clipFinish r) s =
         .next (((s.undefRange r.ctx (leAt (p.arg (wLo f.words 4)) 8 6 + 16) 16).setPhase r .retired).fault r.ctx f.path e)) ∧
     (wOp f.words = 0x40 → s.moveCopy f.ctx f.words = .error e →
       exec (.copy r) s =
         .next (((s.undefRange r.ctx (copyDst f.words) (copyLen f.words)).setPhase r .retired).fault r.ctx f.path e))) ∧
  (∀ (s : State) (r : InstrRef) (f : Found) (p : Plan) (e : Fail), s.found? r = some f → f.ctx.plan = some p →
     (∀ out, f.p.phase = .placed → f.ctx.phase ≠ .resetting → s.allAccepted f = true → s.itemsLeft r = false →
       s.waitHolds f = true → p.tensors[(productOf f.words).output]? = some out →
       s.product f p out (productOf f.words).output = .error e →
       (wOp f.words = 0x10 → exec (.mmFwd r) s = .next ((s.undefView r.ctx (out.view f.run.iter)).fault r.ctx f.path e)) ∧
       (wOp f.words = 0x11 → exec (.mmBwd r) s = .next ((s.undefView r.ctx (out.view f.run.iter)).fault r.ctx f.path e))) ∧
     (wOp f.words = 0x32 → f.p.phase = .issued → f.ctx.placing = true →
       (s.gateMissing f = .ok 0 ∧ s.optimise f p = .error e) ∨ s.gateMissing f = .error e → exec (.optimise r) s = .next ((s.optimiseFailed f p).fault r.ctx f.path e)))

/-- A fault of a context that is not in a reset (R98, R377, R384): it enters RESETTING, its ped shows the code, and no
byte of memory and no other context changes. A context that is RESETTING starts no second reset (R377). -/
def Obligations.FaultStartsAContextReset : Prop :=
  (∀ (s : State) (id path : Nat) (e : Fail) (c : Ctx), s.ctx? id = some c → c.phase ≠ .resetting →
     ∃ d x, (s.fault id path e).ctx? id = some d ∧ d.phase = .resetting ∧ (d.path path).fault = e.code ∧
       d.reset = some x ∧ x.cause = 2 ∧ x.start = s.now ∧ d.steps = c.steps ∧ d.counters = c.counters ∧
       d.plan = c.plan ∧ d.pages = c.pages ∧
       (s.fault id path e).mem = s.mem ∧ SameOthers id s (s.fault id path e) ∧ SameDevice s (s.fault id path e)) ∧
  (∀ (s : State) (id cause : Nat) (c : Ctx), s.ctx? id = some c → c.phase = .resetting → s.beginCtxReset id cause = s)

/-- A plan instruction reaches only its context's own pages (R222): whatever a vector, conversion, array, update or
copy instruction does, a byte outside the pages that its context has mapped or keeps snapshots in reads as before. -/
def Obligations.InstructionsStayInTheirWindow : Prop :=
  ∀ (s t : State) (r : InstrRef) (i : Instr) (a : Nat),
    i ∈ [.mmFwd r, .mmBwd r, .vecElt r, .vecRowred r, .rowstatFwd r, .rowstatBwd r, .dropout r, .initTensor r, .sample r,
      .clipSum r, .clipFinish r, .convert r, .optimise r, .copy r] →
    exec i s = .next t → (∀ c, s.ctx? r.ctx = some c → c.outside a) → memRead t.mem a = memRead s.mem a

/-- COPY within one page of a mapped writable destination (R283, R285), while no snapshot is being taken: the
destination holds the source's bytes, every other byte of memory reads as before, and the copy is executed. The
address of the destination is the one the window gives its first byte. -/
def Obligations.CopyMovesItsBytes : Prop :=
  ∀ (s : State) (r : InstrRef) (f : Found) (p : Plan) (data : List Byte) (a : Nat), s.found? r = some f →
    f.p.phase = .issued → wOp f.words = 0x40 → f.ctx.phase ≠ .resetting → s.engineStopped f = false →
    f.ctx.plan = some p → f.ctx.id = r.ctx →
    f.ctx.snap = none → s.copyBytes f.ctx (copySrc f.words) (copyLen f.words) = .ok data →
    data.length = copyLen f.words → 0 < copyLen f.words →
    copyDst f.words % pageSize + copyLen f.words ≤ pageSize → s.translate f.ctx (copyDst f.words) = some (a, true) →
    ∃ t g, exec (.copy r) s = .next t ∧ t.found? r = some g ∧ g.p.phase = .executed ∧
      (∀ i, i < copyLen f.words → memRead t.mem (a + i) = data.getD i 0) ∧
      (∀ b, b < a ∨ a + copyLen f.words ≤ b → memRead t.mem b = memRead s.mem b) ∧
      SameOthers r.ctx s t ∧ SameBase s t ∧ t.ports = s.ports ∧ t.sed = s.sed

/-- A store to a page that a snapshot still needs, and that holds no uncorrectable word, saves the page first (R237,
R244): the snapshot slot holds the page as it was, and the page is no longer pending. SNAPSHOT_FIRST_WRITE and
SNAPSHOT_DRAIN_PAGE (R237, R244, R247): a page without an uncorrectable word is no longer pending and a first write
counts a stall; the drain takes room in the context's share of a copy engine. A page with one fails the context. -/
def Obligations.SnapshotPagesAreSaved : Prop :=
  (∀ (s : State) (id off w : Nat) (c : Ctx) (sn : Snapshot) (m : PageMap) (d : Nat), s.ctx? id = some c →
     pageOf? off = some w → s.slotError id w = none → c.snap = some sn → sn.pending.contains w = true → sn.slots.contains w = true →
     c.pages.window.find? (fun m => m.win == w) = some m → c.pages.area[sn.slots.idxOf w]? = some d →
     (∀ i, i < pageSize → memRead (s.firstWrite id off).mem (pageAddr d + i) = memRead s.mem (pageAddr m.dev + i)) ∧
     (∀ b, b < pageAddr d ∨ pageAddr d + pageSize ≤ b → memRead (s.firstWrite id off).mem b = memRead s.mem b) ∧
     ∃ e, (s.firstWrite id off).ctx? id = some e ∧ ∀ q, e.snap = some q → q.pending.contains w = false) ∧
  (∀ (s : State) (id w : Nat) (c : Ctx) (sn : Snapshot), s.ctx? id = some c → c.snap = some sn →
     (∀ x, s.slotError id w = some x → sn.pending.contains w = true →
       exec (.snapshotFirstWrite id w) s = .next (s.fault id pkgPath x)) ∧
     (sn.pending.contains w = true → s.slotError id w = none → ∃ t e, exec (.snapshotFirstWrite id w) s = .next t ∧ t.ctx? id = some e ∧
       e.lgl.touches = satAdd 0xFFFFFFFF c.lgl.touches 1 ∧ e.counters = c.counters ∧ e.steps = c.steps ∧
       (∀ q, e.snap = some q → q.pending = sn.pending.filter (· != w))) ∧
     (sn.pending.head? = some w → c.phase ≠ .resetting → s.copyEngines.any (s.copyRoom c) = true → s.slotError id w = none →
       ∃ t e, exec (.snapshotDrainPage id) s = .next t ∧
       t = s.releaseSlot id w ∧ t.ctx? id = some e ∧ e.lgl.touches = c.lgl.touches ∧ e.counters = c.counters ∧
       (∀ q, e.snap = some q → q.pending = sn.pending.filter (· != w))))

/-- What completing does (R259, R262): outside a context reset every signal whose counters stay within 32 bits is
added, and the instruction is no longer in flight; in a context reset nothing is signalled (R377). A signal that would
pass 2^32 − 1 faults the context with COUNTER_OVERFLOW (0x4002, R262) and adds nothing. -/
def Obligations.CompletionSignalsOrFaults : Prop :=
  (∀ (s : State) (r : InstrRef) (f : Found), s.found? r = some f → f.p.upd = none →
     (f.ctx.phase = .resetting → ∃ c, (s.completeInstr r f).ctx? r.ctx = some c ∧ c.counters = f.ctx.counters) ∧
     (f.ctx.phase ≠ .resetting → f.ctx.fits (signalsOf f.words) → ∃ c, (s.completeInstr r f).ctx? r.ctx = some c ∧
       ∀ k, c.counter k = f.ctx.counter k + signalSum (signalsOf f.words) k) ∧
     (s.completeInstr r f).mem = s.mem ∧ SameDevice s (s.completeInstr r f) ∧ SameOthers r.ctx s (s.completeInstr r f)) ∧
  (∀ (s : State) (id path idx add : Nat) (c : Ctx), s.ctx? id = some c →
     (0xFFFFFFFF < c.counter idx + add → s.signal id path idx add = s.fault id path (Fail.mk' 0x4002 0)) ∧
     (c.counter idx + add ≤ 0xFFFFFFFF → ∃ d, (s.signal id path idx add).ctx? id = some d ∧
       d.counter idx = c.counter idx + add ∧ (∀ k, k ≠ idx → d.counter k = c.counter k) ∧
       d.phase = c.phase ∧ d.steps = c.steps))

/-- STEP_END and LOOP_END (R267, R286): the last instruction of the step in front retires and the step ends, and after
the boundary of an iteration LOOP_END decides whether the loop goes on. What a boundary leaves (R213, R267): unless
the context faults at it, the registers name the step and its position tag, the step is gone from those in flight, and
the context is READY when none is left. -/
def Obligations.StepAndLoopEndsEndTheStep : Prop :=
  (∀ (s : State) (r : InstrRef) (f : Found) (c : Ctx), s.found? r = some f →
     (s.completeInstr r f).ctx? r.ctx = some c → c.phase = .running →
     (s.endReady f 0x73 = true →
       exec (.stepEnd r) s = .next ((s.completeInstr r f).stepEnded r.ctx f.path).1) ∧
     (s.endReady f 0x74 = true → ((s.completeInstr r f).stepEnded r.ctx f.path).2 = true →
       exec (.loopEnd r) s = .next (((s.completeInstr r f).stepEnded r.ctx f.path).1.loopNext r.ctx f.path f.run
         ((f.ctx.plan.map fun p => p.arg (wLo f.words 4)).getD [])))) ∧
  (∀ (s : State) (id path : Nat) (degraded : Bool) (c d : Ctx) (run : StepRun) (rest : List StepRun) (p : Plan),
     s.ctx? id = some c → c.steps = run :: rest → c.plan = some p → c.phase = .running →
     (s.boundary id path degraded).ctx? id = some d → d.phase ≠ .resetting →
     d.spr.step = run.step ∧ d.spr.tag = run.tag ∧ d.steps = rest ∧ d.sieve.degraded = degraded ∧ d.sieve.lent = 0 ∧
       d.phase = (if rest.isEmpty then .ready else .running))

/-- INSTRUCTION_ACCEPT (R153, R155): a grain that may take its share of a product takes one work item for each panel
of the share, all under one accept stamp, and the instruction notes the grain, when the grain is active. `u` is the
state after the decision of R268. -/
def Obligations.AcceptQueuesTheShare : Prop :=
  ∀ (s u : State) (g : Nat) (r : InstrRef) (f : Found), u = s.decideEntry r → u.found? r = some f → isProduct f.words = true →
    f.p.phase = .placed → f.ctx.placing = true → f.ctx.entered f.run = true → f.ctx.eligibleHeld f.run f.words = false →
    (f.ctx.plan.any fun p => u.judgedHold p f.words f.path f.run.iter) = false → u.grainOk g = true →
    u.hasShare f g = true → f.p.accepted.contains g = false → u.queueOrder f g = true → u.active g = true →
    ∃ t h items, exec (.instructionAccept g r false) s = .next t ∧ t.found? r = some h ∧ h.p.accepted.contains g = true ∧
      (t.sched g).queue = (s.sched g).queue ++ items ∧ (t.sched g).accepts = (s.sched g).accepts + 1 ∧
      items.map Item.number = (List.range ((u.panelShare f g).2 - (u.panelShare f g).1)).map ((u.panelShare f g).1 + ·) ∧
      (∀ i ∈ items, i.ref = r ∧ i.stamp = (s.sched g).accepts + 1) ∧
      (∀ k, k ≠ g → t.sched k = s.sched k) ∧ t.mem = s.mem ∧ SameOthers r.ctx s t ∧ SameDevice s t

/-- ITEM_ENTER_WINDOW, ITEM_ISSUE and ITEM_COMPLETE (R156, R158, R161): the item whose turn it is enters a window that
has a free slot, a masked one whose mask word is 0 is skipped (R169), the oldest satisfied item leaves the window of
an active grain for a free array, and a finished item frees its array. No row of a grain's scheduler lets a window
pass its slots (R156): 8 in the forward window, 16 in the backward window. -/
def Obligations.ItemsMoveThroughTheGrain : Prop :=
  (∀ (s : State) (g : Nat) (i : Item) (f : Found),
     (∀ b, s.nextEntry g b = some i → s.found? i.ref = some f → f.maskOff i.number = none →
       (if b then (s.sched g).bwd.length < 16 else (s.sched g).fwd.length < 8) →
       ∃ t, exec (.itemEnterWindow g b) s = .next t ∧ t.ctxs = s.ctxs ∧ t.mem = s.mem ∧
         (if b then (t.sched g).bwd = (s.sched g).bwd ++ [i] ∧ (t.sched g).fwd = (s.sched g).fwd
          else (t.sched g).fwd = (s.sched g).fwd ++ [i] ∧ (t.sched g).bwd = (s.sched g).bwd)) ∧
     (∀ b off, s.nextEntry g b = some i → s.found? i.ref = some f → f.maskOff i.number = some off →
       s.rdNat f.ctx off 2 = .ok 0 →
       ∃ t, exec (.itemEnterWindow g b) s = .next t ∧ t.mem = s.mem ∧ (t.sched g).fwd = (s.sched g).fwd ∧
         (t.sched g).bwd = (s.sched g).bwd ∧ ∀ j ∈ (t.sched g).queue, ¬(j.ref = i.ref ∧ j.number = i.number)) ∧
     (∀ a, s.active g = true → s.nextIssue g a = some i → (a = 2 → s.nextIssue g 1 = none) →
       ∃ t, exec (.itemIssue g a) s = .next t ∧ t.ctxs = s.ctxs ∧ t.mem = s.mem ∧
         (t.sched g).running = (s.sched g).running ++ [(a, i, s.now)] ∧
         (∀ j ∈ (t.sched g).fwd ++ (t.sched g).bwd, ¬(j.ref = i.ref ∧ j.number = i.number))) ∧
     (∀ a, ((s.sched g).running.any fun r => r.1 == a) = true →
       ∃ t, exec (.itemComplete g a) s = .next t ∧ t.ctxs = s.ctxs ∧ t.mem = s.mem ∧
         (t.sched g).running = (s.sched g).running.filter (fun r => r.1 != a) ∧
         (t.sched g).fwd = (s.sched g).fwd ∧ (t.sched g).bwd = (s.sched g).bwd)) ∧
  (∀ (s t : State) (g h a : Nat) (b : Bool) (r : InstrRef) (i : Instr),
     i ∈ [.itemEnterWindow g b, .itemIssue g a, .itemComplete g a, .instructionAccept g r b] → exec i s = .next t →
     (s.sched h).fwd.length ≤ 8 → (s.sched h).bwd.length ≤ 16 →
     (t.sched h).fwd.length ≤ 8 ∧ (t.sched h).bwd.length ≤ 16)

/-- A free array of an active grain issues the oldest satisfied item in its window that it may run, by the stamp and,
within one instruction, the item number (R158, with R155's meaning of older); backward array 1 runs no item with bsel
0b01, backward array 0 none with 0b10, and while both are free backward array 0 chooses first. -/
def Obligations.ArraysIssueTheOldestItem : Prop :=
  ∀ (s : State) (g a : Nat) (i : Item), s.nextIssue g a = some i → (a = 2 → s.nextIssue g 1 = none) →
    (s.active g = true → ∃ t, exec (.itemIssue g a) s = .next t ∧ (a, i, s.now) ∈ (t.sched g).running) ∧
    i ∈ (s.sched g).window a ∧ i.runsOn a = true ∧ s.satisfied i = true ∧
    (a = 1 → i.bsel ≠ 0b10) ∧ (a = 2 → i.bsel ≠ 0b01) ∧
    (∀ j ∈ (s.sched g).window a, j.runsOn a = true → s.satisfied j = true →
      (s.ctx? j.ref.ctx).any Ctx.placing = true →
      i.stamp ≤ j.stamp ∧ (i.stamp = j.stamp → i.ref = j.ref → i.number ≤ j.number)) ∧
    (∀ k u, s.nextIssue g 1 = some k → exec (.itemIssue g 2) s = .next u → u = s)

/-- COPY_PORT (R312, R313): on an UP port with a matched binding the message waits to be sent on the data VC; on a
port that is not UP the copy ends at once. -/
def Obligations.PortCopyIsSentOrEnds : Prop :=
  ∀ (s : State) (r : InstrRef) (f : Found) (q : Port) (b : Binding) (data : List Byte), s.found? r = some f →
    wOp f.words = 0x44 → f.p.phase = .issued → s.engineStopped f = false → s.port? (copyPortOf f.words) = some q →
    (q.phase ≠ .up → exec (.copyPort r) s = .next (s.copyEnded r (copyPortOf f.words))) ∧
    (q.phase = .up → f.ctx.lowestBinding (copyPortOf f.words) = some b →
      (s.partnerOf (copyPortOf f.words) b.number).isSome = true →
      s.copyBytes f.ctx (copySrc f.words) (portLines f.words * 64) = .ok data →
      ∃ t g m, exec (.copyPort r) s = .next t ∧ t.found? r = some g ∧ g.p.phase = .executed ∧
        t.port? (copyPortOf f.words) = some m ∧
        m.link.waiting = q.link.waiting ++ [{ vc := 0, bind := b.number, started := false, since := s.now, peer := none,
                                              bytes := copyMessage f.words r.step data }] ∧
        t.mem = s.mem ∧ SameOthers r.ctx s t ∧ SameOtherPorts (copyPortOf f.words) s t ∧ SameBase s t)

/-- PROMOTE of an object at home (R231, R232): with pool pages for it and no promote queued a fill starts that the
promote waits for; without pages COMMONS_POOL_WAIT is logged and the promote queues, and behind a queue it queues too.
Memory is as before. EVICT and SEAL (R229, R231): a context gives up a residency it holds, and COMMONS_UNHELD faults
one that does not; SEAL makes an object of a table entry whose home pages are all mapped. COMMONS_FILL_DONE and
COMMONS_DRAIN_DONE (R231): a fill without an uncorrectable word copies the home pages to the resident ones and ends
RESIDENT, or DRAINING when nobody holds the object any more; a drain ends at HOME once no read of the resident image
is in flight (R233). No restored context lacks residency here. -/
def Obligations.CommonsObjectsMoveThroughTheirStates : Prop :=
  (∀ (s : State) (r : InstrRef) (f : Found) (o : CommonsObj) (got : List Nat) (missing : Nat), s.found? r = some f →
     f.p.phase = .issued → wOp f.words = 0x41 → s.engineStopped f = false → s.object? (wLo f.words 4 % 4096) = some o →
     o.holders.contains r.ctx = false → o.phase = .home →
     placePages o.entry.places (s.poolFree o.owner) = (got, missing) →
     (missing = 0 → s.arbiter.queue = [] → ∃ t p g, exec (.promote r) s = .next t ∧ t.object? (wLo f.words 4 % 4096) = some p ∧
       p.phase = .filling ∧ p.holders = [r.ctx] ∧ p.waiters = [r] ∧ p.resident = got ∧ p.home = o.home ∧
       t.found? r = some g ∧ g.p.phase = .executed ∧ t.mem = s.mem ∧ SameOthers r.ctx s t ∧ SameDevice s t) ∧
     (missing = 0 → s.arbiter.queue ≠ [] → ∃ t, exec (.promote r) s = .next t ∧ r ∈ t.arbiter.queue ∧
       t.object? (wLo f.words 4 % 4096) = some o ∧ t.sed = s.sed ∧ t.mem = s.mem ∧ SameDevice s t) ∧
     (0 < missing → ∃ t, exec (.promote r) s = .next t ∧ r ∈ t.arbiter.queue ∧
       t.object? (wLo f.words 4 % 4096) = some o ∧
       t.sed.bus = s.sed.bus ++ [{ code := 0x2303, detail := min missing 0xFFFF, src := 0x400, ctx := r.ctx, words := [] }] ∧
       t.mem = s.mem ∧ SameDevice s t)) ∧
  (∀ (s : State) (r : InstrRef) (f : Found), s.found? r = some f → f.p.phase = .issued → s.engineStopped f = false →
     (wOp f.words = 0x42 → ∀ o, s.object? (wLo f.words 4 % 4096) = some o →
       (o.holders.contains r.ctx = true →
         exec (.evict r) s = .next ((s.dropResidency r.ctx (wLo f.words 4 % 4096)).completeInstr r f) ∧
         ∃ p, (s.dropResidency r.ctx (wLo f.words 4 % 4096)).object? (wLo f.words 4 % 4096) = some p ∧
           p.holders = o.holders.filter (· != r.ctx) ∧
           (p.holders = [] → o.phase = .resident → p.phase = .draining)) ∧
       (o.holders.contains r.ctx = false → exec (.evict r) s = .next (s.fault r.ctx f.path (Fail.mk' 0x2302 0)))) ∧
     (wOp f.words = 0x43 → ∀ e home, (f.ctx.plan.bind fun p => p.commons.find? fun e => e.id == wLo f.words 4 % 4096) = some e →
       home = (List.range e.size).filterMap (fun j =>
         (f.ctx.pages.window.find? fun m => m.win == 16384 + e.home + j).map PageMap.dev) →
       home.length = e.size → s.object? (wLo f.words 4 % 4096) = none →
       ∃ t o, exec (.sealObject r) s = .next t ∧ t.object? e.id = some o ∧ o.owner = r.ctx ∧ o.home = home ∧
         o.phase = .home ∧ o.holders = [] ∧ t.mem = s.mem)) ∧
  (∀ (s u : State) (o : CommonsObj) (obj : Nat), s.object? obj = some o → (∀ c ∈ s.ctxs, c.owed = []) →
     (o.phase = .filling → s.fill o = .ok u →
       ∃ t p, exec (.commonsFillDone obj) s = .next t ∧ t.object? obj = some p ∧ p.waiters = [] ∧
         p.phase = (if o.holders.isEmpty then .draining else .resident) ∧ p.holders = o.holders ∧
         t.mem = (o.home.zip o.resident).foldl (fun m p => memCopyPage m p.1 p.2) s.mem ∧ SameBase s t ∧
         t.ports = s.ports ∧ t.resets = s.resets) ∧
     (o.phase = .draining → s.readInFlight o = true → exec (.commonsDrainDone obj) s = .next s) ∧
     (o.phase = .draining → s.readInFlight o = false → s.arbiter.queue = [] →
       ∃ t p, exec (.commonsDrainDone obj) s = .next t ∧ t.object? obj = some p ∧ p.phase = .home ∧ p.resident = [] ∧
         t.mem = s.mem ∧ t.ctxs = s.ctxs ∧ SameDevice s t))

/-- ALL_REDUCE, REDUCE_SCATTER, ALL_GATHER and RING_PASS (R314, R316, R318, R320): issued in a context that places
instructions, the member sends and writes what it must and takes the messages that came early. A collective with fewer
members than its group minus the budget holds the context (R319) with COLL_UNDERSIZED (0x3203) as cause, and moves
nothing. COLL_MESSAGE_RECEIVE (R313, R315): a context that is receiving takes the message, any other discards it and
counts it in RIN_DROP. -/
def Obligations.CollectivesStartAndReceive : Prop :=
  (∀ (s u : State) (r : InstrRef) (f : Found) (e : CollEnv), s.found? r = some f → f.p.phase = .issued →
     f.ctx.placing = true → f.collEnv = some e → s.collBegin e r false = .ok u →
     (wOp f.words = 0x60 → exec (.allReduce r) s = .next (u.collEarly r.ctx)) ∧
     (wOp f.words = 0x61 → exec (.reduceScatter r) s = .next (u.collEarly r.ctx)) ∧
     (wOp f.words = 0x62 → exec (.allGather r) s = .next (u.collEarly r.ctx)) ∧
     (wOp f.words = 0x63 → exec (.ringPass r) s = .next (u.collEarly r.ctx))) ∧
  (∀ (s : State) (r : InstrRef) (f : Found) (e : CollEnv), s.found? r = some f → f.p.phase = .issued →
     f.ctx.placing = true → f.collEnv = some e → wOp f.words = 0x60 → f.ctx.early = [] →
     e.eff.testBit (e.g.groupOf e.g.rank) = true → e.mode ≠ .ring → e.present.length < e.g.size - e.g.budget →
     ∃ t c, exec (.allReduce r) s = .next t ∧ t.ctx? r.ctx = some c ∧ c.phase = .held ∧ c.lgl.heldCode = 0x3203 ∧
       c.lgl.heldDetail = e.g.serial ∧ c.counters = f.ctx.counters ∧ t.mem = s.mem ∧ SameOthers r.ctx s t ∧ SameDevice s t) ∧
  (∀ (s : State) (p num : Nat) (m : CollMsg) (c : Ctx) (b : Binding), s.bindingAt p num = some (c, b) →
     s.ctx? c.id = some c →
     (c.receiving = true → exec (.collMessageReceive p num m) s = .next (s.collDeliver c m)) ∧
     (c.receiving = false → ∃ t d, exec (.collMessageReceive p num m) s = .next t ∧ t.ctx? c.id = some d ∧
       d.syn.drop = satAdd 0xFFFFFFFF c.syn.drop 1 ∧ d.steps = c.steps ∧ d.counters = c.counters ∧ t.mem = s.mem ∧
       SameOthers c.id s t ∧ SameDevice s t ∧ t.sed = s.sed))

/-- WAIT_TIMEOUT, COLL_TIMEOUT and UPDATE_STALL (R181, R264, R321): a wait that has lasted too long holds the context
and names what it waited for; a stalled update is counted once and goes on waiting. -/
def Obligations.TimeoutsHoldTheContext : Prop :=
  ∀ (s : State) (r : InstrRef) (f : Found), s.found? r = some f →
    (∀ ref, s.waitingOn f r = some ref → s.arbiter.queue.contains r = false →
      ∃ t c, exec (.waitTimeout r) s = .next t ∧ t.ctx? r.ctx = some c ∧ c.phase = .held ∧ c.syn.timedOut = true ∧
        c.syn.ref = ref ∧ c.lgl.heldCode = 0x4003 ∧ c.lgl.heldDetail = ref % 65536 ∧ c.counters = f.ctx.counters ∧
        t.mem = s.mem ∧ SameBase s t) ∧
    (∀ k e, f.coll? = some k → f.collEnv = some e → f.ctx.phase = .running → f.ctx.holdAsked = false →
      ∃ t c, exec (.collTimeout r) s = .next t ∧ t.ctx? r.ctx = some c ∧ c.phase = .held ∧
        c.syn.collTimedOut = true ∧ c.syn.serial = e.g.serial ∧ c.lgl.heldCode = 0x3201 ∧
        c.lgl.heldDetail = e.g.serial ∧ c.counters = f.ctx.counters ∧ t.mem = s.mem ∧ SameBase s t) ∧
    (∀ due missing, f.p.gateDue = some due → s.gateMissing f = .ok missing → 0 < missing → f.p.phase = .issued →
      wOp f.words = 0x32 → f.p.stalled = false → f.ctx.placing = true → due - f.p.issuedAt < f.ctx.waitUs →
      ∃ t c, exec (.updateStall r) s = .next t ∧ t.ctx? r.ctx = some c ∧
        c.upd.stalls = satAdd 0xFFFF f.ctx.upd.stalls 1 ∧ c.counters = f.ctx.counters ∧ SameBase s t)

/-- HELLO on a connection that carries no session (R329, R341): it opens the lowest free session with the connection's
roles and identity, and is answered OK; no context and no byte of memory changes. HELLO with claim 1 (R341): every
context of the client's identity that has no orchestrating session gets this one. -/
def Obligations.HelloOpensASessionAndClaims : Prop :=
  (∀ (s : State) (sl : Slot) (k : Conn) (id : Nat), s.serving sl.conn = true → s.sessionOf sl.conn = none →
     s.conn? sl.conn = some k → sl.formOk = true → sl.headerOk = true → sl.cmd = 1 → sl.seq = 0 → s.freeSession = some id → sl.len = 0 →
     sl.w 4 = 1 → sl.w 5 = 0 →
     ∃ t x, exec (.hello sl) s = .next t ∧ t.session? id = some x ∧ x.hello = true ∧ x.roles = k.roles ∧
       x.identity = k.identity ∧ x.conn = k.id ∧ x.nextSeq = 1 ∧ t.responded id sl 0 ∧ t.ctxs = s.ctxs ∧ t.mem = s.mem) ∧
  (∀ (s : State) (sl : Slot) (se : Session) (c : Ctx), Accepted s sl se → sl.cmd = 1 → sl.len = 0 → sl.w 4 = 1 →
     sl.w 5 = 1 → s.ctx? c.id = some c → c.config.owner = se.identity → c.session = none →
     ∃ t d, exec (.hello sl) s = .next t ∧ t.ctx? c.id = some d ∧ d.session = some se.id ∧ d.phase = c.phase ∧
       d.counters = c.counters ∧ t.responded se.id sl 0 ∧ t.mem = s.mem)

/-- ADMIT (R343): the lowest free id becomes an ADMITTED context of the client with the class, timeout and seed of the
command; every other context and memory are as before. ADMIT when all 64 ids are taken (R343): NO_CAPACITY (0x2001),
and no context changes. -/
def Obligations.AdmitMakesAContextOrIsRefused : Prop :=
  (∀ (s : State) (sl : Slot) (se : Session) (id : Nat), Accepted s sl se → sl.cmd = 0x10 → sl.len = 32 → sl.w 4 < 32 →
     bitOf (sl.w 4) 1 = false → bitOf (sl.w 4) 4 = false → sl.w 5 ≤ 10000 →
     lowestBelow 64 (fun i => (s.ctx? i).isNone) = some id →
     ∃ t c, exec (.admitCtx sl) s = .next t ∧ t.ctx? id = some c ∧ c.phase = .admitted ∧ c.config.owner = se.identity ∧
       c.config.seed = sl.payload ∧ c.config.reference = bitOf (sl.w 4) 0 ∧
       c.config.hangMs = (if sl.w 5 = 0 then 250 else sl.w 5) ∧ c.session = some se.id ∧ c.counters = [] ∧
       t.responded se.id sl 0 ∧ t.mem = s.mem ∧ SameOthers id s t ∧ t.ports = s.ports ∧ t.flash = s.flash) ∧
  (∀ (s : State) (sl : Slot) (se : Session), Accepted s sl se → sl.cmd = 0x10 → sl.len = 32 → sl.w 4 < 32 →
     bitOf (sl.w 4) 1 = false → bitOf (sl.w 4) 4 = false → sl.w 5 ≤ 10000 →
     (∀ i, i < 64 → (s.ctx? i).isSome = true) →
     ∃ t, exec (.admitCtx sl) s = .next t ∧ t.responded se.id sl 0x2001 ∧ t.ctxs = s.ctxs ∧ t.mem = s.mem)

/-- RESERVE of a request that is in range, fits and waits for no die (R225, R344, R345): the context holds the grown
reservation and its bindings, an ADMITTED context becomes RESERVED, and no other context changes. -/
def Obligations.ReserveGrantsTheRequest : Prop :=
  ∀ (s u : State) (sl : Slot) (se : Session) (c : Ctx) (q : Request) (mine : Resv) (bs : List Binding),
    Accepted s sl se → sl.cmd = 0x11 → u = s.advanceSeq se.id sl → u.ctx? (sl.w 4 % 256) = some c →
    q = parseRequest sl.payload → mine = Resv.grow c.resv q.resv →
    792 ≤ sl.len → sl.len = 792 + 16 * leAt sl.payload 788 4 → sl.ctxOk = true → sl.w 5 < 2 →
    q.argsOk c.config.commonsOwner mine = true → u.reserveWaits sl = false →
    u.misfit (u.ctxs.filter fun x => x.id != c.id) mine = none →
    u.bindAll (u.ctxs.filter fun x => x.id != c.id) c.bindings q.ports = some bs →
    ∃ t d, exec (.reserve sl) s = .next t ∧ t.ctx? c.id = some d ∧ d.resv = mine ∧ d.bindings = bs ∧
      d.phase = (if c.phase = .admitted then .reserved else c.phase) ∧ d.counters = c.counters ∧
      SameOthers c.id s t ∧ t.mem = s.mem ∧ t.flash = s.flash

/-- RELEASE (R346): an ADMITTED, RESERVED or READY context is gone at once and its id is free; a RUNNING or HELD one
first takes a context reset that is part of the release. -/
def Obligations.ReleaseEndsTheContext : Prop :=
  ∀ (s : State) (sl : Slot) (se : Session) (c : Ctx), Accepted s sl se → sl.cmd = 0x12 → sl.len = 0 →
    sl.ctxOk = true → s.ctx? (sl.w 4 % 256) = some c → (s.advanceSeq se.id sl).commonsBusy c.id = false →
    (c.phase = .admitted ∨ c.phase = .reserved ∨ c.phase = .ready →
      ∃ t, exec (.release sl) s = .next t ∧ t.ctx? c.id = none) ∧
    (c.phase = .running ∨ c.phase = .held →
      ∃ t d x, exec (.release sl) s = .next t ∧ t.ctx? c.id = some d ∧ d.phase = .resetting ∧ d.reset = some x ∧
        x.release = true ∧ d.resv = c.resv ∧ t.mem = s.mem ∧ SameOthers c.id s t)

/-- ATTACH_COMMONS and DETACH_COMMONS with their grants (R347, R348): a permitted attach adds the object and a detach
takes it away; a grant names the identity on the object and a revocation removes it. -/
def Obligations.CommonsCommandsComplete : Prop :=
  ∀ (s : State) (sl : Slot) (se : Session) (c : Ctx) (o : CommonsObj), Accepted s sl se →
    s.ctx? (sl.w 4 % 256) = some c → s.object? (sl.w 5) = some o →
    (sl.cmd = 0x13 → bitOf (sl.w 6) 0 = false → Slot.commonsArgs sl 0 = none →
      c.attached.contains o.entry.id = false → (o.owner = c.id ∨ o.grants.contains c.config.owner = true) →
      ∃ t d, exec (.attachCommons sl) s = .next t ∧ t.ctx? c.id = some d ∧ d.attached = c.attached ++ [o.entry.id] ∧
        t.responded se.id sl 0 ∧ t.mem = s.mem ∧ SameOthers c.id s t) ∧
    (sl.cmd = 0x13 → bitOf (sl.w 6) 0 = true → Slot.commonsArgs sl 16 = none → o.owner = sl.w 4 % 256 →
      ∃ t p, exec (.attachCommonsGrant sl) s = .next t ∧ t.object? (sl.w 5) = some p ∧
        p.grants.contains (payloadIdentity sl) = true ∧ t.responded se.id sl 0 ∧ t.ctxs = s.ctxs ∧ t.mem = s.mem) ∧
    (sl.cmd = 0x14 → bitOf (sl.w 6) 0 = false → Slot.commonsArgs sl 0 = none →
      ∃ t d, exec (.detachCommons sl) s = .next t ∧ t.ctx? c.id = some d ∧ d.attached.contains (sl.w 5) = false ∧
        t.responded se.id sl 0 ∧ t.mem = s.mem ∧ SameOthers c.id s t) ∧
    (sl.cmd = 0x14 → bitOf (sl.w 6) 0 = true → Slot.commonsArgs sl 16 = none → o.owner = sl.w 4 % 256 →
      ∃ t p, exec (.detachCommonsRevoke sl) s = .next t ∧ t.object? (sl.w 5) = some p ∧
        p.grants.contains (payloadIdentity sl) = false ∧ t.responded se.id sl 0 ∧ t.ctxs = s.ctxs ∧ t.mem = s.mem)

/-- A command that the checks of orders 2 to 6 refuse (R335, R338) changes no context, no memory, no port, no flash,
no boot state, no reset and no commons object. -/
def Obligations.RefusedCommandsChangeNothing : Prop :=
  ∀ (s : State) (se : Session) (c : Instr) (sl : Slot) (run : State → State) (st d : Nat),
    s.verdict se sl = .refuse st d → s.session? se.id = some se →
    (s.execute se c sl run).responded se.id sl st ∧ (s.execute se c sl run).ctxs = s.ctxs ∧
      (s.execute se c sl run).mem = s.mem ∧ (s.execute se c sl run).ports = s.ports ∧
      (s.execute se c sl run).flash = s.flash ∧ (s.execute se c sl run).boot = s.boot ∧
      (s.execute se c sl run).resets = s.resets ∧ (s.execute se c sl run).arbiter = s.arbiter ∧
      (s.execute se c sl run).pending = s.pending ∧ (s.execute se c sl run).bg = s.bg

/-- What a session may command (R327, R340): without the operator role no firmware, log, dump or power command passes
the checks, and without the tenant role no command on a context but RELEASE, RESET_REQ and the queries. -/
def Obligations.RolesLimitCommands : Prop :=
  ∀ (s : State) (se : Session) (sl : Slot), s.verdict se sl = .go →
    (sl.cmd ∈ [0x60, 0x61, 0x62, 0x63, 0x70, 0x71, 0x81] → se.roles.getLsbD 2 = true) ∧
    (sl.cmd ∈ [0x10, 0x11, 0x13, 0x14, 0x20, 0x21, 0x30, 0x31, 0x32, 0x40, 0x41, 0x42] → se.roles.getLsbD 0 = true) ∧
    (∀ c, sl.named = some c → ∃ d, s.ctx? c = some d ∧ (d.config.owner = se.identity ∨ se.roles.getLsbD 2 = true))

/-- LOAD_PLAN completes (R253, R349): in a session that may command the context, with the arguments of R349, an image
that lies in mapped subsoil pages whose bytes can be read, that passes the checks of R253 and the rules of R349, is
installed: the context holds the plan, is READY at the plan's first step with no step in flight and every counter 0
(R254), and the command is answered OK. An image that fails a check is answered with its code, and no context and no
byte of memory changes. -/
def Obligations.LoadPlanInstallsOrRefuses : Prop :=
  ∀ (s u : State) (sl : Slot) (se : Session) (c : Ctx), Accepted s sl se → sl.cmd = 0x20 → u = s.advanceSeq se.id sl →
    u.ctx? (sl.w 4 % 256) = some c → sl.len = 0 → sl.ctxOk = true → sl.w 6 < 65536 → sl.w 7 ≠ 0 →
    sl.w48 5 % 64 = 0 → sl.w 7 % 64 = 0 →
    (∀ p image, subsoilRange c.mappedPage (sl.w48 5) (sl.w 7) = true → u.rdBytes c (sl.w48 5) (sl.w 7) = .ok image →
      u.checkPlan c (sl.w48 5) image = .ok p → State.imageRules c p = none →
      ∃ t d, exec (.loadPlan sl) s = .next t ∧ t = (u.acceptPlan c.id p).ok se.id sl ∧ t.ctx? c.id = some d ∧
        d.plan = some p ∧ d.phase = .ready ∧ d.lgl.nextStep = p.nFirst ∧ d.steps = [] ∧ d.counters = [] ∧
        t.responded se.id sl 0 ∧ SameOthers c.id s t) ∧
    (∀ e, u.offered c (sl.w48 5) (sl.w 7) = .error e →
      ∃ t, exec (.loadPlan sl) s = .next t ∧ t.responded se.id sl e.bad.1 ∧ t.ctxs = s.ctxs ∧ t.mem = s.mem)

/-- BIND_DATA (R350): an open that passes its checks gives the session a handle with the range it named; a close of an
open-out gives the handle up; no context and no byte of memory changes. -/
def Obligations.BulkHandlesOpenAndClose : Prop :=
  ∀ (s u : State) (sl : Slot) (se : Session) (c : Ctx), Accepted s sl se → sl.cmd = 0x21 → u = s.advanceSeq se.id sl →
    u.ctx? (sl.w 4 % 256) = some c →
    (∀ h, sl.w 5 % 4 = 0 → u.openChecks sl se c = .ok h →
      ∃ t x, exec (.bindDataOpenIn sl) s = .next t ∧ t.session? se.id = some x ∧
        x.handles = se.handles ++ [{ h with id := s.ligil.nextHandle % 2 ^ 32 }] ∧ t.responded se.id sl 0 ∧
        t.ctxs = s.ctxs ∧ t.mem = s.mem) ∧
    (∀ h data, sl.w 5 % 4 = 1 → u.openChecks sl se c = .ok h → u.handleBytes h = .ok data →
      ∃ t x, exec (.bindDataOpenOut sl) s = .next t ∧ t.session? se.id = some x ∧
        x.handles = se.handles ++ [{ h with id := s.ligil.nextHandle % 2 ^ 32 }] ∧ t.responded se.id sl 0 ∧
        t.ligil.frames = s.ligil.frames ++ bulkFrames (s.ligil.nextHandle % 2 ^ 32) data ∧
        t.ctxs = s.ctxs ∧ t.mem = s.mem) ∧
    (∀ h, sl.w 5 % 4 = 2 → sl.len = 0 → sl.ctxOk = true → sl.w 5 < 8 →
      se.handles.find? (fun h => h.id == sl.w 10 && h.ctx == c.id && !h.exporting) = some h → h.inward = false →
      ∃ t x, exec (.bindDataClose sl) s = .next t ∧ t.session? se.id = some x ∧
        x.handles = se.handles.filter (fun k => k.id != h.id) ∧ t.responded se.id sl 0 ∧
        t.ctxs = s.ctxs ∧ t.mem = s.mem) ∧
    (∀ h data, sl.w 5 % 4 = 2 → sl.len = 0 → sl.ctxOk = true → sl.w 5 < 8 →
      se.handles.find? (fun h => h.id == sl.w 10 && h.ctx == c.id && !h.exporting) = some h → h.inward = true →
      sl.w 12 < 2 ^ 18 → u.handleBytes h = .ok data →
      (crc32c data = sl.w 11 → sl.w 12 < 2 ^ 17 → ∃ t x, exec (.bindDataClose sl) s = .next t ∧
        t.session? se.id = some x ∧ x.handles = se.handles.filter (fun k => k.id != h.id) ∧ t.responded se.id sl 0 ∧
        t.ctxs = s.ctxs ∧ t.mem = s.mem) ∧
      (crc32c data = sl.w 11 → 2 ^ 17 ≤ sl.w 12 → c.hasCounter (sl.w 12 % 2 ^ 17) = true →
        c.counter (sl.w 12 % 2 ^ 17) < 0xFFFFFFFF → ∃ t d, exec (.bindDataClose sl) s = .next t ∧
        t.ctx? c.id = some d ∧ d.counter (sl.w 12 % 2 ^ 17) = c.counter (sl.w 12 % 2 ^ 17) + 1 ∧
        (∀ k, k ≠ sl.w 12 % 2 ^ 17 → d.counter k = c.counter k) ∧ t.responded se.id sl 0 ∧ SameOthers c.id s t ∧
        t.mem = s.mem) ∧
      (crc32c data ≠ sl.w 11 → sl.w 12 < 2 ^ 17 → ∃ t, exec (.bindDataClose sl) s = .next t ∧
        t.responded se.id sl 0x2501 ∧ (∀ x ∈ t.ligil.sessions, x.id = se.id → ∀ k ∈ x.handles, k.id ≠ h.id) ∧
        t.ports = s.ports ∧ t.flash = s.flash))

/-- The frames of a read carry the range, in order and in parts of at most 65,536 bytes (R350). BULK_FRAME (R333,
R350): the bytes of a well-formed frame within its handle's range are written; a malformed frame, one beyond its range
and one that no open-in expects are protocol errors. -/
def Obligations.BulkFramesCarryRanges : Prop :=
  (∀ (h : Nat) (data : List Byte), (bulkFrames h data).flatMap BulkOut.data = data ∧
     ∀ f ∈ bulkFrames h data, f.handle = h ∧ f.data.length ≤ 65536 ∧ f.data ≠ [] ∧ f.offset % 65536 = 0) ∧
  (∀ (s u : State) (conn : Nat) (b : BulkHead) (head : FrameHead) (data : List Byte) (se : Session) (h : Handle) (c : Ctx),
     s.frontStopped conn = false → s.sessionOf conn = some se →
     (se.handles.find? (fun h => h.id == b.handle && h.inward) = some h → s.ctx? h.ctx = some c →
       bulkOk conn head b data = true → b.offset + data.length ≤ h.length → h.area = false →
       s.wrBytes c.id (h.start + b.offset) data = .ok u → exec (.bulkFrame conn head b data) s = .next u) ∧
     (se.handles.find? (fun h => h.id == b.handle && h.inward) = some h → s.ctx? h.ctx = some c →
       bulkOk conn head b data = false ∨ h.length < b.offset + data.length →
       exec (.bulkFrame conn head b data) s = .next (s.protocolError conn)) ∧
     (se.handles.find? (fun h => h.id == b.handle && h.inward) = none → conn = 0 ∨ (s.conn? conn).isSome = true →
       exec (.bulkFrame conn head b data) s = .next (s.protocolError conn)))

/-- RUN_STEP (R351): with the right arguments, the number the context expects and room for a step, the step is placed,
the context is RUNNING and every instruction of the plan waits to be issued; a wrong number is STEP_NUMBER and places
none. In a generation plan the step is the iteration that it is from n_first on (R286), and one that has no row of a
grow tensor left is answered and places none (the model's choice, log entry 152). -/
def Obligations.RunStepPlacesTheStep : Prop :=
  ∀ (s u : State) (sl : Slot) (se : Session) (c : Ctx) (p : Plan), Accepted s sl se → sl.cmd = 0x30 →
    u = s.advanceSeq se.id sl → u.ctx? (sl.w 4 % 256) = some c → c.plan = some p → sl.len = 0 → sl.ctxOk = true →
    sl.w 6 < 65536 → ((p.kind == 2) == (sl.w 9 == 0)) = false →
    (sl.w48 5 = c.lgl.nextStep → (p.kind = 2 → c.phase ≠ .running) → (p.kind ≠ 2 → c.steps.length < 2) →
      (p.kind = 2 → p.growPast (p.iteration (sl.w48 5)) = false) →
      ∃ t d run, exec (.runStep sl) s = .next t ∧ t.ctx? c.id = some d ∧ d.phase = .running ∧ run ∈ d.steps ∧
        run = p.place (sl.w48 5) (sl.w64 7) s.now (p.iteration (sl.w48 5)) (p.iteration (sl.w48 5)) (sl.w 9) ∧
        d.steps.length = c.steps.length + 1 ∧ (p.kind ≠ 2 → d.lgl.nextStep = sl.w48 5 + 1) ∧ t.responded se.id sl 0 ∧
        (c.steps ≠ [] ∨ c.sieve.grantStep = some (sl.w48 5) → t.mem = s.mem) ∧ SameOthers c.id s t) ∧
    (sl.w48 5 = c.lgl.nextStep → p.kind = 2 → c.phase ≠ .running → p.growPast (p.iteration (sl.w48 5)) = true →
      ∃ t d, exec (.runStep sl) s = .next t ∧ t.responded se.id sl 0 ∧ t.ctx? c.id = some d ∧ d.steps = c.steps ∧
        d.phase = c.phase ∧ t.mem = s.mem) ∧
    (sl.w48 5 ≠ c.lgl.nextStep →
      ∃ t, exec (.runStep sl) s = .next t ∧ t.responded se.id sl 0x4404 ∧ t.ctxs = s.ctxs ∧ t.mem = s.mem)

/-- HOLD and HOLD_COMPLETE (R352): a HOLD asks the context to stop and waits for its answer; the context is HELD once
nothing of it runs, with its instructions in place. RESUME (R353, R337): with no new mask and no discards a HELD
context runs on where it stopped, its position confirmed; one whose position the command does not confirm stays HELD
with RESTORE_POSITION_MISMATCH (0x4301); a new mask or discards are applied before it runs on. No restored context
lacks residency in the second clause. -/
def Obligations.HoldAndResumeAct : Prop :=
  (∀ (s : State) (c : Ctx),
     (∀ (sl : Slot) (se : Session), Accepted s sl se → sl.cmd = 0x31 → s.ctx? (sl.w 4 % 256) = some c → sl.len = 0 →
       sl.ctxOk = true → c.phase ≠ .held →
       ∃ t d x, exec (.hold sl) s = .next t ∧ t.ctx? c.id = some d ∧ d.holdAsked = true ∧ d.phase = c.phase ∧
         d.steps = c.steps ∧ t.session? se.id = some x ∧ (Busy.hold c.id, sl) ∈ x.busy ∧ t.mem = s.mem) ∧
     (∀ id, s.ctx? id = some c → c.holdAsked = true → (c.phase = .running ∨ c.phase = .ready) →
       s.anyRuns c = false → (c.phase = .running → (c.plan.any fun p => p.kind == 2) = false) →
       ∃ t d, exec (.holdComplete id) s = .next t ∧ t.ctx? id = some d ∧ d.phase = .held ∧ d.holdAsked = false ∧
         d.lgl.heldCode = 0x0031 ∧ d.steps = c.steps ∧ d.counters = c.counters ∧ t.mem = s.mem)) ∧
  (∀ (s : State) (sl : Slot) (se : Session) (c : Ctx), Accepted s sl se → sl.cmd = 0x32 →
     s.ctx? (sl.w 4 % 256) = some c → Slot.resumeBad sl = none →
     ((c.spr.posWait = true → bitOf (sl.w 5) 0 = true ∧ sl.w64 6 = c.spr.tag) →
       (bitOf (sl.w 5) 1 = true → c.steps ≠ []) →
       exec (.resume sl) s = .next (((s.advanceSeq se.id sl).resumed sl c).ok se.id sl)) ∧
     (bitOf (sl.w 5) 1 = false → bitOf (sl.w 5) 2 = false → c.heldDegraded = false →
       (c.spr.posWait = true → bitOf (sl.w 5) 0 = true ∧ sl.w64 6 = c.spr.tag) → (∀ x ∈ s.ctxs, x.owed = []) →
       ∃ t d, exec (.resume sl) s = .next t ∧ t.ctx? c.id = some d ∧
         d.phase = (if !c.steps.isEmpty then .running else if c.plan.isSome then .ready
           else if c.resv == .empty && c.bindings.isEmpty then .admitted else .reserved) ∧
         d.spr.posWait = false ∧ d.steps.map StepRun.step = c.steps.map StepRun.step ∧ d.counters = c.counters ∧
         t.responded se.id sl 0 ∧ t.mem = s.mem ∧ SameOthers c.id s t) ∧
     (c.spr.posWait = true → (bitOf (sl.w 5) 0 = false ∨ sl.w64 6 ≠ c.spr.tag) →
       ∃ t, exec (.resume sl) s = .next t ∧ t.responded se.id sl 0x4301 ∧ t.ctxs = s.ctxs ∧ t.mem = s.mem))

/-- SNAPSHOT, RESTORE, EXPORT_SNAPSHOT and EXPORT_END (R354, R356, R357): with a step in flight a SNAPSHOT is noted
for a boundary, and with none it is taken; a RESTORE whose image passes takes it over; an export sends pages 0 to S
and holds the context's next snapshot until it ends. EXPORT_END (R357): the export's handle is given up, and the
context no longer counts as exporting when no other export of it runs. -/
def Obligations.SnapshotCommandsComplete : Prop :=
  (∀ (s u : State) (sl : Slot) (se : Session) (c : Ctx), Accepted s sl se → u = s.advanceSeq se.id sl →
     u.ctx? (sl.w 4 % 256) = some c → sl.len = 0 → sl.ctxOk = true →
     (sl.cmd = 0x40 → c.steps = [] → c.exporting = false →
       exec (.snapshot sl) s = .next ((u.ok se.id sl).takeSnapshot c.id .requested)) ∧
     (sl.cmd = 0x40 → c.steps ≠ [] → ∃ t d, exec (.snapshot sl) s = .next t ∧ t.ctx? c.id = some d ∧
       d.snapAsked = true ∧ d.steps = c.steps ∧ t.responded se.id sl 0 ∧ t.mem = s.mem ∧ SameOthers c.id s t) ∧
     (∀ p, sl.cmd = 0x41 → c.phase = .reserved → c.steps = [] → u.findRecord c < c.pages.area.length →
       u.restoreChecks c (u.findRecord c) (u.readRecord (c.pages.area.getD (u.findRecord c) 0)) = .ok p →
       exec (.restore sl) s = .next ((u.takeImage c.id (u.findRecord c)
         (u.readRecord (c.pages.area.getD (u.findRecord c) 0)) p).ok se.id sl)) ∧
     (∀ q data, sl.cmd = 0x42 → se.handles.length < 16 → c.snap = some q → q.pending = [] →
       u.areaBytes c 0 ((q.area + 1) * pageSize) = .ok data →
       ∃ t d, exec (.exportSnapshot sl) s = .next t ∧ t.ctx? c.id = some d ∧ d.exporting = true ∧
         t.ligil.frames = s.ligil.frames ++ bulkFrames (s.ligil.nextHandle % 2 ^ 32) data ∧ t.responded se.id sl 0 ∧
         t.mem = s.mem ∧ SameOthers c.id s t)) ∧
  (∀ (s : State) (id : Nat) (c : Ctx) (se : Session) (h : Handle), s.ctx? id = some c → se ∈ s.ligil.sessions →
     h ∈ se.handles → h.ctx = id → h.exporting = true → c.snapAsked = false →
     (∀ x ∈ s.ligil.sessions, ∀ k ∈ x.handles, k.ctx = id → k.exporting = true → x = se ∧ k.id = h.id) →
     (∀ x ∈ s.ligil.sessions, x.id = se.id → x = se) →
     ∃ t d, exec (.exportEnd id) s = .next t ∧ t.ctx? id = some d ∧ d.exporting = false ∧ d.snap = c.snap ∧
       (∀ x ∈ t.ligil.sessions, ∀ k ∈ x.handles, k.ctx = id → k.exporting = false) ∧ t.mem = s.mem ∧ SameOthers id s t)

/-- QUERY_STATS and QUERY_CAPS (R358, R359): the response is one image read at one instant, and no context, memory,
flash or log changes. LOG_READ and DUMP_READ (R444, R445, R447): records from a sequence on, configuration, a snapshot
set and the crash dump are answered in the payload, and the log is as before; without a dump DUMP_READ is refused with
0x5009. LOG_WRITE (R437, R446): a sound entry becomes its code's configuration and a sound list becomes the snapshot
set; a command with an unsound entry configures nothing. -/
def Obligations.QueryLogAndDumpCommandsComplete : Prop :=
  (∀ (s u : State) (sl : Slot) (se : Session), Accepted s sl se → u = s.advanceSeq se.id sl → sl.len = 0 →
     (sl.cmd = 0x51 → ∃ t x y, exec (.queryCaps sl) s = .next t ∧ t.session? se.id = some x ∧ y ∈ x.slots ∧
       y.number = sl.number ∧ y.status = 0 ∧ y.payload = s.capsPayload ∧ t.ctxs = s.ctxs ∧ t.mem = s.mem ∧
       t.flash = s.flash ∧ t.sed = s.sed) ∧
     (∀ c b, sl.cmd = 0x50 → sl.w 4 < 256 → contextSelector (sl.w 5) = true → s.ctx? (sl.w 4) = some c →
       u.ctxImage c (sl.w 5) (sl.w 6) = some (.ok b) →
       ∃ t x y, exec (.queryStats sl) s = .next t ∧ t.session? se.id = some x ∧ y ∈ x.slots ∧ y.number = sl.number ∧
         y.status = 0 ∧ y.payload = b.take maxPayload ∧ t.ctxs = s.ctxs ∧ t.mem = s.mem ∧ t.flash = s.flash ∧
         t.sed = s.sed)) ∧
  (∀ (s : State) (sl : Slot) (se : Session), Accepted s sl se → sl.len = 0 →
     (sl.cmd = 0x70 → sl.w 4 = 0 → sl.w 6 < 65536 → 0 < sl.w 7 → sl.w 7 < 64 →
       ∃ t x y, exec (.logReadRecords sl) s = .next t ∧ t.session? se.id = some x ∧ y ∈ x.slots ∧ y.number = sl.number ∧
         y.status = 0 ∧ t.sed = s.sed ∧ t.ctxs = s.ctxs ∧ t.mem = s.mem ∧
         y.payload = ((s.sed.ring.filter fun r => decide (sl.w48 5 ≤ r.seq)).take (sl.w 7)).flatMap SedRec.bytes) ∧
     (sl.cmd = 0x70 → sl.w 4 = 2 → sl.w 5 < 65536 → 0 < sl.w 7 → sl.w 7 ≤ 504 →
       ∃ t x y, exec (.logReadConfig sl) s = .next t ∧ t.session? se.id = some x ∧ y ∈ x.slots ∧ y.number = sl.number ∧
         y.status = 0 ∧ t.sed = s.sed ∧ t.ctxs = s.ctxs ∧ t.mem = s.mem ∧
         y.payload = (((Sed.sorted s.sed.cfgs).filter fun c => decide (sl.w 5 ≤ c.code)).take (sl.w 7)).flatMap
           CodeCfg.bytes) ∧
     (sl.cmd = 0x70 → sl.w 4 = 6 → 0 < sl.w 5 → sl.w 5 ≤ 63 →
       ∃ t x y, exec (.logReadSet sl) s = .next t ∧ t.session? se.id = some x ∧ y ∈ x.slots ∧ y.number = sl.number ∧
         y.status = 0 ∧ t.sed = s.sed ∧ t.ctxs = s.ctxs ∧ t.mem = s.mem ∧
         y.payload = (getKey [] s.sed.sets (sl.w 5)).flatMap (leBytes 4)) ∧
     (∀ d, sl.cmd = 0x71 → 0 < sl.w 5 → sl.w 5 ≤ maxPayload → s.sed.dump.or s.sed.dumpFlash = some d →
       ∃ t x y, exec (.dumpRead sl) s = .next t ∧ t.session? se.id = some x ∧ y ∈ x.slots ∧ y.number = sl.number ∧
         y.status = 0 ∧ t.sed = s.sed ∧ t.mem = s.mem ∧ y.payload = (d.bytes.drop (sl.w 4)).take (sl.w 5)) ∧
     (sl.cmd = 0x71 → 0 < sl.w 5 → sl.w 5 ≤ maxPayload → s.sed.dump = none → s.sed.dumpFlash = none →
       ∃ t, exec (.dumpRead sl) s = .next t ∧ t.responded se.id sl 0x5009 ∧ t.mem = s.mem)) ∧
  (∀ (s : State) (sl : Slot) (se : Session), Accepted s sl se → sl.cmd = 0x70 →
     (∀ e, sl.w 4 = 4 → sl.w 7 = 1 → sl.len = 8 → parseCfg (sliceBytes sl.payload 0 8) = some e →
       floodExempt e.code = false →
       ∃ t, exec (.logWriteConfig sl) s = .next t ∧ t.codeCfg e.code = e ∧ t.responded se.id sl 0 ∧ t.ctxs = s.ctxs ∧
         t.mem = s.mem) ∧
     (sl.w 4 = 4 → sl.w 7 = 1 → sl.len = 8 → parseCfg (sliceBytes sl.payload 0 8) = none →
       ∃ t, exec (.logWriteConfig sl) s = .next t ∧ t.sed.cfgs = s.sed.cfgs ∧ t.flash = s.flash ∧
         t.responded se.id sl 0x4401) ∧
     (sl.w 4 = 8 → sl.len = 4 → 0 < sl.w 5 → sl.w 5 ≤ 63 → bitsOf (leAt sl.payload 0 4) 30 24 = 0 →
       leAt sl.payload 0 4 % 4 = 0 →
       ∃ t, exec (.logWriteSet sl) s = .next t ∧ getKey [] t.sed.sets (sl.w 5) = [leAt sl.payload 0 4] ∧
         t.responded se.id sl 0 ∧ t.ctxs = s.ctxs ∧ t.mem = s.mem))

/-- RESET_REQ (R360, R383): level 1 puts a context in any state into its reset and waits; level 2 resets the engines
of a ped path and level 3 a die, and both wait; level 4 is answered and asks for a chip reset; a level the spec does
not have is CMD_INVALID (0x4401). -/
def Obligations.ResetRequestsStartResets : Prop :=
  ∀ (s : State) (sl : Slot) (se : Session), Accepted s sl se → sl.cmd = 0x80 → sl.len = 0 →
    (∀ c, sl.w 4 = 1 → s.ctx? (sl.w 5) = some c → c.phase ≠ .resetting →
      ∃ t d x, exec (.resetReq sl) s = .next t ∧ t.ctx? c.id = some d ∧ d.phase = .resetting ∧
        t.session? se.id = some x ∧ (Busy.contextReset c.id false, sl) ∈ x.busy ∧ t.mem = s.mem ∧ SameOthers c.id s t) ∧
    (∀ c, sl.w 4 = 1 → s.ctx? (sl.w 5) = some c → c.phase = .resetting →
      ∃ t x, exec (.resetReq sl) s = .next t ∧ t.session? se.id = some x ∧
        (Busy.contextReset c.id true, sl) ∈ x.busy ∧ t.ctxs = s.ctxs ∧ t.mem = s.mem) ∧
    (sl.w 4 = 2 → sl.w 5 < 256 ∨ (0x500 ≤ sl.w 5 ∧ sl.w 5 < 0x540) →
      (∀ e ∈ pathEngines (sl.w 5), (s.engineRec e).resetting = none ∧ (s.engineRec e).resets.length < 2) →
      s.engineOk ((pathEngines (sl.w 5)).headD (.copy 64)) = true → s.dieResetting (pathDie (sl.w 5)) = false →
      ∃ t x, exec (.resetReq sl) s = .next t ∧ t.session? se.id = some x ∧
        (Busy.engineReset (sl.w 5) false, sl) ∈ x.busy ∧
        (∀ e ∈ pathEngines (sl.w 5), s.engineOk e = true → (t.engineRec e).resetting = some (1, s.now)) ∧
        t.mem = s.mem ∧ t.ports = s.ports) ∧
    (sl.w 4 = 3 → sl.w 5 < 4 → s.dieOk (sl.w 5) = true → s.dieResetting (sl.w 5) = false →
      ∃ t x y, exec (.resetReq sl) s = .next t ∧ t.session? se.id = some x ∧
        (Busy.partitionReset (sl.w 5) false, sl) ∈ x.busy ∧ y ∈ t.resets.parts ∧ y.die = sl.w 5 ∧ y.cause = 1 ∧
        t.mem = s.mem) ∧
    (sl.w 4 = 4 → s.resets.asked = none → ∃ t, exec (.resetReq sl) s = .next t ∧ t.responded se.id sl 0 ∧
      t.resets.asked = some (1, s.now) ∧ t.ctxs = s.ctxs ∧ t.mem = s.mem ∧ t.boot = s.boot) ∧
    (sl.w 4 = 0 ∨ 4 < sl.w 4 → ∃ t, exec (.resetReq sl) s = .next t ∧ t.responded se.id sl 0x4401 ∧
      t.ctxs = s.ctxs ∧ t.mem = s.mem ∧ t.resets = s.resets)

/-- CLIENT_CONNECT (R327): a verified chain makes a connection with its roles and the digest of its key as identity,
and a chain that fails makes none. SESSION_END (R330): the session and its connection are gone, and its contexts live
on without an orchestrator, their state and their memory untouched, with the events the session was not given. The
session holds no bulk handle here. -/
def Obligations.ConnectionsAndSessionsOpenAndEnd : Prop :=
  (∀ (s : State) (conn front : Nat) (roles : BitVec 3) (key : List Byte), s.boot.phase = .running →
     s.boot.ident = true → conn ≠ 0 → s.conn? conn = none → front < 2 → s.power.sdsLost.getD front false = false →
     (∃ t k, exec (.clientConnect conn front (.verified roles key)) s = .next t ∧ t.conn? conn = some k ∧
       k.roles = roles ∧ k.identity = sha384Digest128 key ∧ k.front = front ∧ k.session = none ∧ t.ctxs = s.ctxs ∧
       t.mem = s.mem ∧ t.ligil.sessions = s.ligil.sessions) ∧
     (∃ t, exec (.clientConnect conn front .failed) s = .next t ∧ t.ligil = s.ligil ∧ t.ctxs = s.ctxs ∧
       t.mem = s.mem)) ∧
  (∀ (s : State) (conn : Nat) (se : Session) (c : Ctx), conn ≠ 0 → s.sessionOf conn = some se → se.handles = [] →
     s.ctx? c.id = some c →
     ∃ t d, exec (.sessionEnd conn) s = .next t ∧ t.conn? conn = none ∧ t.session? se.id = none ∧ t.mem = s.mem ∧
       t.ctx? c.id = some d ∧ d.phase = c.phase ∧ d.steps = c.steps ∧ d.counters = c.counters ∧ d.pages = c.pages ∧
       (c.session = some se.id → d.session = none ∧ d.events = c.events ++ se.events.filter fun n => n.ctx == c.id) ∧
       (c.session ≠ some se.id → d = c))

/-- EVENT_DELIVER, EVENT_SLOT_RELEASE and COMMAND_SLOT_RELEASE (R332, R336): the oldest queued event takes the lowest
free event slot with the count of lost events, a release in a well-formed frame frees the slot, and over I3C the
controller frees a command slot. A session's events stand in a queue of at most 1,024 (R336): one more is dropped and
counted, and no event that stands there is displaced. -/
def Obligations.SlotsAreFilledAndFreed : Prop :=
  (∀ (s : State) (se : Session),
     (∀ n rest i, s.session? se.id = some se → se.events = n :: rest →
       lowestBelow 16 (fun i => !(se.evSlots.any fun x => x.number == i)) = some i → s.boot.phase = .running →
       (se.hello = true ∨ se.id = 0) → s.frontStopped se.conn = false →
       ∃ t x y, exec (.eventDeliver se.id) s = .next t ∧ t.session? se.id = some x ∧ x.events = rest ∧ x.lost = 0 ∧
         y ∈ x.evSlots ∧ y.number = i ∧ y.code = 0xF0 ∧ y.notice = n ∧ y.lost = se.lost ∧ y.seq = se.eventSeq ∧
         x.eventSeq = (se.eventSeq + 1) % 65536 ∧ t.ctxs = s.ctxs ∧ t.mem = s.mem) ∧
     (∀ conn head i, s.sessionOf conn = some se → head.ok conn 2 4 = true → (se.evSlots.any fun x => x.number == i) = true →
       ∃ t x, exec (.eventSlotRelease conn head ⟨i, 0⟩) s = .next t ∧ t.session? se.id = some x ∧
         x.evSlots = se.evSlots.filter (fun y => y.number != i) ∧ x.slots = se.slots ∧ t.ctxs = s.ctxs ∧ t.mem = s.mem) ∧
     (∀ conn head i owner, s.sessionOf conn = some se → head.ok conn 2 4 = false →
       exec (.eventSlotRelease conn head ⟨i, owner⟩) s = .next (s.protocolError conn)) ∧
     (∀ head i, s.sessionOf 0 = some se → se.id = 0 → (se.slots.any fun x => x.number == i && x.owner == 2) = true →
       ∃ t x, exec (.commandSlotRelease 0 head ⟨i, 0⟩) s = .next t ∧ t.session? 0 = some x ∧
         x.slots = se.slots.filter (fun y => y.number != i) ∧ x.evSlots = se.evSlots ∧ t.ctxs = s.ctxs ∧ t.mem = s.mem)) ∧
  (∀ (q : List Notice) (lost : Nat) (n : Notice), q.length ≤ 1024 →
     (pushNotice q lost n).1.length ≤ 1024 ∧ q <+: (pushNotice q lost n).1 ∧
     (q.length < 1024 → pushNotice q lost n = (q ++ [n], lost)) ∧ (q.length = 1024 → pushNotice q lost n = (q, lost + 1)))

/-- The phases of a boot (R13, R403, R405, R407, R408): each ends in the next, the first candidate bank that passes
every check of R404 boots, with none the package is in recovery, the handover closes the boot lock, and firmware that
is ready finds memory zeroed and its ports in PROBE with the configuration the record of kind 0x0004 gives (its layout
is the model's, log entry 157). -/
def Obligations.BootPhasesFollow : Prop :=
  ∀ (s : State),
    (s.boot.phase = .romStart → s.boot.thermHold = false →
      exec .romStartDone s = .next { s with boot := { s.boot with phase := .identity } }) ∧
    (∀ ups, s.boot.phase = .identity → ∃ t, exec (.identityDone ups) s = .next t ∧ t.boot.phase = .records ∧
      t.boot.ident = ((s.applying 0x13).any fun r => (ups.take 4).any (reproduces r.body)) ∧ (s.boot.lockOpen = true → t.boot.prot.getLsbD 0 = true) ∧ t.flash = s.flash ∧ t.mem = s.mem) ∧
    (s.boot.phase = .records → ∃ t, exec .recordsDone s = .next t ∧ t.boot.phase = .bankLoad ∧ t.boot.cold = false ∧
      t.flash.pcc = s.takeRecords.flash.pcc + (if s.boot.cold then 1 else 0) ∧ t.boot.fleet = s.fleetMode ∧
      t.flash.control = s.takeRecords.flash.control ∧ t.flash.retiredGrains = s.takeRecords.flash.retiredGrains ∧
      (s.boot.cold = false → (s.boot.ident && s.flash.settingsOnly) = false → t.flash = s.takeRecords.flash) ∧ t.mem = s.mem) ∧
    (∀ a, s.boot.phase = .bankLoad →
      a = (if s.boot.ident && (s.bootCtl.armed || (s.bootCtl.trial && !s.bootCtl.tried)) then 1 - s.bootCtl.active
           else s.bootCtl.active) →
      (s.bankFails a = none → ∃ t, exec .bankLoadDone s = .next t ∧ t.boot.phase = .handover ∧ t.boot.bank = a ∧
        t.boot.digest = s.bankDigest a ∧ t.flash.rollback = s.flash.rollback) ∧
      ((s.bankFails a).isSome = true → s.bankFails (1 - a) = none → ∃ t, exec .bankLoadDone s = .next t ∧
        t.boot.phase = .handover ∧ t.boot.bank = 1 - a ∧ t.boot.digest = s.bankDigest (1 - a)) ∧
      ((s.bankFails a).isSome = true → (s.bankFails (1 - a)).isSome = true → ∃ t, exec .bankLoadDone s = .next t ∧
        t.boot.phase = .recovery ∧ t.resets.chip = none ∧ t.power.ibi = s.power.ibi ++ [0xA6] ∧ t.flash = s.flash)) ∧
    (s.boot.phase = .handover → ∃ t, exec .handoverDone s = .next t ∧ t.boot.phase = .firmware ∧
      t.boot.lockOpen = false ∧ t.boot.handoverAt = s.now ∧ t.resets.chip = none ∧
      t.boot.prot = (if s.boot.lockOpen then s.protCfg else s.boot.prot) ∧ t.flash = s.flash) ∧
    (s.boot.phase = .firmware → ∃ t, exec .firmwareReady s = .next t ∧ t.boot.phase = .running ∧
      (∀ a, memRead t.mem a = 0) ∧ (∀ p q, t.port? p = some q → (q.phase = .probe ∨ q.phase = .retired) ∧
        q.cfg = PortCfg.loaded (((s.applying 4).map FlashRec.body).getD []) p) ∧
      t.power.limitW = (if s.boot.bank = 0 then s.flash.setA else s.flash.setB).limitW ∧
      t.power.capMhz = (if s.boot.bank = 0 then s.flash.setA else s.flash.setB).capMhz ∧
      t.sed.cfgs = (if s.boot.bank = 0 then s.flash.setA else s.flash.setB).cfgs) ∧
    exec .lglBootLockClose s = .next { s with boot := { s.boot with lockOpen := false } }

/-- ATTEST, FW_OFFER, FW_CHUNK, FW_ACTIVATE and FW_CONFIRM (R342, R411, R413 to R417, R420): the report is signed with
the unit key (its nonce is free, log entry 6), an offer that passes begins an update of the bank not running, chunks
append to that bank's staging area until the image is whole and its signature decides, a staged image is armed, and
the image in its trial is confirmed with its security version, to which RPMC counter 0 rises where its update can be
authenticated (R397). A bank that LGL_PROT_CFG protects is not written (R408). FW_APPLY_DONE (R402, R416): a full
image that passes the checks of R404 stands in the other bank and is staged; one that fails stands there, not staged,
and ends the update; a bank that LGL_PROT_CFG protects is not written (R408). -/
def Obligations.FirmwareCommandsUpdate : Prop :=
  (∀ (s : State) (sl : Slot) (se : Session), Accepted s sl se →
     (sl.cmd = 0x02 → sl.len = 32 → s.maySign = true → ∃ t x y, exec (.attest sl) s = .next t ∧
       t.session? se.id = some x ∧ y ∈ x.slots ∧ y.number = sl.number ∧ y.status = 0 ∧
       y.payload = (s.report sl.payload ++ (s.unitSign (s.report sl.payload)).1 ++ Config.unitChain).take maxPayload ∧
       t.boot = s.boot ∧ t.flash = s.flash ∧ t.ctxs = s.ctxs ∧ t.mem = s.mem) ∧
     (sl.cmd = 0x60 → sl.len = 512 → s.boot.ident = true → s.boot.phase = .running → s.boot.upd = .idle →
       sl.w64 4 = imgLength sl.payload →
       (s.offerFails sl.payload = none → ∃ t, exec (.fwOffer sl) s = .next t ∧ t.boot.upd = .receiving ∧
         t.boot.offer = some (se.id, sl.payload) ∧
         t.flash.staging s.updBank = (if s.bankProtected s.updBank then s.flash.staging s.updBank else []) ∧
         t.flash.bank s.updBank = (if s.bankProtected s.updBank then s.flash.bank s.updBank else .erased) ∧
         t.flash.rollback = s.flash.rollback ∧ t.responded se.id sl 0 ∧ t.ctxs = s.ctxs ∧ t.mem = s.mem) ∧
       (∀ code d, s.offerFails sl.payload = some (code, d) → ∃ t, exec (.fwOffer sl) s = .next t ∧ t.boot = s.boot ∧
         t.flash = s.flash ∧ t.responded se.id sl code ∧ t.ctxs = s.ctxs ∧ t.mem = s.mem)) ∧
     (∀ h all, sl.cmd = 0x61 → 0 < sl.len → s.boot.upd = .receiving → s.boot.offer = some (se.id, h) →
       sl.w64 4 = (s.flash.staging s.updBank).length → all = s.flash.staging s.updBank ++ sl.payload →
       (all.length < imgLength h → ∃ t, exec (.fwChunk sl) s = .next t ∧
         t.flash.staging s.updBank = (if s.bankProtected s.updBank then s.flash.staging s.updBank else all) ∧
         t.boot.upd = .receiving ∧ t.responded se.id sl 0 ∧ t.ctxs = s.ctxs ∧ t.mem = s.mem) ∧
       (all.length = imgLength h → ecdsaVerify (sliceBytes h 152 96) (sha384 (all.take (imgLength h - 96)))
           (sliceBytes all (imgLength h - 96) 96) = true → ∃ t, exec (.fwChunk sl) s = .next t ∧
         t.flash.staging s.updBank = (if s.bankProtected s.updBank then s.flash.staging s.updBank else all) ∧
         t.boot.upd = .applying ∧ t.responded se.id sl 0) ∧
       (all.length = imgLength h → ecdsaVerify (sliceBytes h 152 96) (sha384 (all.take (imgLength h - 96)))
           (sliceBytes all (imgLength h - 96) 96) = false → ∃ t, exec (.fwChunk sl) s = .next t ∧
         t.flash.staging s.updBank = (if s.bankProtected s.updBank then s.flash.staging s.updBank else []) ∧
         t.boot.upd = .idle ∧ t.boot.offer = none ∧ t.responded se.id sl 0x6004)) ∧
     (sl.cmd = 0x62 → sl.len = 0 → sl.w 4 < 2 → s.boot.upd = .staged → s.boot.phase = .running → s.resets.asked = none →
       ∃ t, exec (.fwActivate sl) s = .next t ∧ t.boot.upd = .armed ∧
         (s.boot.ident = true → t.flash.control = some { s.bootCtl with armed := true, upd := 4 }) ∧
         t.resets.asked = (if sl.w 4 = 1 then some (0xB, s.now) else none) ∧ t.responded se.id sl 0 ∧ t.ctxs = s.ctxs ∧
         t.mem = s.mem) ∧
     (sl.cmd = 0x63 → sl.len = 0 → s.boot.upd = .trial → ∃ t, exec (.fwConfirm sl) s = .next t ∧
       t.boot.upd = .confirmed ∧ t.boot.trial = false ∧
       t.flash.rollback = (if s.mayRaise then max s.flash.rollback s.boot.sver else s.flash.rollback) ∧
       (s.boot.ident = true → s.boot.phase ≠ .recovery →
         t.flash.control = some { s.bootCtl with active := s.boot.bank, trial := false, upd := 6 }) ∧
       t.responded se.id sl 0 ∧ t.ctxs = s.ctxs ∧ t.mem = s.mem)) ∧
  (∀ (s : State) (staged : List Byte), s.boot.upd = .applying → s.boot.phase = .running →
     staged = s.flash.staging s.updBank → imgIsDiff staged = false →
     (s.imageFails staged = none → ∃ t, exec .fwApplyDone s = .next t ∧ t.boot.upd = .staged ∧
       t.boot.offer = none ∧ t.flash.bank s.updBank = (if s.bankProtected s.updBank then s.flash.bank s.updBank else .image staged) ∧
       (s.boot.bank < 2 → t.flash.bank s.boot.bank = s.flash.bank s.boot.bank) ∧
       t.flash.rollback = s.flash.rollback ∧ t.ctxs = s.ctxs ∧ t.mem = s.mem) ∧
     ((s.imageFails staged).isSome = true → ∃ t, exec .fwApplyDone s = .next t ∧ t.boot.upd = .idle ∧
       t.boot.offer = none ∧ t.flash.bank s.updBank = (if s.bankProtected s.updBank then s.flash.bank s.updBank else .image staged) ∧
       t.flash.rollback = s.flash.rollback ∧ t.ctxs = s.ctxs ∧ t.mem = s.mem))

/-- The reset input, the supply and the dump's copy to flash (R443, R454, R455, R456): a level of at least 510 ns is
recognised, one of at most 490 ns is not, and between them the free value of log entry 5 decides; the package leaves
reset once PWR_GOOD and PKG_RESET_N are high. -/
def Obligations.PinsStartAndStopTheBlock : Prop :=
  ∀ (s : State),
    (∀ ns, ns ≤ 490 → exec (.pkgResetAssert ns) s = .next s ∧ exec (.pkgResetRelease ns) s = .next s) ∧
    (∀ ns, 490 < ns → ns < 510 →
      exec (.pkgResetAssert ns) s =
        exec (.pkgResetAssert (if Config.freeBool s.free then 510 else 490)) { s with free := s.free + 1 } ∧
      exec (.pkgResetRelease ns) s =
        exec (.pkgResetRelease (if Config.freeBool s.free then 510 else 490)) { s with free := s.free + 1 }) ∧
    (∀ ns, 510 ≤ ns → s.boot.pkgResetN = true →
      (s.powered = true → ∃ t, exec (.pkgResetAssert ns) s = .next t ∧ t.boot.pkgResetN = false ∧ t.boot.phase = .held ∧
        t.boot.lockOpen = true ∧ t.ctxs = [] ∧ t.ligil.sessions.map Session.id = [0] ∧ t.resets.lastChip = some 0xC) ∧
      (s.powered = false →
        exec (.pkgResetAssert ns) s = .next { s with boot := { s.boot with pkgResetN := false } })) ∧
    (∀ ns, 510 ≤ ns → s.boot.pkgResetN = false → ∃ t, exec (.pkgResetRelease ns) s = .next t ∧ t.boot.pkgResetN = true ∧
      t.boot.phase = (if s.boot.phase = .held ∧ s.boot.pwrGood = true ∧ s.resets.powerHold = false then .romStart
                      else s.boot.phase) ∧
      t.mem = s.mem ∧ t.flash = s.flash ∧ t.ctxs = s.ctxs ∧ t.ports = s.ports) ∧
    (s.boot.pwrGood = false → ∃ t, exec .pwrGoodRise s = .next t ∧ t.boot.pwrGood = true ∧ t.boot.cold = true ∧
      t.boot.phase = (if s.boot.pkgResetN then .romStart else .held) ∧ t.ctxs = [] ∧ t.sed.ring = [] ∧
      t.sed.nextSeq = s.sed.flushed ∧ (∀ p q, t.port? p = some q → q.epoch = 0) ∧ t.flash.records = s.flash.records) ∧
    (s.boot.pwrGood = true → ∃ t, exec .pwrGoodFall s = .next t ∧ t.boot.pwrGood = false ∧ t.boot.phase = .stopping ∧
      t.ctxs = [] ∧ t.ligil.sessions.map Session.id = [0] ∧ t.sed.ring = s.sed.ring ∧
      t.flash.records = s.flash.records) ∧
    (s.boot.phase = .stopping → ∃ t, exec .powerDownStopDone s = .next t ∧ t.boot.phase = .off ∧
      t.sed.flushed = s.sed.nextSeq ∧ t.power.ibi = s.power.ibi ++ [0xA7] ∧ t.flash = s.flash) ∧
    (s.sed.dumpCopying = true → exec .dumpFlashCopyDone s =
      .next { s with sed := { s.sed with dumpFlash := s.sed.dump, dumpCopying := false } })

/-- POWER_POLICY (R459): a limit of 800 W to 3,200 W and a cap of 250 MHz to 2,000 MHz are in force and kept in the
running firmware's settings; values out of range are refused with CMD_INVALID and change neither. PORT_POWER_OFF and
PORT_OFF_RETURN_DONE (R465): below 1,600 W a port that no context reserves goes OFF, and a port whose return was asked
for is in PROBE again; no other port changes. -/
def Obligations.PowerPolicyActsOnLimitsAndPorts : Prop :=
  (∀ (s : State) (sl : Slot) (se : Session), Accepted s sl se → sl.cmd = 0x81 → sl.len = 0 →
     (800 ≤ sl.w 4 → sl.w 4 ≤ 3200 → 250 ≤ sl.w 5 → sl.w 5 ≤ 2000 →
       ∃ t, exec (.powerPolicy sl) s = .next t ∧ t.power.limitW = sl.w 4 ∧ t.power.capMhz = sl.w 5 ∧
         (s.boot.phase = .running → (if s.boot.bank = 0 then t.flash.setA else t.flash.setB).limitW = sl.w 4 ∧
           (if s.boot.bank = 0 then t.flash.setA else t.flash.setB).capMhz = sl.w 5) ∧
         t.responded se.id sl 0 ∧ t.ctxs = s.ctxs ∧ t.mem = s.mem ∧ t.sed = s.sed) ∧
     (sl.w 4 < 800 ∨ 3200 < sl.w 4 ∨ sl.w 5 < 250 ∨ 2000 < sl.w 5 →
       ∃ t, exec (.powerPolicy sl) s = .next t ∧ t.power.limitW = s.power.limitW ∧ t.power.capMhz = s.power.capMhz ∧
         t.flash = s.flash ∧ t.responded se.id sl 0x4401 ∧ t.ctxs = s.ctxs ∧ t.mem = s.mem)) ∧
  (∀ (s : State) (p : Nat) (q : Port), s.port? p = some q →
     ((s.ctxs.any fun c => c.bindings.any fun b => b.port == p) = false → s.power.limitW < 1600 →
       (q.phase = .probe ∨ q.phase = .train ∨ q.phase = .auth ∨ q.phase = .up) →
       ∃ t r, exec (.portPowerOff p) s = .next t ∧ t.port? p = some r ∧ r.phase = .off ∧ r.epoch = q.epoch ∧
         SameOtherPorts p s t ∧ t.mem = s.mem) ∧
     (q.phase = .off → q.returning = true → ∃ t r, exec (.portOffReturnDone p) s = .next t ∧ t.port? p = some r ∧
       r.phase = .probe ∧ r.returning = false ∧ r.epoch = q.epoch ∧ SameOtherPorts p s t ∧ t.ctxs = s.ctxs ∧ t.mem = s.mem))

/-- The power brake and the reference clocks (R452, R457, R458, R461): the brake holds every die's voltage at that of
250 MHz and is held for at least 1 µs, a lost port clock takes its die's linked ports down, and an island's clock is
trimmed to the arithmetic clock set while REFCLK_SYS is there, unless the port, the stack interface or the management
domain sets its clock (R27). -/
def Obligations.BrakeAndClocksAct : Prop :=
  ∀ (s : State),
    (∀ ns, ns ≤ 90 → exec (.powerBrakeApply ns) s = .next s ∧ exec (.powerBrakeRelease ns) s = .next s) ∧
    (∀ ns, 90 < ns → ns < 110 →
      exec (.powerBrakeApply ns) s =
        exec (.powerBrakeApply (if Config.freeBool s.free then 110 else 90)) { s with free := s.free + 1 } ∧
      exec (.powerBrakeRelease ns) s =
        exec (.powerBrakeRelease (if Config.freeBool s.free then 110 else 90)) { s with free := s.free + 1 }) ∧
    (∀ ns, 110 ≤ ns → s.power.brake = false → ∃ t, exec (.powerBrakeApply ns) s = .next t ∧ t.power.brake = true ∧
      t.power.brakeAt = s.now ∧ t.power.voltage = List.replicate 4 (Config.voltageTable 16) ∧ t.ctxs = s.ctxs ∧
      t.mem = s.mem ∧ t.ports = s.ports) ∧
    (∀ ns, 110 ≤ ns → s.power.brake = true → ∃ t, exec (.powerBrakeRelease ns) s = .next t ∧ t.power.brake = false ∧
      s.power.brakeAt + 1 ≤ t.now ∧ s.now ≤ t.now ∧
      t.power.voltage = (List.range 4).map (fun d => Config.voltageTable (s.dieCap d)) ∧ t.mem = s.mem ∧
      t.ports = s.ports) ∧
    (s.power.sysLost = false → ∃ t, exec (.refclkLost 0) s = .next t ∧ t.power.sysLost = true ∧ t.ports = s.ports ∧
      t.ctxs = s.ctxs ∧ t.mem = s.mem) ∧
    (s.power.sysLost = true → ∃ t, exec (.refclkReturn 0) s = .next t ∧ t.power.sysLost = false ∧ t.ports = s.ports ∧
      t.ctxs = s.ctxs ∧ t.mem = s.mem) ∧
    (∀ d, d < 4 → s.power.sdsLost.length = 4 → s.power.sdsLost.getD d false = false →
      ∃ t, exec (.refclkLost (d + 1)) s = .next t ∧ t.power.sdsLost.getD d false = true ∧
        (∀ p q, p / 8 = d → s.port? p = some q → ∃ r, t.port? p = some r ∧ r.epoch = q.epoch ∧
          r.phase = (if q.phase = .train ∨ q.phase = .auth ∨ q.phase = .up then .probe else q.phase)) ∧
        (∀ p, p / 8 ≠ d → t.ports[p]? = s.ports[p]?) ∧ t.mem = s.mem) ∧
    (∀ d, d < 4 → s.power.sdsLost.length = 4 → s.power.sdsLost.getD d false = true →
      ∃ t, exec (.refclkReturn (d + 1)) s = .next t ∧ t.power.sdsLost.getD d false = false ∧ t.ports = s.ports ∧
        t.ctxs = s.ctxs ∧ t.mem = s.mem) ∧
    (∀ path, followsClock path = false ∨ pathKnown path = false ∨ s.power.sysLost = true →
      exec (.islandClockTrim path) s = .next s) ∧
    (∀ path, pathKnown path = true → followsClock path = true → s.power.sysLost = false → ∃ t, exec (.islandClockTrim path) s = .next t ∧
      getKey 0 t.power.trims path = s.clock (pathDie path) ∧ t.ctxs = s.ctxs ∧ t.mem = s.mem ∧ t.ports = s.ports)

/-- THERMAL_SAMPLE, THERMAL_CAP_STEP and POWER_LIMIT_LOOP (R460, R469, R470, R471): readings are kept, a die with a
hot sensor throttles, a trip resets the chip and holds ROM start, the thermal cap of a throttling die moves by one
step down to 250 MHz or up until it no longer limits, and the loop's cap follows the mean of the last samples. -/
def Obligations.ThermalAndPowerLoopsMoveTheCaps : Prop :=
  ∀ (s : State), s.power.throttle.length = 4 → s.power.thermalCap.length = 4 →
    (∀ readings seen, seen = (readings.filter fun r => isSensor r.sensor).map (fun r => (r.sensor, r.temp)) →
      s.powered = true → s.boot.thermHold = false →
      (seen.find? isTrip = none → s.boot.phase = .running → ∃ t, exec (.thermalSample readings) s = .next t ∧
        t.power.temps = seen.foldl (fun l r => setKey l r.1 r.2) s.power.temps ∧
        (∀ d, d < 4 → t.power.throttle.getD d false =
          (s.power.throttle.getD d false || (t.sensorsOf d).any isHot)) ∧
        t.boot = s.boot ∧ t.ctxs = s.ctxs ∧ t.mem = s.mem ∧ t.ports = s.ports) ∧
      ((seen.find? isTrip).isSome = true → ∃ t, exec (.thermalSample readings) s = .next t ∧ t.boot.thermHold = true ∧
        t.ctxs = [] ∧ t.resets.lastChip = some 0xA ∧ t.power.thermN = false)) ∧
    (∀ d, d < 4 → s.power.throttle.getD d false = true →
      ((s.sensorsOf d).any isHot = true → ∃ t, exec (.thermalCapStep d) s = .next t ∧
        t.power.thermalCap.getD d 128 = max 16 (s.power.thermalCap.getD d 128 - 1) ∧
        t.power.throttle = s.power.throttle ∧ t.ctxs = s.ctxs ∧ t.mem = s.mem ∧ t.ports = s.ports) ∧
      ((s.sensorsOf d).all isCool = true → ∃ t, exec (.thermalCapStep d) s = .next t ∧
        (s.power.thermalCap.getD d 128 + 1 < mhzSteps s.power.capMhz →
          t.power.thermalCap.getD d 128 = s.power.thermalCap.getD d 128 + 1 ∧ t.power.throttle = s.power.throttle) ∧
        (mhzSteps s.power.capMhz ≤ s.power.thermalCap.getD d 128 + 1 →
          t.power.thermalCap.getD d 128 = 128 ∧ t.power.throttle.getD d false = false) ∧
        t.ctxs = s.ctxs ∧ t.mem = s.mem ∧ t.ports = s.ports)) ∧
    (∀ mw h, s.boot.phase = .running → h = (s.power.history ++ [mw]).drop (s.power.history.length + 1 - 10) →
      ∃ t, exec (.powerLimitLoop mw) s = .next t ∧ t.power.history = h ∧ t.power.limitW = s.power.limitW ∧
        (s.power.limitW * 1000 * h.length < sumNat h → t.power.loopCap = max 16 (s.power.loopCap - 1)) ∧
        (sumNat h ≤ s.power.limitW * 1000 * h.length → 98 * (s.power.limitW * 1000 * h.length) ≤ 100 * sumNat h →
          t.power.loopCap = s.power.loopCap ∧ t.power.sinceLow = 0) ∧
        (100 * sumNat h < 98 * (s.power.limitW * 1000 * h.length) →
          t.power.sinceLow = s.power.sinceLow + 1 ∧
          t.power.loopCap = (if 10 ≤ s.power.sinceLow + 1 then min 128 (s.power.loopCap + 1) else s.power.loopCap)) ∧
        t.ctxs = s.ctxs ∧ t.mem = s.mem ∧ t.ports = s.ports)

/-- POWER_STATE_ENTER, POWER_STATE_REACHED, POWER_ENABLE, POWER_WAKE and POWER_WAKE_DONE (R462 to R464): a unit with
nothing to do enters the deepest state its idle time or its prediction allows, a request during a wake and an enable
during an entry whose clock has stopped are queued, an earlier enable calls the entry off, and a wake ends in the
active state. -/
def Obligations.UnitsChangePowerState : Prop :=
  ∀ (s : State) (p : Nat), powerUnit p = true →
    ((s.unit p).depth < deepest ((s.nextT p).getD (s.idleT p)) → (s.unit p).entering = none →
      s.mayPower p (deepest ((s.nextT p).getD (s.idleT p))) = true →
      ∃ t, exec (.powerStateEnter p) s = .next t ∧ t.ctxs = s.ctxs ∧ t.mem = s.mem ∧ t.ports = s.ports ∧
        t.unit p = (if (s.unit p).waking
          then { s.unit p with shutPending := some (deepest ((s.nextT p).getD (s.idleT p))) }
          else { s.unit p with entering := some (deepest ((s.nextT p).getD (s.idleT p)), s.now) })) ∧
    (∀ st start, (s.unit p).entering = some (st, start) →
      (∃ t, exec (.powerStateReached p) s = .next t ∧ (t.unit p).state = st ∧ (t.unit p).entering = none ∧
        (t.unit p).waking = (s.unit p).wakePending ∧ start + reachUs st ≤ t.now ∧ t.mem = s.mem) ∧
      (∃ t, exec (.powerEnable p) s = .next t ∧ t.ctxs = s.ctxs ∧ t.mem = s.mem ∧
        (clockStopped st (s.now - start) = true → t.unit p = { s.unit p with wakePending := true }) ∧
        (clockStopped st (s.now - start) = false → (t.unit p).state = 0 ∧ (t.unit p).entering = none))) ∧
    ((s.unit p).entering = none → (s.unit p).state ≠ 0 → (s.unit p).waking = false →
      (∃ t, exec (.powerEnable p) s = .next t ∧ t.unit p = { s.unit p with waking := true } ∧ t.ctxs = s.ctxs ∧
        t.mem = s.mem) ∧
      (∀ d, s.nextT p = some d → ∃ t, exec (.powerWake p) s = .next t ∧ t.unit p = { s.unit p with waking := true } ∧
        t.now = s.now + (d / 10 - wakeUs (s.unit p).state) ∧ t.mem = s.mem)) ∧
    ((s.unit p).waking = true → ∃ t, exec (.powerWakeDone p) s = .next t ∧ (t.unit p).state = 0 ∧
      (t.unit p).waking = false ∧ (t.unit p).entering = (s.unit p).shutPending.map (fun x => (x, s.now)) ∧
      t.ctxs = s.ctxs ∧ t.mem = s.mem)

/-- PATROL_SCRUB, TOPSOIL_SCRUB and PAGE_ZERO_DONE (R228, R237 to R239): a scrub of a page in service notes it, serves
its forced slot and changes no byte; an uncorrectable word is kept, and a free page that holds one is withheld and
waits to be zeroed; a page whose zeroing ends reads as 0 and no other byte changes. -/
def Obligations.ScrubbingAndZeroingActOnPages : Prop :=
  ∀ (s : State) (p : Nat),
    (∀ found, 16384 ≤ p → s.pageOk p = true → ∃ t, exec (.patrolScrub p found) s = .next t ∧
      getKey 0 t.bg.scrubbed p = s.now ∧ t.bg.forced.getLsbD 1 = false ∧ t.mem = s.mem ∧ t.ports = s.ports ∧
      (∀ a, found = .uncorrectable a → inPage p a = true → s.bg.zeroing.contains p = false →
        t.bg.ueWords.contains (a / 32 * 32) = true ∧
        (s.reserved p = false → t.bg.withheld.contains p = true ∧ t.bg.zeroing.contains p = true))) ∧
    (∀ found, p < 16384 → s.pageOk p = true → ∃ t, exec (.topsoilScrub p found) s = .next t ∧
      getKey 0 t.bg.scrubbed p = s.now ∧ t.bg.forced.getLsbD 2 = false ∧ t.mem = s.mem ∧ t.ports = s.ports ∧
      (∀ a, found = .uncorrectable a → inPage p a = true → s.bg.zeroing.contains p = false →
        t.bg.ueWords.contains (a / 8 * 8) = true ∧
        (s.reserved p = false → t.bg.withheld.contains p = true ∧ t.bg.zeroing.contains p = true))) ∧
    (s.bg.zeroing.contains p = true → ∃ t, exec (.pageZeroDone p) s = .next t ∧ t.bg.zeroing.contains p = false ∧
      (∀ a, memRead t.mem a = if inPage p a then 0 else memRead s.mem a) ∧
      (∀ w, t.bg.ueWords.contains w = true → inPage p w = false) ∧ t.ctxs = s.ctxs ∧ t.ports = s.ports)

/-- The other background tasks and TELEMETRY_SAMPLE (R293, R438, R448, R466, R467): each serves its forced slot, a
deadline that passes shows in PWR_BG_STATUS, a data lane's traffic moves to the calibration lane and back, or the lane
is out of service meanwhile where that lane failed its test, and a sample takes the next number. -/
def Obligations.BackgroundTasksServeTheirSlots : Prop :=
  ∀ (s : State),
    (∀ p lane q, s.port? p = some q → q.phase = .up → lane < 8 → bitOf q.lanes lane = true →
      (q.recal = none → q.calOk = true → ∃ t r, exec (.equaliserRecalibration p lane) s = .next t ∧ t.port? p = some r ∧
        r.recal = some lane ∧ r.lanes = q.lanes ∧ r.link = q.link ∧ t.bg.forced.getLsbD 3 = false ∧
        SameOtherPorts p s t ∧ t.ctxs = s.ctxs ∧ t.mem = s.mem) ∧
      (q.recal = some lane → ∃ t r, exec (.equaliserRecalibration p lane) s = .next t ∧ t.port? p = some r ∧
        r.recal = none ∧ r.lanes = q.lanes ∧ r.link = q.link ∧ getKey 0 t.bg.recals (9 * p + lane) = s.now ∧
        t.bg.forced.getLsbD 3 = false ∧ SameOtherPorts p s t ∧ t.ctxs = s.ctxs ∧ t.mem = s.mem) ∧
      (q.recal = none → q.calOk = false → ∃ t r, exec (.equaliserRecalibration p lane) s = .next t ∧ t.port? p = some r ∧
        r.recal = some lane ∧ r.lanes = q.lanes - 2 ^ lane ∧ r.widthChange = true ∧ r.link = q.link ∧
        t.bg.forced.getLsbD 3 = true ∧ SameOtherPorts p s t ∧ t.ctxs = s.ctxs ∧ t.mem = s.mem)) ∧
    (∀ p lane q, s.port? p = some q → q.phase = .up → q.recal = some lane → bitOf q.lanes lane = false →
      ∃ t r, exec (.equaliserRecalibration p lane) s = .next t ∧ t.port? p = some r ∧ r.recal = none ∧
        r.lanes = q.lanes + 2 ^ lane ∧ r.widthChange = true ∧ t.bg.forced.getLsbD 3 = false ∧ SameOtherPorts p s t ∧
        t.ctxs = s.ctxs ∧ t.mem = s.mem) ∧
    (∀ st ch, st < 12 → ch < 32 → s.stackOk st = true → ∃ t, exec (.subsoilRetraining st ch) s = .next t ∧
      getKey 0 t.bg.retrained (32 * st + ch) = s.now ∧ t.bg.forced.getLsbD 4 = false ∧ t.ctxs = s.ctxs ∧
      t.mem = s.mem ∧ t.ports = s.ports) ∧
    (∀ b, ∃ t, exec (.flashWearLevelling b) s = .next t ∧ t.bg.erased.contains b = true ∧
      t.bg.forced.getLsbD 6 = false ∧ t.sed = s.sed ∧ t.flash = s.flash ∧ t.mem = s.mem) ∧
    (∀ task, 1 ≤ task → task ≤ 6 → ∃ t, exec (.bgDeadlineForced task) s = .next t ∧
      t.bg.forced.getLsbD task = true ∧ (∀ k, k ≠ task → t.bg.forced.getLsbD k = s.bg.forced.getLsbD k) ∧
      t.sed.bus = s.sed.bus ++ [{ code := 0x7101, detail := task, src := 0x400, ctx := 0xFF, words := [] }] ∧
      t.ctxs = s.ctxs ∧ t.mem = s.mem) ∧
    (∀ tm, s.boot.phase = .running → ∃ t, exec (.telemetrySample tm) s = .next t ∧
      t.bg.samples = s.bg.samples + tm.skipped + 1 ∧
      t.bg.sample.take 8 = leBytes 8 (s.bg.samples + tm.skipped + 1) ∧ t.free = s.free + 1 ∧
      t.power = s.power ∧ t.ctxs = s.ctxs ∧ t.mem = s.mem)

/-- The log's writer (R428, R430, R431, R432, R433, R439): an event leaves its source for a free place of the writer,
the oldest becomes a record with the next sequence or folds into the newest, a flush copies every record to flash and
closes the open one, an open record closes 1 s after its last fold, and a bucket gains a token when its time has
passed. -/
def Obligations.TheLogRecordsEvents : Prop :=
  ∀ (s : State),
    (∀ src ev, s.sed.bus.find? (fun e => e.src == src) = some ev → s.sed.queue.length < 960 →
      exec (.sedEventPost src) s =
        .next { s with sed := { s.sed with bus := s.sed.bus.erase ev, queue := s.sed.queue ++ [ev] } }) ∧
    (∀ ev q, s.sed.queue = ev :: q → floodExempt ev.code = true → (s.codeCfg ev.code).set = 0 → ev.words = [] →
      ev.code ≠ 0x31 → s.sed.lostPending = 0 → s.sed.ring.length < 65536 →
      ∃ t r, exec .sedRecordWrite s = .next t ∧ t.sed.ring = s.sed.ring ++ [r] ∧ r.code = ev.code ∧
        r.sev = severity ev.code ∧ r.src = ev.src ∧ r.detail = ev.detail ∧ r.ctx = ev.ctx ∧ r.rep = 1 ∧
        r.seq = s.sed.nextSeq ∧ r.pcc = s.flash.pcc ∧ r.time = s.opMs / 1000 ∧ t.sed.nextSeq = s.sed.nextSeq + 1 ∧
        t.sed.queue = q ∧ t.ctxs = s.ctxs ∧ t.mem = s.mem ∧ t.flash = s.flash) ∧
    (∀ ev q r, s.sed.queue = ev :: q → floodExempt ev.code = false → (s.codeCfg ev.code).rate = false →
      s.sed.ring.getLast? = some r → s.recOpen = true → r.folds ev = true →
      ∃ t, exec .sedRecordWrite s = .next t ∧ t.sed.nextSeq = s.sed.nextSeq ∧ t.sed.queue = q ∧
        t.sed.ring.length = s.sed.ring.length ∧ (t.sed.ring.getLast?).map SedRec.rep = some (r.rep + 1) ∧
        t.sed.ring.dropLast = s.sed.ring.dropLast ∧ t.sed.lastFold = s.now ∧ t.mem = s.mem) ∧
    (s.sed.openRec = true → ∃ t, exec .sedRecordClose s = .next t ∧ t.sed.openRec = false ∧ t.sed.ring = s.sed.ring ∧
      s.sed.lastFold + 1000000 ≤ t.now ∧ t.mem = s.mem ∧ t.flash = s.flash) ∧
    (∀ code, (s.codeCfg code).rate = true → (s.bucket code).tokens < (s.codeCfg code).burst →
      ∃ t, exec (.sedTokenRefill code) s = .next t ∧ (t.bucket code).tokens = (s.bucket code).tokens + 1 ∧
        (t.bucket code).supp = (s.bucket code).supp ∧
        (t.bucket code).since = (s.bucket code).since + 2 ^ (s.codeCfg code).p * 1000 ∧
        (∀ k, k ≠ code → t.bucket k = s.bucket k) ∧ t.sed.ring = s.sed.ring ∧ t.mem = s.mem) ∧
    (∃ t, exec .sedFlush s = .next t ∧ t.sed.flushed = s.sed.nextSeq ∧ t.sed.openRec = false ∧
      t.sed.savedMs = s.opMs ∧ t.sed.ring = s.sed.ring ∧ t.sed.flash.length ≤ 262144 ∧
      (s.sed.ring.length ≤ 65536 → ∀ r ∈ s.sed.ring, s.sed.flushed ≤ r.seq → r ∈ t.sed.flash) ∧ t.ctxs = s.ctxs ∧
      t.mem = s.mem)

/-- FLIT_SEND, FLIT_RECEIVE, RETRY_REQUEST and ACK_TIMEOUT (R296 to R299, R302 to R304): a port that may send puts one
flit on the wire (a flit sent again first, else, while the replay buffer has room, a retry request, a new flit against
a credit, or an idle one), every new flit takes the next sequence number and is kept until acknowledged; a sound flit
in sequence is accepted, any other is discarded and asked for again or counted as stale, a malformed one is counted,
and unacknowledged flits are sent again from the sequence asked for. -/
def Obligations.LinksSendAndReceiveFlits : Prop :=
  ∀ (s : State) (p : Nat) (q : Port), q.phase = .up ∨ q.phase = .auth →
    ((s.purge p).port? p = some q → q.widthChange = false →
      (q.link.resend = [] → 2048 ≤ q.link.replay.length → exec (.flitSend p) s = .next (s.purge p)) ∧
      (q.link.resend ≠ [] ∨ q.link.replay.length < 2048 →
        ∃ t r f, exec (.flitSend p) s = .next t ∧ t.port? p = some r ∧ r.link.sent = [f] ∧ r.phase = q.phase ∧
          r.link.rxSeq = q.link.rxSeq ∧
          (∀ g gs, q.link.resend = g :: gs →
            f = { g with ack := q.link.ackNow } ∧ r.link.resend = gs ∧ r.link.replay = q.link.replay ∧
            r.link.txSeq = q.link.txSeq) ∧
          (q.link.resend = [] → f.seq = q.link.txSeq ∧ r.link.txSeq = seqMod (q.link.txSeq + 1) ∧
            r.link.replay = q.link.replay ++ [(f, 0)]) ∧
          (q.link.resend = [] → q.link.retryPending = true → f.type = 1 ∧ f.payload = leBytes 3 q.link.rxSeq ∧
            r.link.retryPending = false ∧ r.link.waiting = q.link.waiting) ∧
          (∀ vc, q.link.resend = [] → q.link.retryPending = false → (s.purge p).pickVc p q = some vc → f.vc = vc ∧
            r.link.credits = q.link.credits.set vc (q.link.credits.getD vc 0 - 1)) ∧
          (q.link.resend = [] → q.link.retryPending = false → (s.purge p).pickVc p q = none →
            f.type = 0 ∧ r.link.waiting = q.link.waiting) ∧
          SameOtherPorts p s t ∧ t.ctxs = s.ctxs ∧ t.mem = s.mem ∧ SameBase s t ∧ t.sed = s.sed)) ∧
    (∀ bytes clean f, s.port? p = some q → f = Flit.ofBytes bytes →
      (clean = false ∨ crcGood bytes = false ∨ (f.epoch = q.epoch % 256 ∧ (f.seq ≠ q.link.rxSeq ∨ q.opened f = none)) →
        ∃ t r, exec (.flitReceive p bytes clean) s = .next t ∧ t.port? p = some r ∧ r.link.retryAsked = true ∧
          r.link.rxSeq = q.link.rxSeq ∧ SameOtherPorts p s t ∧ t.ctxs = s.ctxs ∧ t.mem = s.mem) ∧
      (clean = true → crcGood bytes = true → f.epoch ≠ q.epoch % 256 →
        ∃ t r, exec (.flitReceive p bytes clean) s = .next t ∧ t.port? p = some r ∧
          r.stale = satAdd 0xFFFFFFFF q.stale 1 ∧ r.link = q.link ∧ SameOtherPorts p s t ∧ t.ctxs = s.ctxs ∧
          t.mem = s.mem) ∧
      (∀ data, clean = true → crcGood bytes = true → f.epoch = q.epoch % 256 → q.opened f = some data →
        f.seq = q.link.rxSeq →
        (s.malformed p q f = false → f.type ≠ 1 →
          ∃ t r, exec (.flitReceive p bytes clean) s = .next t ∧ t.port? p = some r ∧
            r.link.rxSeq = seqMod (q.link.rxSeq + 1) ∧
            r.receivedBytes = q.receivedBytes + (if f.type < 2 then 0 else f.fill) ∧
            r.link.retryAsked = false ∧ r.phase = q.phase ∧ SameOtherPorts p s t) ∧
        (s.malformed p q f = true →
          ∃ t r, exec (.flitReceive p bytes clean) s = .next t ∧ t.port? p = some r ∧
            r.malformed = satAdd 0xFFFFFFFF q.malformed 1 ∧ (r.phase = q.phase ∨ r.phase = .quarantine) ∧
            SameOtherPorts p s t ∧ t.mem = s.mem))) ∧
    (∀ seq, s.port? p = some q → (q.link.fromSeq (seqMod seq)).isEmpty = false → q.link.spent (seqMod seq) = false →
      ∃ t r, exec (.retryRequest p seq) s = .next t ∧ t.port? p = some r ∧
        r.link.resend = (q.link.fromSeq (seqMod seq)).map Prod.fst ∧ r.retries = satAdd 0xFFFF q.retries 1 ∧
        r.phase = q.phase ∧ SameOtherPorts p s t ∧ t.ctxs = s.ctxs ∧ t.mem = s.mem) ∧
    (∀ seq, s.port? p = some q → q.phase = .up → (q.link.fromSeq (seqMod seq)).isEmpty = false →
      q.link.spent (seqMod seq) = true →
      ∃ t r, exec (.retryRequest p seq) s = .next t ∧ t.port? p = some r ∧ r.phase = .probe ∧ SameOtherPorts p s t) ∧
    (∀ x xs, s.port? p = some q → q.link.replay = x :: xs → q.link.spent x.1.seq = false →
      ∃ t r, exec (.ackTimeout p) s = .next t ∧ t.port? p = some r ∧ r.link.resend = q.link.replay.map Prod.fst ∧
        r.link.lastAckAt = t.now ∧ q.link.lastAckAt + 20 ≤ t.now ∧ SameOtherPorts p s t ∧ t.mem = s.mem)

/-- LINK_DOWN, LANE_LOCK_LOSS, PEER_SLOW, LANE_ERROR_INTERVAL and LANE_WIDTH_CHANGE_DONE (R302, R304, R305): a port
that hears nothing or loses 4 lanes is back in PROBE with its epoch's link state gone, failing lanes are retired while
4 are left and what is unacknowledged is sent again on the narrower width, on this side and with the partner, and a
starved VC is reported once per episode. -/
def Obligations.PortsGoDownOrLoseLanes : Prop :=
  ∀ (s : State) (p : Nat) (q : Port) (seq : Nat), s.port? p = some q →
    seq = (q.link.replay.head?.map fun x => x.1.seq).getD 0 →
    (q.phase = .up → ∃ t r, exec (.linkDown p) s = .next t ∧ t.port? p = some r ∧ r.phase = .probe ∧
      r.epoch = q.epoch ∧ r.link = q.link.restart ∧ r.partner = [] ∧ SameOtherPorts p s t ∧ t.mem = s.mem) ∧
    (∀ lanes, q.phase = .up →
      (4 ≤ laneCount (q.lanes &&& lanes) → ∃ t r, exec (.laneLockLoss p lanes) s = .next t ∧ t.port? p = some r ∧
        r.phase = .probe ∧ r.epoch = q.epoch ∧ r.link = q.link.restart ∧ SameOtherPorts p s t ∧ t.mem = s.mem) ∧
      (laneCount (q.lanes &&& lanes) < 4 → exec (.laneLockLoss p lanes) s = .next s)) ∧
    (∀ vc, q.phase = .up → vc < 4 → q.link.credits.getD vc 0 = 0 → (s.nextMsg p vc q.link).isSome = true →
      (q.starved.getD vc false = false → ∃ t, exec (.peerSlow p vc) s = .next t ∧
        t.port? p = some { q with starved := q.starved.set vc true } ∧
        t.sed.bus = s.sed.bus ++ [{ code := 0x3105, detail := 0, src := 0x600 + p, ctx := 0xFF, words := [] }] ∧
        q.link.drySince vc + q.cfg.starveMs * 1000 ≤ t.now ∧ SameOtherPorts p s t ∧ t.mem = s.mem) ∧
      (q.starved.getD vc false = true → exec (.peerSlow p vc) s = .next s)) ∧
    (∀ errs bad, q.phase = .up → bad = (List.range 8).filter (fun i =>
        bitOf q.lanes i && (errs[i]?).any fun e => laneFails e q.cfg) → bad ≠ [] →
      (4 + bad.length ≤ laneCount q.lanes → q.link.spent seq = false →
        ∃ t r, exec (.laneErrorInterval p errs) s = .next t ∧
          t.port? p = some r ∧ r.phase = .up ∧ r.widthChange = true ∧ r.laneRet = satAdd 0xFF q.laneRet bad.length ∧
          r.lanes = bad.foldl (fun m i => m - 2 ^ i) q.lanes ∧ r.link.resend = q.link.replay.map Prod.fst ∧
          SameOtherPorts p s t ∧ t.ctxs = s.ctxs ∧ t.mem = s.mem) ∧
      (laneCount q.lanes < 4 + bad.length ∨ q.link.spent seq = true →
        ∃ t r, exec (.laneErrorInterval p errs) s = .next t ∧
          t.port? p = some r ∧ r.phase = .probe ∧ SameOtherPorts p s t ∧ t.mem = s.mem)) ∧
    (∀ kept lanes, q.phase = .up → lanes = q.lanes &&& kept →
      (4 ≤ laneCount lanes → lanes = q.lanes → ∃ t, exec (.laneWidthChangeDone ⟨p, kept⟩) s = .next t ∧
        t.port? p = some { q with widthChange := false } ∧ SameOtherPorts p s t ∧ t.ctxs = s.ctxs ∧ t.mem = s.mem) ∧
      (4 ≤ laneCount lanes → lanes ≠ q.lanes → q.link.spent seq = false →
        ∃ t r, exec (.laneWidthChangeDone ⟨p, kept⟩) s = .next t ∧ t.port? p = some r ∧ r.phase = .up ∧ r.lanes = lanes ∧
          r.widthChange = false ∧ r.link.resend = q.link.replay.map Prod.fst ∧ SameOtherPorts p s t ∧ t.ctxs = s.ctxs ∧
          t.mem = s.mem) ∧
      (laneCount lanes < 4 → ∃ t r, exec (.laneWidthChangeDone ⟨p, kept⟩) s = .next t ∧ t.port? p = some r ∧
        r.phase = .probe ∧ SameOtherPorts p s t ∧ t.mem = s.mem)) ∧
    (∀ kept, q.phase ≠ .up → exec (.laneWidthChangeDone ⟨p, kept⟩) s = .next s)

/-- The states a port passes through (R300, R301, R303, R306, R307, R309 to R311): a burst heard trains it, a training
that leaves 4 lanes authenticates it and sends its hello and chain on the management VC, a second failed self-test
retires it, a handshake brings it UP in the next epoch with the link keys, the partner's table and this side's table
sent, or back to PROBE, a quarantine ends in PROBE, and keys are renewed by the same steps. -/
def Obligations.PortsTrainAndComeUp : Prop :=
  ∀ (s : State) (p : Nat) (q : Port), s.port? p = some q →
    exec (.probeBurst p) s = .next s ∧
    (q.phase = .probe → s.power.sdsLost.getD (p / 8) false = false → s.dieResetting (p / 8) = false →
      ∃ t, exec (.portBurstHeard p) s = .next t ∧
        t.port? p = some { q with phase := .train } ∧ SameOtherPorts p s t ∧ t.ctxs = s.ctxs ∧ t.mem = s.mem) ∧
    (∀ lanes, q.phase = .train →
      (4 ≤ laneCount lanes → ∃ t r hello, exec (.portTrainDone p true lanes) s = .next t ∧ t.port? p = some r ∧
        r.phase = .auth ∧ r.selfTestFails = 0 ∧ r.lanes = lanes % 256 ∧ r.calOk = bitOf lanes 8 ∧ r.epoch = q.epoch ∧
        r.handshake.nonce.length = 32 ∧ r.handshake.sent = [hello, Config.unitChain] ∧
        r.link.waiting.map OutMsg.bytes = q.link.waiting.map OutMsg.bytes ++ [hello, Config.unitChain] ∧
        SameOtherPorts p s t ∧ t.ctxs = s.ctxs ∧ t.mem = s.mem) ∧
      (laneCount lanes < 4 → ∃ t, exec (.portTrainDone p true lanes) s = .next t ∧
        t.port? p = some { q with phase := .probe, selfTestFails := 0 } ∧ SameOtherPorts p s t ∧ t.ctxs = s.ctxs) ∧
      (q.selfTestFails = 0 → ∃ t, exec (.portTrainDone p false lanes) s = .next t ∧
        t.port? p = some { q with phase := .probe, selfTestFails := 1 } ∧ SameOtherPorts p s t ∧ t.ctxs = s.ctxs) ∧
      (1 ≤ q.selfTestFails → p < 32 → ∃ t r, exec (.portTrainDone p false lanes) s = .next t ∧ t.port? p = some r ∧
        r.phase = .retired ∧ t.caps.ports.getLsbD p = false ∧ t.flash.retiredPorts.getLsbD p = true ∧
        SameOtherPorts p s t ∧ t.mem = s.mem)) ∧
    (∀ h, q.phase = .auth →
      (s.authFailure p q h = none → ∃ t r, exec (.portAuthDone p h) s = .next t ∧ t.port? p = some r ∧ r.phase = .up ∧
        r.epoch = (max q.epoch h.epoch + 1) % 2 ^ 32 ∧ r.crypt = (q.cfg.cryptReq || h.cryptReq) ∧ r.peer = h.digest ∧
        r.partner = h.table ∧ r.keyTx = linkKey q h h.ownLower ∧ r.keyRx = linkKey q h (!h.ownLower) ∧
        r.keyFlits = 0 ∧ r.rxFlits = 0 ∧ r.keyGen = 0 ∧
        r.link = { q.link.restart with waiting := q.link.restart.waiting ++
          [{ vc := 3, bind := 0, started := false, since := s.now, peer := none, bytes := tableBytes (s.bindingTable p) }] } ∧
        SameOtherPorts p s t ∧ t.ctxs = s.ctxs ∧ t.mem = s.mem) ∧
      ((s.authFailure p q h).isSome = true → ∃ t r, exec (.portAuthDone p h) s = .next t ∧ t.port? p = some r ∧
        r.phase = .probe ∧ r.epoch = q.epoch ∧ SameOtherPorts p s t ∧ t.mem = s.mem)) ∧
    (q.phase = .auth → ∃ t r, exec (.peerAuthTimeout p) s = .next t ∧ t.port? p = some r ∧ r.phase = .probe ∧
      r.epoch = q.epoch ∧ SameOtherPorts p s t ∧ t.mem = s.mem) ∧
    (q.phase = .quarantine → ∃ t, exec (.quarantineExpiry p) s = .next t ∧
      t.port? p = some { q with phase := .probe } ∧ q.quarUntil ≤ t.now ∧ SameOtherPorts p s t ∧ t.mem = s.mem) ∧
    (∀ h u x, q.phase = .up → q.crypt = true →
      u = (if 2 ^ 40 ≤ q.keyFlits ∨ 2 ^ 40 ≤ q.rxFlits then s else s.advanceTo (q.keyAt + 86400000000)).sendHello p →
      u.port? p = some x →
      (u.authFailure p x h = none → ∃ t r, exec (.linkKeyUpdate ⟨p, h⟩) s = .next t ∧ t.port? p = some r ∧ r.phase = .up ∧
        r.keyGen = (q.keyGen + 1) % 2 ^ 16 ∧ r.keyTx = linkKey x h h.ownLower ∧ r.keyRx = linkKey x h (!h.ownLower) ∧
        r.keyFlits = 0 ∧ r.rxFlits = 0 ∧ r.keyAt = t.now ∧ r.epoch = q.epoch ∧ r.link.txSeq = q.link.txSeq ∧
        r.link.rxSeq = q.link.rxSeq ∧ SameOtherPorts p s t ∧ t.mem = s.mem) ∧
      ((u.authFailure p x h).isSome = true → ∃ t r, exec (.linkKeyUpdate ⟨p, h⟩) s = .next t ∧ t.port? p = some r ∧
        r.phase = .probe ∧ r.epoch = q.epoch ∧ SameOtherPorts p s t ∧ t.mem = s.mem)) ∧
    (∀ table, q.phase = .up → ∃ t, exec (.bindingTableExchange p table) s = .next t ∧
      t.port? p = some { q with partner := table } ∧ SameOtherPorts p s t ∧ t.ctxs = s.ctxs ∧ t.mem = s.mem)

/-- CONTEXT_RESET, CONTEXT_RESET_STOP_DONE and CONTEXT_RESET_RESTORE_DONE (R377, R383): a context enters its reset
with its state kept and its items gone, a second reset of it does not start, the stop phase takes its work away, and
the restore phase ends in HELD (without a snapshot every counter is 0 but those of the commons objects it owns, R387),
in RESERVED when the context is lost, or in the end of a RELEASE. No bulk handle of the context is open in the stop
phase here. -/
def Obligations.ContextResetsStopAndRestore : Prop :=
  ∀ (s : State) (id : Nat) (c : Ctx), s.ctx? id = some c →
    (∀ cause, c.phase ≠ .resetting → ∃ t d x, exec (.contextReset id cause) s = .next t ∧ t.ctx? id = some d ∧
      d.phase = .resetting ∧ d.reset = some x ∧ x.cause = cause ∧ x.start = s.now ∧ x.stopped = false ∧
      d.steps = c.steps ∧ d.counters = c.counters ∧ d.pages = c.pages ∧ d.plan = c.plan ∧ d.snap = c.snap ∧
      (∀ q ∈ t.scheds, ∀ i ∈ q.2.queue ++ q.2.fwd ++ q.2.bwd, i.ref.ctx ≠ id) ∧
      (∀ q ∈ t.scheds, ∀ y ∈ q.2.running, y.2.1.ref.ctx ≠ id) ∧
      t.mem = s.mem ∧ SameOthers id s t ∧ SameDevice s t) ∧
    (∀ cause, c.phase = .resetting → exec (.contextReset id cause) s = .next s) ∧
    (∀ x, c.reset = some x → x.stopped = false → (∀ se ∈ s.ligil.sessions, ∀ h ∈ se.handles, h.ctx ≠ id) →
      ∃ t d, exec (.contextResetStopDone id) s = .next t ∧ t.ctx? id = some d ∧ d.steps = [] ∧
        d.reset = some { x with stopped := true } ∧ d.phase = c.phase ∧ d.counters = c.counters ∧ d.pages = c.pages ∧
        d.snap = c.snap ∧ (∀ q ∈ t.scheds, ∀ i ∈ q.2.queue ++ q.2.fwd ++ q.2.bwd, i.ref.ctx ≠ id) ∧
        t.mem = s.mem ∧ SameOthers id s t ∧ SameBase s t) ∧
    (∀ x, c.reset = some x → (x.stopped = false ∨ x.dies ≠ []) →
      exec (.contextResetRestoreDone id) s = .next s) ∧
    (∀ x, c.reset = some x → x.stopped = true → x.dies = [] →
      (x.release = false → ∃ t d, exec (.contextResetRestoreDone id) s = .next t ∧ t.ctx? id = some d ∧
        d.reset = none ∧ d.holdAsked = false ∧ (d.phase = .held ∨ d.phase = .reserved) ∧
        (x.lost = true → d.phase = .reserved ∧ d.plan = none ∧ d.steps = []) ∧
        (x.lost = false → c.snap = none → d.phase = .held ∧ d.steps = [] ∧ d.counters = s.keepCommons c [] ∧
          d.plan = c.plan ∧ d.spr.keys = true ∧ d.sieve.granted = [] ∧ d.lgl.heldCode = 0x5002 ∧
          d.lgl.heldDetail = x.cause ∧ (∀ a, c.outside a → memRead t.mem a = memRead s.mem a))) ∧
      (x.release = true → ∃ t, exec (.contextResetRestoreDone id) s = .next t ∧ t.ctx? id = none))

/-- ENGINE_RESET, ENGINE_RESET_DONE, ITEM_RETRY and ENGINE_HANG (R366, R370, R371, R378): an engine in service with
fewer than two resets behind it goes into its reset, the contexts with work issued on it go into theirs, and it comes
out empty; a parity failure is noted and the item stays where it is; an active engine that hangs is reset with cause
7. -/
def Obligations.EnginesAreResetAndReturn : Prop :=
  ∀ (s : State) (e : Engine), s.engineOk e = true →
    (∀ cause, s.boot.phase = .running → s.dieResetting (pathDie (enginePath e)) = false →
      (s.engineRec e).resetting = none → (s.engineRec e).resets.length < 2 →
      ∃ t, exec (.engineReset e cause) s = .next t ∧ (t.engineRec e).resetting = some (cause, s.now) ∧
        (t.engineRec e).parity = [] ∧
        (∀ a, engineArray e = some a → ∀ x ∈ (t.sched (enginePath e)).running, x.1 ≠ a) ∧
        (∀ r ∈ s.issuedOn e, ∀ c, s.ctx? r.ctx = some c → ∃ d, t.ctx? r.ctx = some d ∧ d.phase = .resetting) ∧
        t.mem = s.mem ∧ t.ports = s.ports ∧ t.flash = s.flash) ∧
    (∀ r, (s.engineRec e).resetting = some r → ∃ t, exec (.engineResetDone e) s = .next t ∧
      (t.engineRec e).resetting = none ∧ (t.engineRec e).itemsSince = some 0 ∧ (t.engineRec e).lastRetire = s.now ∧
      t.ctxs = s.ctxs ∧ t.mem = s.mem ∧ t.ports = s.ports) ∧
    (∀ r g, engineGrain e = some g → (s.engineRec e).resetting = none → (s.issuedOn e).contains r = true →
      ((s.engineRec e).parity.filter fun x => decide (s.now ≤ x + 1000000)).length < 2 →
      ∃ t, exec (.itemRetry e r) s = .next t ∧
        (t.engineRec e).parity = (s.engineRec e).parity.filter (fun x => decide (s.now ≤ x + 1000000)) ++ [s.now] ∧
        (t.engineRec e).resetting = none ∧ t.ctxs = s.ctxs ∧ t.scheds = s.scheds ∧ t.mem = s.mem) ∧
    (((s.issuedOn e).filter fun r => (engineArray e).isSome || s.pends r) ≠ [] → s.active (engineUnit e) = true →
      s.boot.phase = .running → s.dieResetting (pathDie (enginePath e)) = false → (s.engineRec e).resetting = none →
      (s.engineRec e).resets.length < 2 → ∃ t, exec (.engineHang e) s = .next t ∧
        (t.engineRec e).resetting = some (7, t.now) ∧ s.now ≤ t.now ∧ t.mem = s.mem ∧ t.ports = s.ports)

/-- PARTITION_RESET and its phases (R34, R302, R376, R379): the die's ports fall silent and every context that uses
the die goes into a reset; the phases follow in the order stop, dump, retire, train, zero; at the end the die's memory
reads 0, its ports are in PROBE and the reset is over; a port whose loopback test fails in two trainings is retired. A
control state error takes the reset of the lowest level that contains it: of the die, or of the chip for what only
that resets. No bulk handle is open at the end here. -/
def Obligations.PartitionResetsRunThroughTheirPhases : Prop :=
  ∀ (s : State) (d : Nat),
    (∀ cause, d < 4 → s.boot.phase = .running → s.dieOk d = true → s.dieResetting d = false →
      ∃ t y, exec (.partitionReset d cause) s = .next t ∧ y ∈ t.resets.parts ∧ y.die = d ∧ y.cause = cause ∧
        y.phase = .stop ∧ y.start = s.now ∧
        (∀ id c, s.ctx? id = some c → c.usesDie d = true → c.reset = none →
          ∃ e, t.ctx? id = some e ∧ e.phase = .resetting) ∧
        (∀ p q, p / 8 = d → t.port? p = some q → q.phase = .probe ∨ q.phase = .off ∨ q.phase = .retired) ∧ t.mem = s.mem ∧
        t.flash = s.flash) ∧
    (∀ r, s.resets.parts.find? (fun x => x.die == d) = some r →
      (r.phase = .stop → (∀ id ∈ r.included, ∀ c, s.ctx? id = some c → ∃ x, c.reset = some x ∧ x.stopped = true) →
        ∃ t, exec (.partitionStopDone d) s = .next t ∧
          t.resets.parts.find? (fun x => x.die == d) = some { r with phase := .dump } ∧ t.ctxs = s.ctxs ∧ t.mem = s.mem) ∧
      (r.phase = .dump → ∃ t, exec (.partitionDumpDone d) s = .next t ∧
        t.resets.parts.find? (fun x => x.die == d) = some { r with phase := .retire } ∧
        (s.sed.dumpCopying = false → t.sed.dump.map Dump.seq = some r.seq ∧ t.sed.dumpCopying = true) ∧
        t.ctxs = s.ctxs ∧ t.mem = s.mem) ∧
      (r.phase = .retire → ∃ t, exec (.partitionRetireDone d) s = .next t ∧
        t.resets.parts.find? (fun x => x.die == d) = some { r with phase := .train } ∧
        (∀ g ∈ s.resets.judged, g / 64 = d → t.caps.grains.getLsbD g = false) ∧ t.mem = s.mem) ∧
      (r.phase = .train → ∀ fails, ∃ t, exec (.partitionTrainDone ⟨d, fails⟩) s = .next t ∧
        t.resets.parts.find? (fun x => x.die == d) = some { r with phase := .zero } ∧
        (∀ i q, i < 8 → s.port? (8 * d + i) = some q → q.phase ≠ .retired → ∃ x, t.port? (8 * d + i) = some x ∧
          (bitOf fails i = false → x = { q with selfTestFails := 0 }) ∧
          (bitOf fails i = true → q.selfTestFails = 0 → x = { q with selfTestFails := 1 }) ∧
          (bitOf fails i = true → 1 ≤ q.selfTestFails → x.phase = .retired)) ∧ t.mem = s.mem) ∧
      (r.phase = .zero → (∀ se ∈ s.ligil.sessions, se.handles = []) →
        ∃ t, exec (.partitionZeroDone d) s = .next t ∧ t.resets.parts = s.resets.parts.filter (fun x => x.die != d) ∧
          (∀ a w, pageOf? a = some w → pageDie w = d → memRead t.mem a = 0) ∧
          (∀ p q, p / 8 = d → s.port? p = some q → q.phase ≠ .retired →
            ∃ x, t.port? p = some x ∧ x.phase = .probe))) ∧
    (∀ path, pathKnown path = true →
      ((1 ≤ path / 256 ∧ path / 256 ≤ 3) ∨ path / 256 = 7 →
        exec (.controllerHeartbeatExpiry path) s = exec (.partitionReset (pathDie path) 9) s) ∧
      (chipDomain path = false → exec (.controlStateUe path) s = exec (.partitionReset (pathDie path) 0xD) s) ∧
      (chipDomain path = true → s.powered = true → exec (.controlStateUe path) s = .next (s.chipReset 0xD)))

/-- CHIP_RESET, MANAGEMENT_HEARTBEAT_EXPIRY, READY_WATCHDOG_EXPIRY, POWER_CYCLE_REQUEST and RESET_ESCALATED (R303,
R330, R369, R374, R380 to R382): a chip reset leaves no context and only session 0, opens the boot lock, keeps the
banks, every record but that of retirements, and port epochs and goes to ROM start, a third counted one to a power
cycle request; a reset that overruns its time becomes the next level's. -/
def Obligations.ChipResetsRestartTheBlock : Prop :=
  ∀ (s : State),
    (∀ cause, s.powered = true → (cause = 0xA → s.boot.thermHold = false) →
      ∃ t, exec (.chipReset cause) s = .next t ∧ t.ctxs = [] ∧ t.ligil.sessions.map Session.id = [0] ∧
        t.ligil.conns = [] ∧ t.boot.lockOpen = true ∧ t.boot.resetCause = cause ∧ t.resets.lastChip = some cause ∧
        t.resets.parts = [] ∧ (t.boot.phase = .romStart ∨ t.boot.phase = .held) ∧
        (countedCause cause = false → t.boot.phase = .romStart) ∧
        (s.resets.chipTimes.length < 2 → t.boot.phase = .romStart) ∧
        (countedCause cause = true →
          2 ≤ (s.resets.chipTimes.filter fun x => decide (s.opMs / 1000 ≤ x + 3600)).length →
          t.boot.phase = .held ∧ t.resets.powerHold = true ∧ t.power.faultN = false) ∧
        (∀ p q, s.port? p = some q → ∃ r, t.port? p = some r ∧ r.epoch = q.epoch ∧
          (r.phase = .off ∨ r.phase = .retired)) ∧
        t.flash.bankA = s.flash.bankA ∧ t.flash.bankB = s.flash.bankB ∧
        t.flash.records0.filter (fun r => r.kind != 0x11) = s.flash.records0.filter (fun r => r.kind != 0x11) ∧
        t.flash.records1.filter (fun r => r.kind != 0x11) = s.flash.records1.filter (fun r => r.kind != 0x11) ∧
        t.flash.rollback = s.flash.rollback) ∧
    (s.powered = true → exec .managementHeartbeatExpiry s = exec (.chipReset 9) s) ∧
    (s.boot.phase = .firmware → ∃ t, exec .readyWatchdogExpiry s = .next t ∧ t.ctxs = [] ∧ t.resets.lastChip = some 9 ∧
      s.boot.handoverAt + 30000000 ≤ t.now) ∧
    (s.powered = true → ∃ t, exec .powerCycleRequest s = .next t ∧ t.boot.phase = .held ∧ t.resets.powerHold = true ∧
      t.power.faultN = false ∧ t.power.ibi = s.power.ibi ++ [0xA5] ∧ t.ctxs = [] ∧ t.sed.flushed = t.sed.nextSeq ∧
      t.flash.records0 = s.flash.records0 ∧ t.flash.records1 = s.flash.records1) ∧
    (∀ id c r, s.ctx? id = some c → c.reset = some r → r.dies = [] →
      exec (.resetEscalated 1 id) s = .next (s.escalateCtx c r)) ∧
    (∀ path e, (pathEngines path).find? (fun e => (s.engineRec e).resetting.isSome) = some e →
      s.boot.phase = .running → engineDie e < 4 → s.dieOk (engineDie e) = true → s.dieResetting (engineDie e) = false →
      ∃ t y, exec (.resetEscalated 2 path) s = .next t ∧ y ∈ t.resets.parts ∧ y.die = engineDie e ∧ y.cause = 6) ∧
    (∀ d r, s.resets.parts.find? (fun x => x.die == d) = some r →
      ∃ t, exec (.resetEscalated 3 d) s = .next t ∧ t.ctxs = [] ∧ t.resets.lastChip = some 6 ∧
        r.start + 5000000 ≤ t.now) ∧
    (∀ x, s.resets.chip = some x → s.powered = true → s.boot.pkgResetN = true → s.boot.pwrGood = true →
      s.boot.thermHold = false → ∃ t, exec (.resetEscalated 4 0) s = .next t ∧ x.2 + 20000000 ≤ t.now ∧
      t.boot.phase = .held ∧ t.resets.powerHold = true ∧ t.power.faultN = false ∧ t.ctxs = [])

/-- The two flood modes (R430, R433): a code in repeat mode is never suppressed, a code in rate mode never folds into
a record that stands in the ring, and every code of the reset group and of severity 5 or 6 is written as its own
record whatever its configuration says, unless a full log loses it (R440). -/
def Obligations.FloodModesKeepTheirPromises : Prop :=
  ∀ (s t : State) (ev : Event), s.writeEvent ev = some t →
    ((s.codeCfg ev.code).rate = false → t.sed.suppressed = s.sed.suppressed ∧
      ∀ k, (t.bucket k).tokens = (s.bucket k).tokens) ∧
    ((s.codeCfg ev.code).rate = true → ∀ r ∈ t.sed.ring, r ∈ s.sed.ring ∨ s.sed.nextSeq ≤ r.seq) ∧
    (ev.code / 0x1000 = 5 ∨ 5 ≤ severity ev.code →
      t.sed.suppressed = s.sed.suppressed ∧ t.sed.buckets = s.sed.buckets ∧
      (∀ r ∈ t.sed.ring, r ∈ s.sed.ring ∨ s.sed.nextSeq ≤ r.seq) ∧
      (5 ≤ severity ev.code ∨ t.sed.lostPending = 0 → ∃ r ∈ t.sed.ring, s.sed.nextSeq ≤ r.seq ∧ r.code = ev.code ∧ r.src = ev.src ∧ r.detail = ev.detail ∧
        r.ctx = ev.ctx ∧ r.rep = 1))

/-- A quarantine (R306): it lasts quar_s seconds, 300 s by default; a further one within 1 h of the end of the one
before doubles the hold time, up to 24 h; and it retires no port. -/
def Obligations.QuarantinesLastAndDouble : Prop :=
  PortCfg.init.quarS = 300 ∧
  (∀ (s : State) (p : Nat) (q : Port), s.port? p = some q → ∃ r, (s.quarantine p).port? p = some r ∧
    r.phase = .quarantine ∧ r.quarUntil = s.now + r.quarHold * 1000000 ∧
    r.quarHold = (if 0 < q.quarantines ∧ s.now ≤ q.quarUntil + 3600 * 1000000 then min (2 * q.quarHold) (24 * 3600)
                  else q.cfg.quarS) ∧
    r.quarantines = satAdd 0xFF q.quarantines 1 ∧ SameOtherPorts p s (s.quarantine p) ∧
    (s.quarantine p).caps = s.caps ∧ (s.quarantine p).flash = s.flash) ∧
  (∀ (s : State) (p : Nat) (q : Port), s.port? p = some q → q.phase = .quarantine →
    ∃ t, exec (.quarantineExpiry p) s = .next t ∧ t.port? p = some { q with phase := .probe } ∧ q.quarUntil ≤ t.now)
end

