-- ==== Sys2Proof/Laws/Memory.lean ====
section
/-! SUPPORT. What the memory operations do: each keeps the canonical form, and what each leaves to be read. -/

namespace Sys2Proof.Machine

/-- The canonical form as two plain facts. -/
theorem Memory.wf_iff (m : List Host.Cell) :
    Memory.wf m = true ↔ m.Pairwise (fun c d => c.1 < d.1) ∧ ∀ c ∈ m, c.2 ≠ unlisted := by
  induction m with
  | nil => simp [Memory.wf]
  | cons c cs ih =>
    cases cs with
    | nil => simp [Memory.wf]
    | cons d ds =>
      simp only [Memory.wf, Bool.and_eq_true, decide_eq_true_eq, bne_iff_ne, ne_eq, ih, List.pairwise_cons,
        List.mem_cons, forall_eq_or_imp]
      constructor
      · rintro ⟨⟨h, hc⟩, ⟨hd, hp⟩, hx, hn⟩
        exact ⟨⟨⟨h, fun a ha => lt_trans h (hd a ha)⟩, hd, hp⟩, hc, hx, hn⟩
      · rintro ⟨⟨⟨h, -⟩, hd, hp⟩, hc, hx, hn⟩
        exact ⟨⟨h, hc⟩, ⟨hd, hp⟩, hx, hn⟩

theorem Memory.wf_nil : Memory.wf [] = true := rfl

theorem Memory.wf_filter {m : List Host.Cell} (h : Memory.wf m = true) (p : Host.Cell → Bool) : Memory.wf (m.filter p) = true := by
  rw [Memory.wf_iff] at *
  exact ⟨h.1.filter _, fun c hc => h.2 c (List.mem_filter.mp hc).1⟩

theorem Memory.wf_memZero {m : List Host.Cell} (h : Memory.wf m = true) (lo len : Nat) : Memory.wf (memZero m lo len) = true :=
  Memory.wf_filter h _

/-- The cells of a splice: strictly rising, listed, and within the range. -/
structure InRange (lo len : Nat) (cells : List Host.Cell) : Prop where
  sorted : cells.Pairwise (fun c d => c.1 < d.1)
  listed : ∀ c ∈ cells, c.2 ≠ unlisted
  within : ∀ c ∈ cells, lo ≤ c.1 ∧ c.1 < lo + len

/-- In a rising list the cells from `lo` on are those that a search past the smaller ones leaves. -/
theorem mem_dropWhile_le {m : List Host.Cell} (h : m.Pairwise (fun c d => c.1 < d.1)) {lo : Nat} {c : Host.Cell}
    (hc : c ∈ m.dropWhile fun c => decide (c.1 < lo)) : lo ≤ c.1 := by
  induction m with
  | nil => simp at hc
  | cons d ds ih =>
    rw [List.pairwise_cons] at h
    by_cases hd : d.1 < lo
    · rw [List.dropWhile_cons_of_pos (by simpa using hd)] at hc; exact ih h.2 hc
    · rw [List.dropWhile_cons_of_neg (by simpa using hd)] at hc
      rcases List.mem_cons.mp hc with rfl | hm
      · omega
      · have := h.1 c hm; omega

theorem Memory.wf_memSplice {m cells : List Host.Cell} {lo len : Nat} (h : Memory.wf m = true) (hc : InRange lo len cells) :
    Memory.wf (memSplice m lo len cells) = true := by
  rw [Memory.wf_iff] at *
  obtain ⟨hs, hn⟩ := h
  have hw : ∀ c ∈ m.takeWhile (fun c => decide (c.1 < lo)), c.1 < lo := fun c hm => by
    simpa using List.mem_takeWhile_imp hm
  have hd : ∀ c ∈ (m.dropWhile fun c => decide (c.1 < lo)).filter
      (fun c => !(decide (lo ≤ c.1) && decide (c.1 < lo + len))), lo + len ≤ c.1 := fun c hm => by
    obtain ⟨h1, h2⟩ := List.mem_filter.mp hm
    have := mem_dropWhile_le hs h1
    simp only [Bool.not_eq_true', Bool.and_eq_false_iff, decide_eq_false_iff_not] at h2
    omega
  refine ⟨?_, ?_⟩
  · rw [memSplice, List.pairwise_append, List.pairwise_append]
    refine ⟨⟨hs.sublist (List.takeWhile_sublist _), hc.sorted, fun a ha b hb => ?_⟩,
      (hs.sublist (List.dropWhile_sublist _)).filter _, fun a ha b hb => ?_⟩
    · have := hw a ha; have := hc.within b hb; omega
    · have hb' := hd b hb
      rcases List.mem_append.mp ha with ha | ha
      · have := hw a ha; omega
      · have := hc.within a ha; omega
  · intro c hm
    rw [memSplice, List.mem_append, List.mem_append] at hm
    rcases hm with (hm | hm) | hm
    · exact hn c ((List.takeWhile_sublist _).subset hm)
    · exact hc.listed c hm
    · exact hn c ((List.dropWhile_sublist _).subset (List.mem_filter.mp hm).1)

theorem inRange_cellsAt (a : Nat) (bs : List Byte) : InRange a bs.length (cellsAt a bs) := by
  induction bs generalizing a with
  | nil => exact ⟨by simp [cellsAt], by simp [cellsAt], by simp [cellsAt]⟩
  | cons b bs ih =>
    obtain ⟨hs, hl, hw⟩ := ih (a + 1)
    by_cases hb : b = unlisted
    · simp only [cellsAt, hb, if_true, List.length_cons]
      exact ⟨hs, hl, fun c hc => by have := hw c hc; omega⟩
    · simp only [cellsAt, hb, if_false, List.length_cons]
      refine ⟨?_, ?_, ?_⟩
      · rw [List.pairwise_cons]; exact ⟨fun c hc => by have := (hw c hc).1; simp only; omega, hs⟩
      · intro c hc; rcases List.mem_cons.mp hc with rfl | hc
        · exact hb
        · exact hl c hc
      · intro c hc; rcases List.mem_cons.mp hc with rfl | hc
        · simp only; omega
        · have := hw c hc; omega

/-- Writing bytes keeps the canonical form. -/
theorem Memory.wf_memWriteList {m : List Host.Cell} (h : Memory.wf m = true) (a : Nat) (bs : List Byte) :
    Memory.wf (memWriteList m a bs) = true :=
  Memory.wf_memSplice h (inRange_cellsAt a bs)

/-- Copying a page keeps the canonical form. -/
theorem Memory.wf_memCopyPage {m : List Host.Cell} (h : Memory.wf m = true) (src dst : Nat) :
    Memory.wf (memCopyPage m src dst) = true := by
  refine Memory.wf_memSplice h ?_
  rw [Memory.wf_iff] at h
  refine ⟨?_, ?_, ?_⟩
  · rw [List.pairwise_map]
    refine (h.1.filter _).imp_of_mem fun {a b} ha hb hab => ?_
    have h1 := (List.mem_filter.mp ha).2
    simp only [Bool.and_eq_true, decide_eq_true_eq] at h1
    simp only; omega
  · intro c hc
    obtain ⟨d, hd, rfl⟩ := List.mem_map.mp hc
    exact h.2 d (List.mem_filter.mp hd).1
  · intro c hc
    obtain ⟨d, hd, rfl⟩ := List.mem_map.mp hc
    have h1 := (List.mem_filter.mp hd).2
    simp only [Bool.and_eq_true, decide_eq_true_eq] at h1
    simp only; omega

/-! ## What is read -/

@[simp] theorem memRead_nil (a : Nat) : memRead [] a = 0 := rfl

theorem memRead_cons (c : Host.Cell) (m : List Host.Cell) (a : Nat) :
    memRead (c :: m) a = if c.1 = a then c.2 else memRead m a := by
  unfold memRead
  by_cases h : c.1 = a <;> simp [h]

/-- A byte is read in the first part that lists it. -/
theorem memRead_append (m n : List Host.Cell) (a : Nat) :
    memRead (m ++ n) a = if m.any (fun c => c.1 == a) then memRead m a else memRead n a := by
  induction m with
  | nil => simp
  | cons c cs ih =>
    by_cases h : c.1 = a
    · simp [memRead_cons, h]
    · simp [memRead_cons, h, ih]

/-- An address that no cell names reads as unlisted. -/
theorem memRead_of_forall_ne {m : List Host.Cell} {a : Nat} (h : ∀ c ∈ m, c.1 ≠ a) : memRead m a = 0 := by
  induction m with
  | nil => rfl
  | cons c cs ih =>
    rw [memRead_cons, if_neg (h c (by simp)), ih fun d hd => h d (by simp [hd])]

/-- A filter that keeps every cell of an address leaves what it reads as. -/
theorem memRead_filter {m : List Host.Cell} {p : Host.Cell → Bool} {a : Nat} (h : ∀ c : Host.Cell, c.1 = a → p c = true) :
    memRead (m.filter p) a = memRead m a := by
  induction m with
  | nil => rfl
  | cons c cs ih =>
    by_cases hp : p c = true
    · rw [List.filter_cons_of_pos hp, memRead_cons, memRead_cons, ih]
    · rw [List.filter_cons_of_neg hp, memRead_cons, ih, if_neg fun e => hp (h c e)]

/-- A zeroed range reads as 0, and nothing else changes. -/
theorem memRead_memZero (m : List Host.Cell) (lo len a : Nat) :
    memRead (memZero m lo len) a = if lo ≤ a ∧ a < lo + len then 0 else memRead m a := by
  split
  · next h =>
    refine memRead_of_forall_ne fun c hc e => ?_
    have := (List.mem_filter.mp hc).2
    simp [e, h.1, h.2] at this
  · next h =>
    refine memRead_filter fun c e => ?_
    simp only [Bool.not_eq_true', Bool.and_eq_false_iff, decide_eq_false_iff_not]
    omega

/-- A spliced range reads as its cells, and nothing else changes. -/
theorem memRead_memSplice (m cells : List Host.Cell) {lo len : Nat}
    (hw : ∀ c ∈ cells, lo ≤ c.1 ∧ c.1 < lo + len) (a : Nat) :
    memRead (memSplice m lo len cells) a = if lo ≤ a ∧ a < lo + len then memRead cells a else memRead m a := by
  have ht : ∀ c ∈ m.takeWhile (fun c => decide (c.1 < lo)), c.1 < lo := fun c hm => by
    simpa using List.mem_takeWhile_imp hm
  rw [memSplice, List.append_assoc, memRead_append]
  split
  · next h =>
    obtain ⟨c, hc, e⟩ := List.any_eq_true.mp h
    have := ht c hc
    have e' : c.1 = a := by simpa using e
    rw [if_neg (by omega)]
    conv_rhs => rw [← List.takeWhile_append_dropWhile (p := fun c : Host.Cell => decide (c.1 < lo)) (l := m)]
    rw [memRead_append, if_pos h]
  · next h =>
    rw [memRead_append]
    by_cases hr : lo ≤ a ∧ a < lo + len
    · rw [if_pos hr]
      split
      · rfl
      · next h2 =>
        rw [memRead_of_forall_ne (m := cells) fun c hc e => h2 (List.any_eq_true.mpr ⟨c, hc, by simpa using e⟩)]
        refine memRead_of_forall_ne fun c hc e => ?_
        have := (List.mem_filter.mp hc).2
        simp [e, hr.1, hr.2] at this
    · rw [if_neg hr, if_neg, memRead_filter]
      · conv_rhs => rw [← List.takeWhile_append_dropWhile (p := fun c : Host.Cell => decide (c.1 < lo)) (l := m)]
        rw [memRead_append, if_neg h]
      · intro c e
        simp only [Bool.not_eq_true', Bool.and_eq_false_iff, decide_eq_false_iff_not]
        omega
      · intro h2
        obtain ⟨c, hc, e⟩ := List.any_eq_true.mp h2
        have := hw c hc
        have e' : c.1 = a := by simpa using e
        omega

theorem memRead_cellsAt (a : Nat) (bs : List Byte) (b : Nat) :
    memRead (cellsAt a bs) b = if a ≤ b ∧ b < a + bs.length then bs.getD (b - a) 0 else 0 := by
  induction bs generalizing a with
  | nil => simp [cellsAt]
  | cons x bs ih =>
    have hr : memRead (cellsAt a (x :: bs)) b = if a = b then x else memRead (cellsAt (a + 1) bs) b := by
      by_cases hx : x = unlisted
      · simp only [cellsAt, hx, if_true]
        split
        · next h =>
          rw [ih, if_neg (by omega)]; rfl
        · rfl
      · simp only [cellsAt, hx, if_false, memRead_cons]
    rw [hr]
    by_cases h : a = b
    · subst h; simp
    · rw [if_neg h, ih]
      by_cases h2 : a + 1 ≤ b ∧ b < a + 1 + bs.length
      · rw [if_pos h2, if_pos (by simp only [List.length_cons]; omega)]
        obtain ⟨k, rfl⟩ : ∃ k, b = a + 1 + k := ⟨b - (a + 1), by omega⟩
        have e1 : a + 1 + k - (a + 1) = k := by omega
        have e2 : a + 1 + k - a = k + 1 := by omega
        rw [e1, e2]; rfl
      · rw [if_neg h2, if_neg (by simp only [List.length_cons]; omega)]

/-- Written bytes are read back, and nothing else changes. -/
theorem memRead_memWriteList (m : List Host.Cell) (a : Nat) (bs : List Byte) (b : Nat) :
    memRead (memWriteList m a bs) b = if a ≤ b ∧ b < a + bs.length then bs.getD (b - a) 0 else memRead m b := by
  rw [memWriteList, memRead_memSplice m _ (inRange_cellsAt a bs).within]
  split
  · next h => rw [memRead_cellsAt, if_pos h]
  · rfl

theorem memRead_map_page (m : List Host.Cell) (s d i : Nat) :
    memRead ((m.filter fun c => decide (s ≤ c.1) && decide (c.1 < s + pageSize)).map fun c => (d + (c.1 - s), c.2)) (d + i) =
      if i < pageSize then memRead m (s + i) else 0 := by
  induction m with
  | nil => simp
  | cons c cs ih =>
    rw [memRead_cons]
    by_cases hp : s ≤ c.1 ∧ c.1 < s + pageSize
    · rw [List.filter_cons_of_pos (by simp [hp.1, hp.2]), List.map_cons, memRead_cons, ih]
      by_cases he : c.1 = s + i
      · rw [if_pos (by simp only; omega), if_pos (by omega), if_pos he]
      · rw [if_neg (by simp only; omega)]; simp only [if_neg he]
    · rw [List.filter_cons_of_neg (by simp; omega), ih]
      by_cases hi : i < pageSize
      · rw [if_pos hi, if_pos hi, if_neg (by omega)]
      · rw [if_neg hi, if_neg hi]

/-- A copied page reads as the page it was copied from did, and nothing else changes. -/
theorem memRead_memCopyPage (m : List Host.Cell) (src dst a : Nat) :
    memRead (memCopyPage m src dst) a =
      if pageAddr dst ≤ a ∧ a < pageAddr dst + pageSize then memRead m (pageAddr src + (a - pageAddr dst))
      else memRead m a := by
  rw [memCopyPage, memRead_memSplice]
  · split
    · next h =>
      obtain ⟨i, rfl⟩ : ∃ i, a = pageAddr dst + i := ⟨a - pageAddr dst, by omega⟩
      have e : pageAddr dst + i - pageAddr dst = i := by omega
      rw [memRead_map_page, if_pos (by omega), e]
    · rfl
  · intro c hc
    obtain ⟨d, hd, rfl⟩ := List.mem_map.mp hc
    have h1 := (List.mem_filter.mp hd).2
    simp only [Bool.and_eq_true, decide_eq_true_eq] at h1
    simp only; omega

end Sys2Proof.Machine
end

