-- ==== Sys2Proof/Laws/State.lean ====
section
/-! SUPPORT. One lemma for each field of the state and each small update: what the update leaves of the field, so
that no later proof unfolds a record update. -/

namespace Sys2Proof.Machine

variable (s : State)

section
variable (id : Nat) (f : Ctx → Ctx)
@[simp] theorem State.mapCtx_pending : (s.mapCtx id f).pending = s.pending := rfl
@[simp] theorem State.mapCtx_now : (s.mapCtx id f).now = s.now := rfl
@[simp] theorem State.mapCtx_free : (s.mapCtx id f).free = s.free := rfl
@[simp] theorem State.mapCtx_caps : (s.mapCtx id f).caps = s.caps := rfl
@[simp] theorem State.mapCtx_mem : (s.mapCtx id f).mem = s.mem := rfl
@[simp] theorem State.mapCtx_ctxs : (s.mapCtx id f).ctxs = s.ctxs.map fun c => if c.id = id then f c else c := rfl
@[simp] theorem State.mapCtx_arbiter : (s.mapCtx id f).arbiter = s.arbiter := rfl
@[simp] theorem State.mapCtx_scheds : (s.mapCtx id f).scheds = s.scheds := rfl
@[simp] theorem State.mapCtx_engines : (s.mapCtx id f).engines = s.engines := rfl
@[simp] theorem State.mapCtx_ports : (s.mapCtx id f).ports = s.ports := rfl
@[simp] theorem State.mapCtx_ligil : (s.mapCtx id f).ligil = s.ligil := rfl
@[simp] theorem State.mapCtx_resets : (s.mapCtx id f).resets = s.resets := rfl
@[simp] theorem State.mapCtx_boot : (s.mapCtx id f).boot = s.boot := rfl
@[simp] theorem State.mapCtx_flash : (s.mapCtx id f).flash = s.flash := rfl
@[simp] theorem State.mapCtx_sed : (s.mapCtx id f).sed = s.sed := rfl
@[simp] theorem State.mapCtx_power : (s.mapCtx id f).power = s.power := rfl
@[simp] theorem State.mapCtx_bg : (s.mapCtx id f).bg = s.bg := rfl
@[simp] theorem State.mapCtx_tap : (s.mapCtx id f).tap = s.tap := rfl
end

section
variable (code detail src ctx : Nat)
@[simp] theorem State.raise_pending : (s.raise code detail src ctx).pending = s.pending := rfl
@[simp] theorem State.raise_now : (s.raise code detail src ctx).now = s.now := rfl
@[simp] theorem State.raise_free : (s.raise code detail src ctx).free = s.free := rfl
@[simp] theorem State.raise_caps : (s.raise code detail src ctx).caps = s.caps := rfl
@[simp] theorem State.raise_mem : (s.raise code detail src ctx).mem = s.mem := rfl
@[simp] theorem State.raise_ctxs : (s.raise code detail src ctx).ctxs = s.ctxs := rfl
@[simp] theorem State.raise_arbiter : (s.raise code detail src ctx).arbiter = s.arbiter := rfl
@[simp] theorem State.raise_scheds : (s.raise code detail src ctx).scheds = s.scheds := rfl
@[simp] theorem State.raise_engines : (s.raise code detail src ctx).engines = s.engines := rfl
@[simp] theorem State.raise_ports : (s.raise code detail src ctx).ports = s.ports := rfl
@[simp] theorem State.raise_ligil : (s.raise code detail src ctx).ligil = s.ligil := rfl
@[simp] theorem State.raise_resets : (s.raise code detail src ctx).resets = s.resets := rfl
@[simp] theorem State.raise_boot : (s.raise code detail src ctx).boot = s.boot := rfl
@[simp] theorem State.raise_flash : (s.raise code detail src ctx).flash = s.flash := rfl
@[simp] theorem State.raise_sed : (s.raise code detail src ctx).sed = { s.sed with bus := s.sed.bus ++ [{ code, detail := min detail 0xFFFF, src, ctx, words := [] }] } := rfl
@[simp] theorem State.raise_power : (s.raise code detail src ctx).power = s.power := rfl
@[simp] theorem State.raise_bg : (s.raise code detail src ctx).bg = s.bg := rfl
@[simp] theorem State.raise_tap : (s.raise code detail src ctx).tap = s.tap := rfl
end

section
variable (code detail src ctx : Nat) (ws : List Nat)
@[simp] theorem State.raiseWords_pending : (s.raiseWords code detail src ctx ws).pending = s.pending := rfl
@[simp] theorem State.raiseWords_now : (s.raiseWords code detail src ctx ws).now = s.now := rfl
@[simp] theorem State.raiseWords_free : (s.raiseWords code detail src ctx ws).free = s.free := rfl
@[simp] theorem State.raiseWords_caps : (s.raiseWords code detail src ctx ws).caps = s.caps := rfl
@[simp] theorem State.raiseWords_mem : (s.raiseWords code detail src ctx ws).mem = s.mem := rfl
@[simp] theorem State.raiseWords_ctxs : (s.raiseWords code detail src ctx ws).ctxs = s.ctxs := rfl
@[simp] theorem State.raiseWords_arbiter : (s.raiseWords code detail src ctx ws).arbiter = s.arbiter := rfl
@[simp] theorem State.raiseWords_scheds : (s.raiseWords code detail src ctx ws).scheds = s.scheds := rfl
@[simp] theorem State.raiseWords_engines : (s.raiseWords code detail src ctx ws).engines = s.engines := rfl
@[simp] theorem State.raiseWords_ports : (s.raiseWords code detail src ctx ws).ports = s.ports := rfl
@[simp] theorem State.raiseWords_ligil : (s.raiseWords code detail src ctx ws).ligil = s.ligil := rfl
@[simp] theorem State.raiseWords_resets : (s.raiseWords code detail src ctx ws).resets = s.resets := rfl
@[simp] theorem State.raiseWords_boot : (s.raiseWords code detail src ctx ws).boot = s.boot := rfl
@[simp] theorem State.raiseWords_flash : (s.raiseWords code detail src ctx ws).flash = s.flash := rfl
@[simp] theorem State.raiseWords_sed : (s.raiseWords code detail src ctx ws).sed = { s.sed with bus := s.sed.bus ++ [{ code, detail := min detail 0xFFFF, src, ctx, words := ws }] } := rfl
@[simp] theorem State.raiseWords_power : (s.raiseWords code detail src ctx ws).power = s.power := rfl
@[simp] theorem State.raiseWords_bg : (s.raiseWords code detail src ctx ws).bg = s.bg := rfl
@[simp] theorem State.raiseWords_tap : (s.raiseWords code detail src ctx ws).tap = s.tap := rfl
end

section
variable (id : Nat) (n : Notice)
@[simp] theorem State.notifySession_pending : (s.notifySession id n).pending = s.pending := rfl
@[simp] theorem State.notifySession_now : (s.notifySession id n).now = s.now := rfl
@[simp] theorem State.notifySession_free : (s.notifySession id n).free = s.free := rfl
@[simp] theorem State.notifySession_caps : (s.notifySession id n).caps = s.caps := rfl
@[simp] theorem State.notifySession_mem : (s.notifySession id n).mem = s.mem := rfl
@[simp] theorem State.notifySession_ctxs : (s.notifySession id n).ctxs = s.ctxs := rfl
@[simp] theorem State.notifySession_arbiter : (s.notifySession id n).arbiter = s.arbiter := rfl
@[simp] theorem State.notifySession_scheds : (s.notifySession id n).scheds = s.scheds := rfl
@[simp] theorem State.notifySession_engines : (s.notifySession id n).engines = s.engines := rfl
@[simp] theorem State.notifySession_ports : (s.notifySession id n).ports = s.ports := rfl
@[simp] theorem State.notifySession_resets : (s.notifySession id n).resets = s.resets := rfl
@[simp] theorem State.notifySession_boot : (s.notifySession id n).boot = s.boot := rfl
@[simp] theorem State.notifySession_flash : (s.notifySession id n).flash = s.flash := rfl
@[simp] theorem State.notifySession_sed : (s.notifySession id n).sed = s.sed := rfl
@[simp] theorem State.notifySession_power : (s.notifySession id n).power = s.power := rfl
@[simp] theorem State.notifySession_bg : (s.notifySession id n).bg = s.bg := rfl
@[simp] theorem State.notifySession_tap : (s.notifySession id n).tap = s.tap := rfl
end

section
variable (a : Nat) (bs : List Byte)
@[simp] theorem State.pokes_pending : (s.pokes a bs).pending = s.pending := rfl
@[simp] theorem State.pokes_now : (s.pokes a bs).now = s.now := rfl
@[simp] theorem State.pokes_free : (s.pokes a bs).free = s.free := rfl
@[simp] theorem State.pokes_caps : (s.pokes a bs).caps = s.caps := rfl
@[simp] theorem State.pokes_mem : (s.pokes a bs).mem = memWriteList s.mem a bs := rfl
@[simp] theorem State.pokes_ctxs : (s.pokes a bs).ctxs = s.ctxs := rfl
@[simp] theorem State.pokes_arbiter : (s.pokes a bs).arbiter = s.arbiter := rfl
@[simp] theorem State.pokes_scheds : (s.pokes a bs).scheds = s.scheds := rfl
@[simp] theorem State.pokes_engines : (s.pokes a bs).engines = s.engines := rfl
@[simp] theorem State.pokes_ports : (s.pokes a bs).ports = s.ports := rfl
@[simp] theorem State.pokes_ligil : (s.pokes a bs).ligil = s.ligil := rfl
@[simp] theorem State.pokes_resets : (s.pokes a bs).resets = s.resets := rfl
@[simp] theorem State.pokes_boot : (s.pokes a bs).boot = s.boot := rfl
@[simp] theorem State.pokes_flash : (s.pokes a bs).flash = s.flash := rfl
@[simp] theorem State.pokes_sed : (s.pokes a bs).sed = s.sed := rfl
@[simp] theorem State.pokes_power : (s.pokes a bs).power = s.power := rfl
@[simp] theorem State.pokes_bg : (s.pokes a bs).bg = { s.bg with ueWords := ueLeft s.bg.ueWords a bs.length } := rfl
@[simp] theorem State.pokes_tap : (s.pokes a bs).tap = s.tap := rfl
end

section
variable (e : Engine) (f : EngineRec → EngineRec)
@[simp] theorem State.mapEngine_pending : (s.mapEngine e f).pending = s.pending := rfl
@[simp] theorem State.mapEngine_now : (s.mapEngine e f).now = s.now := rfl
@[simp] theorem State.mapEngine_free : (s.mapEngine e f).free = s.free := rfl
@[simp] theorem State.mapEngine_caps : (s.mapEngine e f).caps = s.caps := rfl
@[simp] theorem State.mapEngine_mem : (s.mapEngine e f).mem = s.mem := rfl
@[simp] theorem State.mapEngine_ctxs : (s.mapEngine e f).ctxs = s.ctxs := rfl
@[simp] theorem State.mapEngine_arbiter : (s.mapEngine e f).arbiter = s.arbiter := rfl
@[simp] theorem State.mapEngine_scheds : (s.mapEngine e f).scheds = s.scheds := rfl
@[simp] theorem State.mapEngine_ports : (s.mapEngine e f).ports = s.ports := rfl
@[simp] theorem State.mapEngine_ligil : (s.mapEngine e f).ligil = s.ligil := rfl
@[simp] theorem State.mapEngine_resets : (s.mapEngine e f).resets = s.resets := rfl
@[simp] theorem State.mapEngine_boot : (s.mapEngine e f).boot = s.boot := rfl
@[simp] theorem State.mapEngine_flash : (s.mapEngine e f).flash = s.flash := rfl
@[simp] theorem State.mapEngine_sed : (s.mapEngine e f).sed = s.sed := rfl
@[simp] theorem State.mapEngine_power : (s.mapEngine e f).power = s.power := rfl
@[simp] theorem State.mapEngine_bg : (s.mapEngine e f).bg = s.bg := rfl
@[simp] theorem State.mapEngine_tap : (s.mapEngine e f).tap = s.tap := rfl
end

section
variable (e : Engine)
@[simp] theorem State.engineRetires_pending : (s.engineRetires e).pending = s.pending := rfl
@[simp] theorem State.engineRetires_now : (s.engineRetires e).now = s.now := rfl
@[simp] theorem State.engineRetires_free : (s.engineRetires e).free = s.free := rfl
@[simp] theorem State.engineRetires_caps : (s.engineRetires e).caps = s.caps := rfl
@[simp] theorem State.engineRetires_mem : (s.engineRetires e).mem = s.mem := rfl
@[simp] theorem State.engineRetires_ctxs : (s.engineRetires e).ctxs = s.ctxs := rfl
@[simp] theorem State.engineRetires_arbiter : (s.engineRetires e).arbiter = s.arbiter := rfl
@[simp] theorem State.engineRetires_scheds : (s.engineRetires e).scheds = s.scheds := rfl
@[simp] theorem State.engineRetires_ports : (s.engineRetires e).ports = s.ports := rfl
@[simp] theorem State.engineRetires_ligil : (s.engineRetires e).ligil = s.ligil := rfl
@[simp] theorem State.engineRetires_resets : (s.engineRetires e).resets = s.resets := rfl
@[simp] theorem State.engineRetires_boot : (s.engineRetires e).boot = s.boot := rfl
@[simp] theorem State.engineRetires_flash : (s.engineRetires e).flash = s.flash := rfl
@[simp] theorem State.engineRetires_sed : (s.engineRetires e).sed = s.sed := rfl
@[simp] theorem State.engineRetires_power : (s.engineRetires e).power = s.power := rfl
@[simp] theorem State.engineRetires_bg : (s.engineRetires e).bg = s.bg := rfl
@[simp] theorem State.engineRetires_tap : (s.engineRetires e).tap = s.tap := rfl
end

section
variable (e n : Nat)
@[simp] theorem State.engineMoved_pending : (s.engineMoved e n).pending = s.pending := rfl
@[simp] theorem State.engineMoved_now : (s.engineMoved e n).now = s.now := rfl
@[simp] theorem State.engineMoved_free : (s.engineMoved e n).free = s.free := rfl
@[simp] theorem State.engineMoved_caps : (s.engineMoved e n).caps = s.caps := rfl
@[simp] theorem State.engineMoved_mem : (s.engineMoved e n).mem = s.mem := rfl
@[simp] theorem State.engineMoved_ctxs : (s.engineMoved e n).ctxs = s.ctxs := rfl
@[simp] theorem State.engineMoved_arbiter : (s.engineMoved e n).arbiter = s.arbiter := rfl
@[simp] theorem State.engineMoved_scheds : (s.engineMoved e n).scheds = s.scheds := rfl
@[simp] theorem State.engineMoved_ports : (s.engineMoved e n).ports = s.ports := rfl
@[simp] theorem State.engineMoved_ligil : (s.engineMoved e n).ligil = s.ligil := rfl
@[simp] theorem State.engineMoved_resets : (s.engineMoved e n).resets = s.resets := rfl
@[simp] theorem State.engineMoved_boot : (s.engineMoved e n).boot = s.boot := rfl
@[simp] theorem State.engineMoved_flash : (s.engineMoved e n).flash = s.flash := rfl
@[simp] theorem State.engineMoved_sed : (s.engineMoved e n).sed = s.sed := rfl
@[simp] theorem State.engineMoved_power : (s.engineMoved e n).power = s.power := rfl
@[simp] theorem State.engineMoved_bg : (s.engineMoved e n).bg = s.bg := rfl
@[simp] theorem State.engineMoved_tap : (s.engineMoved e n).tap = s.tap := rfl
end

section
variable (b : Bucket)
@[simp] theorem State.setBucket_pending : (s.setBucket b).pending = s.pending := rfl
@[simp] theorem State.setBucket_now : (s.setBucket b).now = s.now := rfl
@[simp] theorem State.setBucket_free : (s.setBucket b).free = s.free := rfl
@[simp] theorem State.setBucket_caps : (s.setBucket b).caps = s.caps := rfl
@[simp] theorem State.setBucket_mem : (s.setBucket b).mem = s.mem := rfl
@[simp] theorem State.setBucket_ctxs : (s.setBucket b).ctxs = s.ctxs := rfl
@[simp] theorem State.setBucket_arbiter : (s.setBucket b).arbiter = s.arbiter := rfl
@[simp] theorem State.setBucket_scheds : (s.setBucket b).scheds = s.scheds := rfl
@[simp] theorem State.setBucket_engines : (s.setBucket b).engines = s.engines := rfl
@[simp] theorem State.setBucket_ports : (s.setBucket b).ports = s.ports := rfl
@[simp] theorem State.setBucket_ligil : (s.setBucket b).ligil = s.ligil := rfl
@[simp] theorem State.setBucket_resets : (s.setBucket b).resets = s.resets := rfl
@[simp] theorem State.setBucket_boot : (s.setBucket b).boot = s.boot := rfl
@[simp] theorem State.setBucket_flash : (s.setBucket b).flash = s.flash := rfl
@[simp] theorem State.setBucket_power : (s.setBucket b).power = s.power := rfl
@[simp] theorem State.setBucket_bg : (s.setBucket b).bg = s.bg := rfl
@[simp] theorem State.setBucket_tap : (s.setBucket b).tap = s.tap := rfl
end

section
variable (id : Nat) (f : Session → Session)
@[simp] theorem State.mapSession_pending : (s.mapSession id f).pending = s.pending := rfl
@[simp] theorem State.mapSession_now : (s.mapSession id f).now = s.now := rfl
@[simp] theorem State.mapSession_free : (s.mapSession id f).free = s.free := rfl
@[simp] theorem State.mapSession_caps : (s.mapSession id f).caps = s.caps := rfl
@[simp] theorem State.mapSession_mem : (s.mapSession id f).mem = s.mem := rfl
@[simp] theorem State.mapSession_ctxs : (s.mapSession id f).ctxs = s.ctxs := rfl
@[simp] theorem State.mapSession_arbiter : (s.mapSession id f).arbiter = s.arbiter := rfl
@[simp] theorem State.mapSession_scheds : (s.mapSession id f).scheds = s.scheds := rfl
@[simp] theorem State.mapSession_engines : (s.mapSession id f).engines = s.engines := rfl
@[simp] theorem State.mapSession_ports : (s.mapSession id f).ports = s.ports := rfl
@[simp] theorem State.mapSession_ligil : (s.mapSession id f).ligil = { s.ligil with sessions := s.ligil.sessions.map fun x => if x.id = id then f x else x } := rfl
@[simp] theorem State.mapSession_resets : (s.mapSession id f).resets = s.resets := rfl
@[simp] theorem State.mapSession_boot : (s.mapSession id f).boot = s.boot := rfl
@[simp] theorem State.mapSession_flash : (s.mapSession id f).flash = s.flash := rfl
@[simp] theorem State.mapSession_sed : (s.mapSession id f).sed = s.sed := rfl
@[simp] theorem State.mapSession_power : (s.mapSession id f).power = s.power := rfl
@[simp] theorem State.mapSession_bg : (s.mapSession id f).bg = s.bg := rfl
@[simp] theorem State.mapSession_tap : (s.mapSession id f).tap = s.tap := rfl
end

section
variable (id : Nat) (b : Busy) (sl : Slot)
@[simp] theorem State.setBusy_pending : (s.setBusy id b sl).pending = s.pending := rfl
@[simp] theorem State.setBusy_now : (s.setBusy id b sl).now = s.now := rfl
@[simp] theorem State.setBusy_free : (s.setBusy id b sl).free = s.free := rfl
@[simp] theorem State.setBusy_caps : (s.setBusy id b sl).caps = s.caps := rfl
@[simp] theorem State.setBusy_mem : (s.setBusy id b sl).mem = s.mem := rfl
@[simp] theorem State.setBusy_ctxs : (s.setBusy id b sl).ctxs = s.ctxs := rfl
@[simp] theorem State.setBusy_arbiter : (s.setBusy id b sl).arbiter = s.arbiter := rfl
@[simp] theorem State.setBusy_scheds : (s.setBusy id b sl).scheds = s.scheds := rfl
@[simp] theorem State.setBusy_engines : (s.setBusy id b sl).engines = s.engines := rfl
@[simp] theorem State.setBusy_ports : (s.setBusy id b sl).ports = s.ports := rfl
@[simp] theorem State.setBusy_resets : (s.setBusy id b sl).resets = s.resets := rfl
@[simp] theorem State.setBusy_boot : (s.setBusy id b sl).boot = s.boot := rfl
@[simp] theorem State.setBusy_flash : (s.setBusy id b sl).flash = s.flash := rfl
@[simp] theorem State.setBusy_sed : (s.setBusy id b sl).sed = s.sed := rfl
@[simp] theorem State.setBusy_power : (s.setBusy id b sl).power = s.power := rfl
@[simp] theorem State.setBusy_bg : (s.setBusy id b sl).bg = s.bg := rfl
@[simp] theorem State.setBusy_tap : (s.setBusy id b sl).tap = s.tap := rfl
end

section
variable (c : Instr)
@[simp] theorem State.deferCmd_pending : (s.deferCmd c).pending = s.pending := rfl
@[simp] theorem State.deferCmd_now : (s.deferCmd c).now = s.now := rfl
@[simp] theorem State.deferCmd_free : (s.deferCmd c).free = s.free := rfl
@[simp] theorem State.deferCmd_caps : (s.deferCmd c).caps = s.caps := rfl
@[simp] theorem State.deferCmd_mem : (s.deferCmd c).mem = s.mem := rfl
@[simp] theorem State.deferCmd_ctxs : (s.deferCmd c).ctxs = s.ctxs := rfl
@[simp] theorem State.deferCmd_arbiter : (s.deferCmd c).arbiter = s.arbiter := rfl
@[simp] theorem State.deferCmd_scheds : (s.deferCmd c).scheds = s.scheds := rfl
@[simp] theorem State.deferCmd_engines : (s.deferCmd c).engines = s.engines := rfl
@[simp] theorem State.deferCmd_ports : (s.deferCmd c).ports = s.ports := rfl
@[simp] theorem State.deferCmd_ligil : (s.deferCmd c).ligil = { s.ligil with deferred := s.ligil.deferred ++ [c] } := rfl
@[simp] theorem State.deferCmd_resets : (s.deferCmd c).resets = s.resets := rfl
@[simp] theorem State.deferCmd_boot : (s.deferCmd c).boot = s.boot := rfl
@[simp] theorem State.deferCmd_flash : (s.deferCmd c).flash = s.flash := rfl
@[simp] theorem State.deferCmd_sed : (s.deferCmd c).sed = s.sed := rfl
@[simp] theorem State.deferCmd_power : (s.deferCmd c).power = s.power := rfl
@[simp] theorem State.deferCmd_bg : (s.deferCmd c).bg = s.bg := rfl
@[simp] theorem State.deferCmd_tap : (s.deferCmd c).tap = s.tap := rfl
end

section
variable (id : Nat) (sl : Slot)
@[simp] theorem State.advanceSeq_pending : (s.advanceSeq id sl).pending = s.pending := rfl
@[simp] theorem State.advanceSeq_now : (s.advanceSeq id sl).now = s.now := rfl
@[simp] theorem State.advanceSeq_free : (s.advanceSeq id sl).free = s.free := rfl
@[simp] theorem State.advanceSeq_caps : (s.advanceSeq id sl).caps = s.caps := rfl
@[simp] theorem State.advanceSeq_mem : (s.advanceSeq id sl).mem = s.mem := rfl
@[simp] theorem State.advanceSeq_ctxs : (s.advanceSeq id sl).ctxs = s.ctxs := rfl
@[simp] theorem State.advanceSeq_arbiter : (s.advanceSeq id sl).arbiter = s.arbiter := rfl
@[simp] theorem State.advanceSeq_scheds : (s.advanceSeq id sl).scheds = s.scheds := rfl
@[simp] theorem State.advanceSeq_engines : (s.advanceSeq id sl).engines = s.engines := rfl
@[simp] theorem State.advanceSeq_ports : (s.advanceSeq id sl).ports = s.ports := rfl
@[simp] theorem State.advanceSeq_resets : (s.advanceSeq id sl).resets = s.resets := rfl
@[simp] theorem State.advanceSeq_boot : (s.advanceSeq id sl).boot = s.boot := rfl
@[simp] theorem State.advanceSeq_flash : (s.advanceSeq id sl).flash = s.flash := rfl
@[simp] theorem State.advanceSeq_sed : (s.advanceSeq id sl).sed = s.sed := rfl
@[simp] theorem State.advanceSeq_power : (s.advanceSeq id sl).power = s.power := rfl
@[simp] theorem State.advanceSeq_bg : (s.advanceSeq id sl).bg = s.bg := rfl
@[simp] theorem State.advanceSeq_tap : (s.advanceSeq id sl).tap = s.tap := rfl
end

section
variable (se : Session)
@[simp] theorem State.keepEvents_pending : (s.keepEvents se).pending = s.pending := rfl
@[simp] theorem State.keepEvents_now : (s.keepEvents se).now = s.now := rfl
@[simp] theorem State.keepEvents_free : (s.keepEvents se).free = s.free := rfl
@[simp] theorem State.keepEvents_caps : (s.keepEvents se).caps = s.caps := rfl
@[simp] theorem State.keepEvents_mem : (s.keepEvents se).mem = s.mem := rfl
@[simp] theorem State.keepEvents_arbiter : (s.keepEvents se).arbiter = s.arbiter := rfl
@[simp] theorem State.keepEvents_scheds : (s.keepEvents se).scheds = s.scheds := rfl
@[simp] theorem State.keepEvents_engines : (s.keepEvents se).engines = s.engines := rfl
@[simp] theorem State.keepEvents_ports : (s.keepEvents se).ports = s.ports := rfl
@[simp] theorem State.keepEvents_ligil : (s.keepEvents se).ligil = s.ligil := rfl
@[simp] theorem State.keepEvents_resets : (s.keepEvents se).resets = s.resets := rfl
@[simp] theorem State.keepEvents_boot : (s.keepEvents se).boot = s.boot := rfl
@[simp] theorem State.keepEvents_flash : (s.keepEvents se).flash = s.flash := rfl
@[simp] theorem State.keepEvents_sed : (s.keepEvents se).sed = s.sed := rfl
@[simp] theorem State.keepEvents_power : (s.keepEvents se).power = s.power := rfl
@[simp] theorem State.keepEvents_bg : (s.keepEvents se).bg = s.bg := rfl
@[simp] theorem State.keepEvents_tap : (s.keepEvents se).tap = s.tap := rfl
end

section
variable (g : Nat) (q : Sched)
@[simp] theorem State.setSched_pending : (s.setSched g q).pending = s.pending := rfl
@[simp] theorem State.setSched_now : (s.setSched g q).now = s.now := rfl
@[simp] theorem State.setSched_free : (s.setSched g q).free = s.free := rfl
@[simp] theorem State.setSched_caps : (s.setSched g q).caps = s.caps := rfl
@[simp] theorem State.setSched_mem : (s.setSched g q).mem = s.mem := rfl
@[simp] theorem State.setSched_ctxs : (s.setSched g q).ctxs = s.ctxs := rfl
@[simp] theorem State.setSched_arbiter : (s.setSched g q).arbiter = s.arbiter := rfl
@[simp] theorem State.setSched_scheds : (s.setSched g q).scheds = setKey s.scheds g q := rfl
@[simp] theorem State.setSched_engines : (s.setSched g q).engines = s.engines := rfl
@[simp] theorem State.setSched_ports : (s.setSched g q).ports = s.ports := rfl
@[simp] theorem State.setSched_ligil : (s.setSched g q).ligil = s.ligil := rfl
@[simp] theorem State.setSched_resets : (s.setSched g q).resets = s.resets := rfl
@[simp] theorem State.setSched_boot : (s.setSched g q).boot = s.boot := rfl
@[simp] theorem State.setSched_flash : (s.setSched g q).flash = s.flash := rfl
@[simp] theorem State.setSched_sed : (s.setSched g q).sed = s.sed := rfl
@[simp] theorem State.setSched_power : (s.setSched g q).power = s.power := rfl
@[simp] theorem State.setSched_bg : (s.setSched g q).bg = s.bg := rfl
@[simp] theorem State.setSched_tap : (s.setSched g q).tap = s.tap := rfl
end

section
variable (id : Nat) (f : CommonsObj → CommonsObj)
@[simp] theorem State.mapObject_pending : (s.mapObject id f).pending = s.pending := rfl
@[simp] theorem State.mapObject_now : (s.mapObject id f).now = s.now := rfl
@[simp] theorem State.mapObject_free : (s.mapObject id f).free = s.free := rfl
@[simp] theorem State.mapObject_caps : (s.mapObject id f).caps = s.caps := rfl
@[simp] theorem State.mapObject_mem : (s.mapObject id f).mem = s.mem := rfl
@[simp] theorem State.mapObject_ctxs : (s.mapObject id f).ctxs = s.ctxs := rfl
@[simp] theorem State.mapObject_arbiter : (s.mapObject id f).arbiter = { s.arbiter with objects := s.arbiter.objects.map fun o => if o.entry.id = id then f o else o } := rfl
@[simp] theorem State.mapObject_scheds : (s.mapObject id f).scheds = s.scheds := rfl
@[simp] theorem State.mapObject_engines : (s.mapObject id f).engines = s.engines := rfl
@[simp] theorem State.mapObject_ports : (s.mapObject id f).ports = s.ports := rfl
@[simp] theorem State.mapObject_ligil : (s.mapObject id f).ligil = s.ligil := rfl
@[simp] theorem State.mapObject_resets : (s.mapObject id f).resets = s.resets := rfl
@[simp] theorem State.mapObject_boot : (s.mapObject id f).boot = s.boot := rfl
@[simp] theorem State.mapObject_flash : (s.mapObject id f).flash = s.flash := rfl
@[simp] theorem State.mapObject_sed : (s.mapObject id f).sed = s.sed := rfl
@[simp] theorem State.mapObject_power : (s.mapObject id f).power = s.power := rfl
@[simp] theorem State.mapObject_bg : (s.mapObject id f).bg = s.bg := rfl
@[simp] theorem State.mapObject_tap : (s.mapObject id f).tap = s.tap := rfl
end

section
variable (r : InstrRef) (f : Placed → Placed)
@[simp] theorem State.mapPlaced_pending : (s.mapPlaced r f).pending = s.pending := rfl
@[simp] theorem State.mapPlaced_now : (s.mapPlaced r f).now = s.now := rfl
@[simp] theorem State.mapPlaced_free : (s.mapPlaced r f).free = s.free := rfl
@[simp] theorem State.mapPlaced_caps : (s.mapPlaced r f).caps = s.caps := rfl
@[simp] theorem State.mapPlaced_mem : (s.mapPlaced r f).mem = s.mem := rfl
@[simp] theorem State.mapPlaced_arbiter : (s.mapPlaced r f).arbiter = s.arbiter := rfl
@[simp] theorem State.mapPlaced_scheds : (s.mapPlaced r f).scheds = s.scheds := rfl
@[simp] theorem State.mapPlaced_engines : (s.mapPlaced r f).engines = s.engines := rfl
@[simp] theorem State.mapPlaced_ports : (s.mapPlaced r f).ports = s.ports := rfl
@[simp] theorem State.mapPlaced_ligil : (s.mapPlaced r f).ligil = s.ligil := rfl
@[simp] theorem State.mapPlaced_resets : (s.mapPlaced r f).resets = s.resets := rfl
@[simp] theorem State.mapPlaced_boot : (s.mapPlaced r f).boot = s.boot := rfl
@[simp] theorem State.mapPlaced_flash : (s.mapPlaced r f).flash = s.flash := rfl
@[simp] theorem State.mapPlaced_sed : (s.mapPlaced r f).sed = s.sed := rfl
@[simp] theorem State.mapPlaced_power : (s.mapPlaced r f).power = s.power := rfl
@[simp] theorem State.mapPlaced_bg : (s.mapPlaced r f).bg = s.bg := rfl
@[simp] theorem State.mapPlaced_tap : (s.mapPlaced r f).tap = s.tap := rfl
end

section
variable (r : InstrRef) (ph : Phase)
@[simp] theorem State.setPhase_pending : (s.setPhase r ph).pending = s.pending := rfl
@[simp] theorem State.setPhase_now : (s.setPhase r ph).now = s.now := rfl
@[simp] theorem State.setPhase_free : (s.setPhase r ph).free = s.free := rfl
@[simp] theorem State.setPhase_caps : (s.setPhase r ph).caps = s.caps := rfl
@[simp] theorem State.setPhase_mem : (s.setPhase r ph).mem = s.mem := rfl
@[simp] theorem State.setPhase_arbiter : (s.setPhase r ph).arbiter = s.arbiter := rfl
@[simp] theorem State.setPhase_scheds : (s.setPhase r ph).scheds = s.scheds := rfl
@[simp] theorem State.setPhase_engines : (s.setPhase r ph).engines = s.engines := rfl
@[simp] theorem State.setPhase_ports : (s.setPhase r ph).ports = s.ports := rfl
@[simp] theorem State.setPhase_ligil : (s.setPhase r ph).ligil = s.ligil := rfl
@[simp] theorem State.setPhase_resets : (s.setPhase r ph).resets = s.resets := rfl
@[simp] theorem State.setPhase_boot : (s.setPhase r ph).boot = s.boot := rfl
@[simp] theorem State.setPhase_flash : (s.setPhase r ph).flash = s.flash := rfl
@[simp] theorem State.setPhase_sed : (s.setPhase r ph).sed = s.sed := rfl
@[simp] theorem State.setPhase_power : (s.setPhase r ph).power = s.power := rfl
@[simp] theorem State.setPhase_bg : (s.setPhase r ph).bg = s.bg := rfl
@[simp] theorem State.setPhase_tap : (s.setPhase r ph).tap = s.tap := rfl
end

section
variable (r : InstrRef)
@[simp] theorem State.retire_pending : (s.retire r).pending = s.pending := rfl
@[simp] theorem State.retire_now : (s.retire r).now = s.now := rfl
@[simp] theorem State.retire_free : (s.retire r).free = s.free := rfl
@[simp] theorem State.retire_caps : (s.retire r).caps = s.caps := rfl
@[simp] theorem State.retire_mem : (s.retire r).mem = s.mem := rfl
@[simp] theorem State.retire_arbiter : (s.retire r).arbiter = s.arbiter := rfl
@[simp] theorem State.retire_scheds : (s.retire r).scheds = s.scheds := rfl
@[simp] theorem State.retire_engines : (s.retire r).engines = s.engines := rfl
@[simp] theorem State.retire_ports : (s.retire r).ports = s.ports := rfl
@[simp] theorem State.retire_ligil : (s.retire r).ligil = s.ligil := rfl
@[simp] theorem State.retire_resets : (s.retire r).resets = s.resets := rfl
@[simp] theorem State.retire_boot : (s.retire r).boot = s.boot := rfl
@[simp] theorem State.retire_flash : (s.retire r).flash = s.flash := rfl
@[simp] theorem State.retire_sed : (s.retire r).sed = s.sed := rfl
@[simp] theorem State.retire_power : (s.retire r).power = s.power := rfl
@[simp] theorem State.retire_bg : (s.retire r).bg = s.bg := rfl
@[simp] theorem State.retire_tap : (s.retire r).tap = s.tap := rfl
end

section
variable (r : InstrRef) (k : Option Coll)
@[simp] theorem State.setColl_pending : (s.setColl r k).pending = s.pending := rfl
@[simp] theorem State.setColl_now : (s.setColl r k).now = s.now := rfl
@[simp] theorem State.setColl_free : (s.setColl r k).free = s.free := rfl
@[simp] theorem State.setColl_caps : (s.setColl r k).caps = s.caps := rfl
@[simp] theorem State.setColl_mem : (s.setColl r k).mem = s.mem := rfl
@[simp] theorem State.setColl_arbiter : (s.setColl r k).arbiter = s.arbiter := rfl
@[simp] theorem State.setColl_scheds : (s.setColl r k).scheds = s.scheds := rfl
@[simp] theorem State.setColl_engines : (s.setColl r k).engines = s.engines := rfl
@[simp] theorem State.setColl_ports : (s.setColl r k).ports = s.ports := rfl
@[simp] theorem State.setColl_ligil : (s.setColl r k).ligil = s.ligil := rfl
@[simp] theorem State.setColl_resets : (s.setColl r k).resets = s.resets := rfl
@[simp] theorem State.setColl_boot : (s.setColl r k).boot = s.boot := rfl
@[simp] theorem State.setColl_flash : (s.setColl r k).flash = s.flash := rfl
@[simp] theorem State.setColl_sed : (s.setColl r k).sed = s.sed := rfl
@[simp] theorem State.setColl_power : (s.setColl r k).power = s.power := rfl
@[simp] theorem State.setColl_bg : (s.setColl r k).bg = s.bg := rfl
@[simp] theorem State.setColl_tap : (s.setColl r k).tap = s.tap := rfl
end

section
variable (r : InstrRef) (f : Coll → Coll)
@[simp] theorem State.mapColl_pending : (s.mapColl r f).pending = s.pending := rfl
@[simp] theorem State.mapColl_now : (s.mapColl r f).now = s.now := rfl
@[simp] theorem State.mapColl_free : (s.mapColl r f).free = s.free := rfl
@[simp] theorem State.mapColl_caps : (s.mapColl r f).caps = s.caps := rfl
@[simp] theorem State.mapColl_mem : (s.mapColl r f).mem = s.mem := rfl
@[simp] theorem State.mapColl_arbiter : (s.mapColl r f).arbiter = s.arbiter := rfl
@[simp] theorem State.mapColl_scheds : (s.mapColl r f).scheds = s.scheds := rfl
@[simp] theorem State.mapColl_engines : (s.mapColl r f).engines = s.engines := rfl
@[simp] theorem State.mapColl_ports : (s.mapColl r f).ports = s.ports := rfl
@[simp] theorem State.mapColl_ligil : (s.mapColl r f).ligil = s.ligil := rfl
@[simp] theorem State.mapColl_resets : (s.mapColl r f).resets = s.resets := rfl
@[simp] theorem State.mapColl_boot : (s.mapColl r f).boot = s.boot := rfl
@[simp] theorem State.mapColl_flash : (s.mapColl r f).flash = s.flash := rfl
@[simp] theorem State.mapColl_sed : (s.mapColl r f).sed = s.sed := rfl
@[simp] theorem State.mapColl_power : (s.mapColl r f).power = s.power := rfl
@[simp] theorem State.mapColl_bg : (s.mapColl r f).bg = s.bg := rfl
@[simp] theorem State.mapColl_tap : (s.mapColl r f).tap = s.tap := rfl
end

section
variable (id g a n : Nat) (st : Bool)
@[simp] theorem State.addCycles_pending : (s.addCycles id g a n st).pending = s.pending := rfl
@[simp] theorem State.addCycles_now : (s.addCycles id g a n st).now = s.now := rfl
@[simp] theorem State.addCycles_free : (s.addCycles id g a n st).free = s.free := rfl
@[simp] theorem State.addCycles_caps : (s.addCycles id g a n st).caps = s.caps := rfl
@[simp] theorem State.addCycles_mem : (s.addCycles id g a n st).mem = s.mem := rfl
@[simp] theorem State.addCycles_arbiter : (s.addCycles id g a n st).arbiter = s.arbiter := rfl
@[simp] theorem State.addCycles_scheds : (s.addCycles id g a n st).scheds = s.scheds := rfl
@[simp] theorem State.addCycles_engines : (s.addCycles id g a n st).engines = s.engines := rfl
@[simp] theorem State.addCycles_ports : (s.addCycles id g a n st).ports = s.ports := rfl
@[simp] theorem State.addCycles_ligil : (s.addCycles id g a n st).ligil = s.ligil := rfl
@[simp] theorem State.addCycles_resets : (s.addCycles id g a n st).resets = s.resets := rfl
@[simp] theorem State.addCycles_boot : (s.addCycles id g a n st).boot = s.boot := rfl
@[simp] theorem State.addCycles_flash : (s.addCycles id g a n st).flash = s.flash := rfl
@[simp] theorem State.addCycles_sed : (s.addCycles id g a n st).sed = s.sed := rfl
@[simp] theorem State.addCycles_power : (s.addCycles id g a n st).power = s.power := rfl
@[simp] theorem State.addCycles_bg : (s.addCycles id g a n st).bg = s.bg := rfl
@[simp] theorem State.addCycles_tap : (s.addCycles id g a n st).tap = s.tap := rfl
end

section
variable (f : Found)
@[simp] theorem State.doRegWrite_pending : (s.doRegWrite f).pending = s.pending := rfl
@[simp] theorem State.doRegWrite_now : (s.doRegWrite f).now = s.now := rfl
@[simp] theorem State.doRegWrite_free : (s.doRegWrite f).free = s.free := rfl
@[simp] theorem State.doRegWrite_caps : (s.doRegWrite f).caps = s.caps := rfl
@[simp] theorem State.doRegWrite_mem : (s.doRegWrite f).mem = s.mem := rfl
@[simp] theorem State.doRegWrite_arbiter : (s.doRegWrite f).arbiter = s.arbiter := rfl
@[simp] theorem State.doRegWrite_scheds : (s.doRegWrite f).scheds = s.scheds := rfl
@[simp] theorem State.doRegWrite_engines : (s.doRegWrite f).engines = s.engines := rfl
@[simp] theorem State.doRegWrite_ports : (s.doRegWrite f).ports = s.ports := rfl
@[simp] theorem State.doRegWrite_ligil : (s.doRegWrite f).ligil = s.ligil := rfl
@[simp] theorem State.doRegWrite_resets : (s.doRegWrite f).resets = s.resets := rfl
@[simp] theorem State.doRegWrite_boot : (s.doRegWrite f).boot = s.boot := rfl
@[simp] theorem State.doRegWrite_flash : (s.doRegWrite f).flash = s.flash := rfl
@[simp] theorem State.doRegWrite_sed : (s.doRegWrite f).sed = s.sed := rfl
@[simp] theorem State.doRegWrite_power : (s.doRegWrite f).power = s.power := rfl
@[simp] theorem State.doRegWrite_bg : (s.doRegWrite f).bg = s.bg := rfl
@[simp] theorem State.doRegWrite_tap : (s.doRegWrite f).tap = s.tap := rfl
end

section
variable (id n : Nat)
@[simp] theorem State.drew_pending : (s.drew id n).pending = s.pending := rfl
@[simp] theorem State.drew_now : (s.drew id n).now = s.now := rfl
@[simp] theorem State.drew_free : (s.drew id n).free = s.free := rfl
@[simp] theorem State.drew_caps : (s.drew id n).caps = s.caps := rfl
@[simp] theorem State.drew_mem : (s.drew id n).mem = s.mem := rfl
@[simp] theorem State.drew_arbiter : (s.drew id n).arbiter = s.arbiter := rfl
@[simp] theorem State.drew_scheds : (s.drew id n).scheds = s.scheds := rfl
@[simp] theorem State.drew_engines : (s.drew id n).engines = s.engines := rfl
@[simp] theorem State.drew_ports : (s.drew id n).ports = s.ports := rfl
@[simp] theorem State.drew_ligil : (s.drew id n).ligil = s.ligil := rfl
@[simp] theorem State.drew_resets : (s.drew id n).resets = s.resets := rfl
@[simp] theorem State.drew_boot : (s.drew id n).boot = s.boot := rfl
@[simp] theorem State.drew_flash : (s.drew id n).flash = s.flash := rfl
@[simp] theorem State.drew_sed : (s.drew id n).sed = s.sed := rfl
@[simp] theorem State.drew_power : (s.drew id n).power = s.power := rfl
@[simp] theorem State.drew_bg : (s.drew id n).bg = s.bg := rfl
@[simp] theorem State.drew_tap : (s.drew id n).tap = s.tap := rfl
end

section
variable (id : Nat) (f : CtxReset → CtxReset)
@[simp] theorem State.mapReset_pending : (s.mapReset id f).pending = s.pending := rfl
@[simp] theorem State.mapReset_now : (s.mapReset id f).now = s.now := rfl
@[simp] theorem State.mapReset_free : (s.mapReset id f).free = s.free := rfl
@[simp] theorem State.mapReset_caps : (s.mapReset id f).caps = s.caps := rfl
@[simp] theorem State.mapReset_mem : (s.mapReset id f).mem = s.mem := rfl
@[simp] theorem State.mapReset_arbiter : (s.mapReset id f).arbiter = s.arbiter := rfl
@[simp] theorem State.mapReset_scheds : (s.mapReset id f).scheds = s.scheds := rfl
@[simp] theorem State.mapReset_engines : (s.mapReset id f).engines = s.engines := rfl
@[simp] theorem State.mapReset_ports : (s.mapReset id f).ports = s.ports := rfl
@[simp] theorem State.mapReset_ligil : (s.mapReset id f).ligil = s.ligil := rfl
@[simp] theorem State.mapReset_resets : (s.mapReset id f).resets = s.resets := rfl
@[simp] theorem State.mapReset_boot : (s.mapReset id f).boot = s.boot := rfl
@[simp] theorem State.mapReset_flash : (s.mapReset id f).flash = s.flash := rfl
@[simp] theorem State.mapReset_sed : (s.mapReset id f).sed = s.sed := rfl
@[simp] theorem State.mapReset_power : (s.mapReset id f).power = s.power := rfl
@[simp] theorem State.mapReset_bg : (s.mapReset id f).bg = s.bg := rfl
@[simp] theorem State.mapReset_tap : (s.mapReset id f).tap = s.tap := rfl
end

section
variable (p : Nat) (f : Port → Port)
@[simp] theorem State.mapPort_pending : (s.mapPort p f).pending = s.pending := rfl
@[simp] theorem State.mapPort_now : (s.mapPort p f).now = s.now := rfl
@[simp] theorem State.mapPort_free : (s.mapPort p f).free = s.free := rfl
@[simp] theorem State.mapPort_caps : (s.mapPort p f).caps = s.caps := rfl
@[simp] theorem State.mapPort_mem : (s.mapPort p f).mem = s.mem := rfl
@[simp] theorem State.mapPort_ctxs : (s.mapPort p f).ctxs = s.ctxs := rfl
@[simp] theorem State.mapPort_arbiter : (s.mapPort p f).arbiter = s.arbiter := rfl
@[simp] theorem State.mapPort_scheds : (s.mapPort p f).scheds = s.scheds := rfl
@[simp] theorem State.mapPort_engines : (s.mapPort p f).engines = s.engines := rfl
@[simp] theorem State.mapPort_ports : (s.mapPort p f).ports = modifyAt s.ports p f := rfl
@[simp] theorem State.mapPort_ligil : (s.mapPort p f).ligil = s.ligil := rfl
@[simp] theorem State.mapPort_resets : (s.mapPort p f).resets = s.resets := rfl
@[simp] theorem State.mapPort_boot : (s.mapPort p f).boot = s.boot := rfl
@[simp] theorem State.mapPort_flash : (s.mapPort p f).flash = s.flash := rfl
@[simp] theorem State.mapPort_sed : (s.mapPort p f).sed = s.sed := rfl
@[simp] theorem State.mapPort_power : (s.mapPort p f).power = s.power := rfl
@[simp] theorem State.mapPort_bg : (s.mapPort p f).bg = s.bg := rfl
@[simp] theorem State.mapPort_tap : (s.mapPort p f).tap = s.tap := rfl
end

section
variable (p vc bind : Nat) (bs : List Byte)
@[simp] theorem State.enqueue_pending : (s.enqueue p vc bind bs).pending = s.pending := rfl
@[simp] theorem State.enqueue_now : (s.enqueue p vc bind bs).now = s.now := rfl
@[simp] theorem State.enqueue_free : (s.enqueue p vc bind bs).free = s.free := rfl
@[simp] theorem State.enqueue_caps : (s.enqueue p vc bind bs).caps = s.caps := rfl
@[simp] theorem State.enqueue_mem : (s.enqueue p vc bind bs).mem = s.mem := rfl
@[simp] theorem State.enqueue_ctxs : (s.enqueue p vc bind bs).ctxs = s.ctxs := rfl
@[simp] theorem State.enqueue_arbiter : (s.enqueue p vc bind bs).arbiter = s.arbiter := rfl
@[simp] theorem State.enqueue_scheds : (s.enqueue p vc bind bs).scheds = s.scheds := rfl
@[simp] theorem State.enqueue_engines : (s.enqueue p vc bind bs).engines = s.engines := rfl
@[simp] theorem State.enqueue_ligil : (s.enqueue p vc bind bs).ligil = s.ligil := rfl
@[simp] theorem State.enqueue_resets : (s.enqueue p vc bind bs).resets = s.resets := rfl
@[simp] theorem State.enqueue_boot : (s.enqueue p vc bind bs).boot = s.boot := rfl
@[simp] theorem State.enqueue_flash : (s.enqueue p vc bind bs).flash = s.flash := rfl
@[simp] theorem State.enqueue_sed : (s.enqueue p vc bind bs).sed = s.sed := rfl
@[simp] theorem State.enqueue_power : (s.enqueue p vc bind bs).power = s.power := rfl
@[simp] theorem State.enqueue_bg : (s.enqueue p vc bind bs).bg = s.bg := rfl
@[simp] theorem State.enqueue_tap : (s.enqueue p vc bind bs).tap = s.tap := rfl
end

section
variable (p : Nat)
@[simp] theorem State.purge_pending : (s.purge p).pending = s.pending := rfl
@[simp] theorem State.purge_now : (s.purge p).now = s.now := rfl
@[simp] theorem State.purge_free : (s.purge p).free = s.free := rfl
@[simp] theorem State.purge_caps : (s.purge p).caps = s.caps := rfl
@[simp] theorem State.purge_mem : (s.purge p).mem = s.mem := rfl
@[simp] theorem State.purge_ctxs : (s.purge p).ctxs = s.ctxs := rfl
@[simp] theorem State.purge_arbiter : (s.purge p).arbiter = s.arbiter := rfl
@[simp] theorem State.purge_scheds : (s.purge p).scheds = s.scheds := rfl
@[simp] theorem State.purge_engines : (s.purge p).engines = s.engines := rfl
@[simp] theorem State.purge_ligil : (s.purge p).ligil = s.ligil := rfl
@[simp] theorem State.purge_resets : (s.purge p).resets = s.resets := rfl
@[simp] theorem State.purge_boot : (s.purge p).boot = s.boot := rfl
@[simp] theorem State.purge_flash : (s.purge p).flash = s.flash := rfl
@[simp] theorem State.purge_sed : (s.purge p).sed = s.sed := rfl
@[simp] theorem State.purge_power : (s.purge p).power = s.power := rfl
@[simp] theorem State.purge_bg : (s.purge p).bg = s.bg := rfl
@[simp] theorem State.purge_tap : (s.purge p).tap = s.tap := rfl
end

section
variable (p : Nat)
@[simp] theorem State.askRetry_pending : (s.askRetry p).pending = s.pending := rfl
@[simp] theorem State.askRetry_now : (s.askRetry p).now = s.now := rfl
@[simp] theorem State.askRetry_free : (s.askRetry p).free = s.free := rfl
@[simp] theorem State.askRetry_caps : (s.askRetry p).caps = s.caps := rfl
@[simp] theorem State.askRetry_mem : (s.askRetry p).mem = s.mem := rfl
@[simp] theorem State.askRetry_ctxs : (s.askRetry p).ctxs = s.ctxs := rfl
@[simp] theorem State.askRetry_arbiter : (s.askRetry p).arbiter = s.arbiter := rfl
@[simp] theorem State.askRetry_scheds : (s.askRetry p).scheds = s.scheds := rfl
@[simp] theorem State.askRetry_engines : (s.askRetry p).engines = s.engines := rfl
@[simp] theorem State.askRetry_ligil : (s.askRetry p).ligil = s.ligil := rfl
@[simp] theorem State.askRetry_resets : (s.askRetry p).resets = s.resets := rfl
@[simp] theorem State.askRetry_boot : (s.askRetry p).boot = s.boot := rfl
@[simp] theorem State.askRetry_flash : (s.askRetry p).flash = s.flash := rfl
@[simp] theorem State.askRetry_sed : (s.askRetry p).sed = s.sed := rfl
@[simp] theorem State.askRetry_power : (s.askRetry p).power = s.power := rfl
@[simp] theorem State.askRetry_bg : (s.askRetry p).bg = s.bg := rfl
@[simp] theorem State.askRetry_tap : (s.askRetry p).tap = s.tap := rfl
end

section
variable (p : Nat)
@[simp] theorem State.clearPage_pending : (s.clearPage p).pending = s.pending := rfl
@[simp] theorem State.clearPage_now : (s.clearPage p).now = s.now := rfl
@[simp] theorem State.clearPage_free : (s.clearPage p).free = s.free := rfl
@[simp] theorem State.clearPage_caps : (s.clearPage p).caps = s.caps := rfl
@[simp] theorem State.clearPage_mem : (s.clearPage p).mem = memZero s.mem (pageAddr p) pageSize := rfl
@[simp] theorem State.clearPage_ctxs : (s.clearPage p).ctxs = s.ctxs := rfl
@[simp] theorem State.clearPage_arbiter : (s.clearPage p).arbiter = s.arbiter := rfl
@[simp] theorem State.clearPage_scheds : (s.clearPage p).scheds = s.scheds := rfl
@[simp] theorem State.clearPage_engines : (s.clearPage p).engines = s.engines := rfl
@[simp] theorem State.clearPage_ports : (s.clearPage p).ports = s.ports := rfl
@[simp] theorem State.clearPage_ligil : (s.clearPage p).ligil = s.ligil := rfl
@[simp] theorem State.clearPage_resets : (s.clearPage p).resets = s.resets := rfl
@[simp] theorem State.clearPage_boot : (s.clearPage p).boot = s.boot := rfl
@[simp] theorem State.clearPage_flash : (s.clearPage p).flash = s.flash := rfl
@[simp] theorem State.clearPage_sed : (s.clearPage p).sed = s.sed := rfl
@[simp] theorem State.clearPage_power : (s.clearPage p).power = s.power := rfl
@[simp] theorem State.clearPage_tap : (s.clearPage p).tap = s.tap := rfl
end

section
variable (p : Nat)
@[simp] theorem State.scrubbedAt_pending : (s.scrubbedAt p).pending = s.pending := rfl
@[simp] theorem State.scrubbedAt_now : (s.scrubbedAt p).now = s.now := rfl
@[simp] theorem State.scrubbedAt_free : (s.scrubbedAt p).free = s.free := rfl
@[simp] theorem State.scrubbedAt_caps : (s.scrubbedAt p).caps = s.caps := rfl
@[simp] theorem State.scrubbedAt_mem : (s.scrubbedAt p).mem = s.mem := rfl
@[simp] theorem State.scrubbedAt_ctxs : (s.scrubbedAt p).ctxs = s.ctxs := rfl
@[simp] theorem State.scrubbedAt_arbiter : (s.scrubbedAt p).arbiter = s.arbiter := rfl
@[simp] theorem State.scrubbedAt_scheds : (s.scrubbedAt p).scheds = s.scheds := rfl
@[simp] theorem State.scrubbedAt_engines : (s.scrubbedAt p).engines = s.engines := rfl
@[simp] theorem State.scrubbedAt_ports : (s.scrubbedAt p).ports = s.ports := rfl
@[simp] theorem State.scrubbedAt_ligil : (s.scrubbedAt p).ligil = s.ligil := rfl
@[simp] theorem State.scrubbedAt_resets : (s.scrubbedAt p).resets = s.resets := rfl
@[simp] theorem State.scrubbedAt_boot : (s.scrubbedAt p).boot = s.boot := rfl
@[simp] theorem State.scrubbedAt_flash : (s.scrubbedAt p).flash = s.flash := rfl
@[simp] theorem State.scrubbedAt_sed : (s.scrubbedAt p).sed = s.sed := rfl
@[simp] theorem State.scrubbedAt_power : (s.scrubbedAt p).power = s.power := rfl
@[simp] theorem State.scrubbedAt_tap : (s.scrubbedAt p).tap = s.tap := rfl
end

section
variable (t : Nat) (on : Bool)
@[simp] theorem State.setForced_pending : (s.setForced t on).pending = s.pending := rfl
@[simp] theorem State.setForced_now : (s.setForced t on).now = s.now := rfl
@[simp] theorem State.setForced_free : (s.setForced t on).free = s.free := rfl
@[simp] theorem State.setForced_caps : (s.setForced t on).caps = s.caps := rfl
@[simp] theorem State.setForced_mem : (s.setForced t on).mem = s.mem := rfl
@[simp] theorem State.setForced_ctxs : (s.setForced t on).ctxs = s.ctxs := rfl
@[simp] theorem State.setForced_arbiter : (s.setForced t on).arbiter = s.arbiter := rfl
@[simp] theorem State.setForced_scheds : (s.setForced t on).scheds = s.scheds := rfl
@[simp] theorem State.setForced_engines : (s.setForced t on).engines = s.engines := rfl
@[simp] theorem State.setForced_ports : (s.setForced t on).ports = s.ports := rfl
@[simp] theorem State.setForced_ligil : (s.setForced t on).ligil = s.ligil := rfl
@[simp] theorem State.setForced_resets : (s.setForced t on).resets = s.resets := rfl
@[simp] theorem State.setForced_boot : (s.setForced t on).boot = s.boot := rfl
@[simp] theorem State.setForced_flash : (s.setForced t on).flash = s.flash := rfl
@[simp] theorem State.setForced_sed : (s.setForced t on).sed = s.sed := rfl
@[simp] theorem State.setForced_power : (s.setForced t on).power = s.power := rfl
@[simp] theorem State.setForced_tap : (s.setForced t on).tap = s.tap := rfl
end

section
variable (u : UpdPhase)
@[simp] theorem State.setUpd_pending : (s.setUpd u).pending = s.pending := rfl
@[simp] theorem State.setUpd_now : (s.setUpd u).now = s.now := rfl
@[simp] theorem State.setUpd_free : (s.setUpd u).free = s.free := rfl
@[simp] theorem State.setUpd_caps : (s.setUpd u).caps = s.caps := rfl
@[simp] theorem State.setUpd_mem : (s.setUpd u).mem = s.mem := rfl
@[simp] theorem State.setUpd_ctxs : (s.setUpd u).ctxs = s.ctxs := rfl
@[simp] theorem State.setUpd_arbiter : (s.setUpd u).arbiter = s.arbiter := rfl
@[simp] theorem State.setUpd_scheds : (s.setUpd u).scheds = s.scheds := rfl
@[simp] theorem State.setUpd_engines : (s.setUpd u).engines = s.engines := rfl
@[simp] theorem State.setUpd_ports : (s.setUpd u).ports = s.ports := rfl
@[simp] theorem State.setUpd_ligil : (s.setUpd u).ligil = s.ligil := rfl
@[simp] theorem State.setUpd_resets : (s.setUpd u).resets = s.resets := rfl
@[simp] theorem State.setUpd_boot : (s.setUpd u).boot = { s.boot with upd := u } := rfl
@[simp] theorem State.setUpd_flash : (s.setUpd u).flash = s.flash := rfl
@[simp] theorem State.setUpd_sed : (s.setUpd u).sed = s.sed := rfl
@[simp] theorem State.setUpd_power : (s.setUpd u).power = s.power := rfl
@[simp] theorem State.setUpd_bg : (s.setUpd u).bg = s.bg := rfl
@[simp] theorem State.setUpd_tap : (s.setUpd u).tap = s.tap := rfl
end

section
@[simp] theorem State.setVoltages_pending : (s.setVoltages).pending = s.pending := rfl
@[simp] theorem State.setVoltages_now : (s.setVoltages).now = s.now := rfl
@[simp] theorem State.setVoltages_free : (s.setVoltages).free = s.free := rfl
@[simp] theorem State.setVoltages_caps : (s.setVoltages).caps = s.caps := rfl
@[simp] theorem State.setVoltages_mem : (s.setVoltages).mem = s.mem := rfl
@[simp] theorem State.setVoltages_ctxs : (s.setVoltages).ctxs = s.ctxs := rfl
@[simp] theorem State.setVoltages_arbiter : (s.setVoltages).arbiter = s.arbiter := rfl
@[simp] theorem State.setVoltages_scheds : (s.setVoltages).scheds = s.scheds := rfl
@[simp] theorem State.setVoltages_engines : (s.setVoltages).engines = s.engines := rfl
@[simp] theorem State.setVoltages_ports : (s.setVoltages).ports = s.ports := rfl
@[simp] theorem State.setVoltages_ligil : (s.setVoltages).ligil = s.ligil := rfl
@[simp] theorem State.setVoltages_resets : (s.setVoltages).resets = s.resets := rfl
@[simp] theorem State.setVoltages_boot : (s.setVoltages).boot = s.boot := rfl
@[simp] theorem State.setVoltages_flash : (s.setVoltages).flash = s.flash := rfl
@[simp] theorem State.setVoltages_sed : (s.setVoltages).sed = s.sed := rfl
@[simp] theorem State.setVoltages_bg : (s.setVoltages).bg = s.bg := rfl
@[simp] theorem State.setVoltages_tap : (s.setVoltages).tap = s.tap := rfl
end

section
@[simp] theorem State.setTherm_pending : (s.setTherm).pending = s.pending := rfl
@[simp] theorem State.setTherm_now : (s.setTherm).now = s.now := rfl
@[simp] theorem State.setTherm_free : (s.setTherm).free = s.free := rfl
@[simp] theorem State.setTherm_caps : (s.setTherm).caps = s.caps := rfl
@[simp] theorem State.setTherm_mem : (s.setTherm).mem = s.mem := rfl
@[simp] theorem State.setTherm_ctxs : (s.setTherm).ctxs = s.ctxs := rfl
@[simp] theorem State.setTherm_arbiter : (s.setTherm).arbiter = s.arbiter := rfl
@[simp] theorem State.setTherm_scheds : (s.setTherm).scheds = s.scheds := rfl
@[simp] theorem State.setTherm_engines : (s.setTherm).engines = s.engines := rfl
@[simp] theorem State.setTherm_ports : (s.setTherm).ports = s.ports := rfl
@[simp] theorem State.setTherm_ligil : (s.setTherm).ligil = s.ligil := rfl
@[simp] theorem State.setTherm_resets : (s.setTherm).resets = s.resets := rfl
@[simp] theorem State.setTherm_boot : (s.setTherm).boot = s.boot := rfl
@[simp] theorem State.setTherm_flash : (s.setTherm).flash = s.flash := rfl
@[simp] theorem State.setTherm_sed : (s.setTherm).sed = s.sed := rfl
@[simp] theorem State.setTherm_bg : (s.setTherm).bg = s.bg := rfl
@[simp] theorem State.setTherm_tap : (s.setTherm).tap = s.tap := rfl
end

section
variable (p : Nat) (u : UnitPower)
@[simp] theorem State.setUnit_pending : (s.setUnit p u).pending = s.pending := rfl
@[simp] theorem State.setUnit_now : (s.setUnit p u).now = s.now := rfl
@[simp] theorem State.setUnit_free : (s.setUnit p u).free = s.free := rfl
@[simp] theorem State.setUnit_caps : (s.setUnit p u).caps = s.caps := rfl
@[simp] theorem State.setUnit_mem : (s.setUnit p u).mem = s.mem := rfl
@[simp] theorem State.setUnit_ctxs : (s.setUnit p u).ctxs = s.ctxs := rfl
@[simp] theorem State.setUnit_arbiter : (s.setUnit p u).arbiter = s.arbiter := rfl
@[simp] theorem State.setUnit_scheds : (s.setUnit p u).scheds = s.scheds := rfl
@[simp] theorem State.setUnit_engines : (s.setUnit p u).engines = s.engines := rfl
@[simp] theorem State.setUnit_ports : (s.setUnit p u).ports = s.ports := rfl
@[simp] theorem State.setUnit_ligil : (s.setUnit p u).ligil = s.ligil := rfl
@[simp] theorem State.setUnit_resets : (s.setUnit p u).resets = s.resets := rfl
@[simp] theorem State.setUnit_boot : (s.setUnit p u).boot = s.boot := rfl
@[simp] theorem State.setUnit_flash : (s.setUnit p u).flash = s.flash := rfl
@[simp] theorem State.setUnit_sed : (s.setUnit p u).sed = s.sed := rfl
@[simp] theorem State.setUnit_power : (s.setUnit p u).power = { s.power with units := setKey s.power.units p u } := rfl
@[simp] theorem State.setUnit_bg : (s.setUnit p u).bg = s.bg := rfl
@[simp] theorem State.setUnit_tap : (s.setUnit p u).tap = s.tap := rfl
end

section
@[simp] theorem State.countFailure_pending : (s.countFailure).pending = s.pending := rfl
@[simp] theorem State.countFailure_now : (s.countFailure).now = s.now := rfl
@[simp] theorem State.countFailure_free : (s.countFailure).free = s.free := rfl
@[simp] theorem State.countFailure_caps : (s.countFailure).caps = s.caps := rfl
@[simp] theorem State.countFailure_mem : (s.countFailure).mem = s.mem := rfl
@[simp] theorem State.countFailure_ctxs : (s.countFailure).ctxs = s.ctxs := rfl
@[simp] theorem State.countFailure_arbiter : (s.countFailure).arbiter = s.arbiter := rfl
@[simp] theorem State.countFailure_scheds : (s.countFailure).scheds = s.scheds := rfl
@[simp] theorem State.countFailure_engines : (s.countFailure).engines = s.engines := rfl
@[simp] theorem State.countFailure_ports : (s.countFailure).ports = s.ports := rfl
@[simp] theorem State.countFailure_ligil : (s.countFailure).ligil = s.ligil := rfl
@[simp] theorem State.countFailure_boot : (s.countFailure).boot = s.boot := rfl
@[simp] theorem State.countFailure_flash : (s.countFailure).flash = s.flash := rfl
@[simp] theorem State.countFailure_sed : (s.countFailure).sed = s.sed := rfl
@[simp] theorem State.countFailure_power : (s.countFailure).power = s.power := rfl
@[simp] theorem State.countFailure_bg : (s.countFailure).bg = s.bg := rfl
@[simp] theorem State.countFailure_tap : (s.countFailure).tap = s.tap := rfl
end

section
variable (g : Nat)
@[simp] theorem State.judge_pending : (s.judge g).pending = s.pending := rfl
@[simp] theorem State.judge_now : (s.judge g).now = s.now := rfl
@[simp] theorem State.judge_free : (s.judge g).free = s.free := rfl
@[simp] theorem State.judge_caps : (s.judge g).caps = s.caps := rfl
@[simp] theorem State.judge_mem : (s.judge g).mem = s.mem := rfl
@[simp] theorem State.judge_ctxs : (s.judge g).ctxs = s.ctxs := rfl
@[simp] theorem State.judge_arbiter : (s.judge g).arbiter = s.arbiter := rfl
@[simp] theorem State.judge_scheds : (s.judge g).scheds = s.scheds := rfl
@[simp] theorem State.judge_engines : (s.judge g).engines = s.engines := rfl
@[simp] theorem State.judge_ports : (s.judge g).ports = s.ports := rfl
@[simp] theorem State.judge_ligil : (s.judge g).ligil = s.ligil := rfl
@[simp] theorem State.judge_boot : (s.judge g).boot = s.boot := rfl
@[simp] theorem State.judge_flash : (s.judge g).flash = s.flash := rfl
@[simp] theorem State.judge_sed : (s.judge g).sed = s.sed := rfl
@[simp] theorem State.judge_power : (s.judge g).power = s.power := rfl
@[simp] theorem State.judge_bg : (s.judge g).bg = s.bg := rfl
@[simp] theorem State.judge_tap : (s.judge g).tap = s.tap := rfl
end

section
variable (cause : Nat)
@[simp] theorem State.askReset_pending : (s.askReset cause).pending = s.pending := rfl
@[simp] theorem State.askReset_now : (s.askReset cause).now = s.now := rfl
@[simp] theorem State.askReset_free : (s.askReset cause).free = s.free := rfl
@[simp] theorem State.askReset_caps : (s.askReset cause).caps = s.caps := rfl
@[simp] theorem State.askReset_mem : (s.askReset cause).mem = s.mem := rfl
@[simp] theorem State.askReset_ctxs : (s.askReset cause).ctxs = s.ctxs := rfl
@[simp] theorem State.askReset_arbiter : (s.askReset cause).arbiter = s.arbiter := rfl
@[simp] theorem State.askReset_scheds : (s.askReset cause).scheds = s.scheds := rfl
@[simp] theorem State.askReset_engines : (s.askReset cause).engines = s.engines := rfl
@[simp] theorem State.askReset_ports : (s.askReset cause).ports = s.ports := rfl
@[simp] theorem State.askReset_ligil : (s.askReset cause).ligil = s.ligil := rfl
@[simp] theorem State.askReset_boot : (s.askReset cause).boot = s.boot := rfl
@[simp] theorem State.askReset_flash : (s.askReset cause).flash = s.flash := rfl
@[simp] theorem State.askReset_sed : (s.askReset cause).sed = s.sed := rfl
@[simp] theorem State.askReset_power : (s.askReset cause).power = s.power := rfl
@[simp] theorem State.askReset_bg : (s.askReset cause).bg = s.bg := rfl
@[simp] theorem State.askReset_tap : (s.askReset cause).tap = s.tap := rfl
end

section
@[simp] theorem State.draw_pending : s.draw.2.pending = s.pending := rfl
@[simp] theorem State.draw_now : s.draw.2.now = s.now := rfl
@[simp] theorem State.draw_free : s.draw.2.free = s.free + 1 := rfl
@[simp] theorem State.draw_caps : s.draw.2.caps = s.caps := rfl
@[simp] theorem State.draw_mem : s.draw.2.mem = s.mem := rfl
@[simp] theorem State.draw_ctxs : s.draw.2.ctxs = s.ctxs := rfl
@[simp] theorem State.draw_arbiter : s.draw.2.arbiter = s.arbiter := rfl
@[simp] theorem State.draw_scheds : s.draw.2.scheds = s.scheds := rfl
@[simp] theorem State.draw_engines : s.draw.2.engines = s.engines := rfl
@[simp] theorem State.draw_ports : s.draw.2.ports = s.ports := rfl
@[simp] theorem State.draw_ligil : s.draw.2.ligil = s.ligil := rfl
@[simp] theorem State.draw_resets : s.draw.2.resets = s.resets := rfl
@[simp] theorem State.draw_boot : s.draw.2.boot = s.boot := rfl
@[simp] theorem State.draw_flash : s.draw.2.flash = s.flash := rfl
@[simp] theorem State.draw_sed : s.draw.2.sed = s.sed := rfl
@[simp] theorem State.draw_power : s.draw.2.power = s.power := rfl
@[simp] theorem State.draw_bg : s.draw.2.bg = s.bg := rfl
@[simp] theorem State.draw_tap : s.draw.2.tap = s.tap := rfl
@[simp] theorem State.draw_fst : s.draw.1 = s.free := rfl
end

end Sys2Proof.Machine
end

