-- ==== Sys2Proof/Laws/Keeps.lean ====
section
/-! SUPPORT. What the shared operations keep: no operation adds to the waiting commands or removes one, and each keeps
memory in canonical form. One lemma for each operation, so that no later proof unfolds it for this. -/

namespace Sys2Proof.Machine

/-- What every operation of the block keeps, whatever it does: the queue, and the canonical form of memory. -/
structure Keeps (s t : State) : Prop where
  pending : t.pending = s.pending
  wf : Memory.wf s.mem = true → Memory.wf t.mem = true

theorem Keeps.refl (s : State) : Keeps s s := ⟨rfl, id⟩

theorem Keeps.trans {s t u : State} (h : Keeps s t) (k : Keeps t u) : Keeps s u :=
  ⟨k.pending.trans h.pending, fun w => k.wf (h.wf w)⟩

/-- An operation that touches neither the queue nor memory. -/
theorem Keeps.of_eq {s t : State} (hp : t.pending = s.pending) (hm : t.mem = s.mem) : Keeps s t := ⟨hp, fun w => hm ▸ w⟩

theorem Keeps.ite {s t u : State} {p : Prop} [Decidable p] (h : Keeps s t) (k : Keeps s u) :
    Keeps s (if p then t else u) := by
  split
  · exact h
  · exact k

/-- A fold keeps what each of its steps keeps. -/
theorem Keeps.foldl {α : Type} {f : State → α → State} (h : ∀ s a, Keeps s (f s a)) :
    ∀ (l : List α) (s : State), Keeps s (l.foldl f s)
  | [], s => .refl s
  | a :: l, s => (h s a).trans (Keeps.foldl h l (f s a))

/-- An operation that may fail, where it answers a state. -/
structure KeepsOk (s : State) (x : Except Fail State) : Prop where
  at_ok : ∀ t, x = .ok t → Keeps s t

theorem KeepsOk.ok {s t : State} (h : Keeps s t) : KeepsOk s (.ok t) := ⟨fun _ e => by cases e; exact h⟩

theorem KeepsOk.pure {s t : State} (h : Keeps s t) : KeepsOk s (pure t) := KeepsOk.ok h

theorem KeepsOk.error {s : State} (e : Fail) : KeepsOk s (.error e) := ⟨fun _ h => by cases h⟩

/-- A read in front of an operation. -/
theorem KeepsOk.read {s : State} {α : Type} {x : Except Fail α} {f : α → Except Fail State} (h : ∀ a, KeepsOk s (f a)) :
    KeepsOk s (x >>= f) := by
  cases x with
  | error e => exact KeepsOk.error e
  | ok a => exact h a

theorem KeepsOk.after {s t : State} {x : Except Fail State} (h : Keeps s t) (k : KeepsOk t x) : KeepsOk s x :=
  ⟨fun u e => h.trans (k.at_ok u e)⟩

/-- An operation after another. -/
theorem KeepsOk.bind {s : State} {x : Except Fail State} {f : State → Except Fail State} (h : KeepsOk s x)
    (k : ∀ t, KeepsOk t (f t)) : KeepsOk s (x >>= f) := by
  cases x with
  | error e => exact KeepsOk.error e
  | ok t => exact .after (h.at_ok t rfl) (k t)

theorem KeepsOk.foldlM {α : Type} {f : State → α → Except Fail State} (h : ∀ s a, KeepsOk s (f s a)) :
    ∀ (l : List α) (s : State), KeepsOk s (l.foldlM f s)
  | [], s => .ok (.refl s)
  | a :: l, s => (h s a).bind fun t => KeepsOk.foldlM h l t

/-! ## Contexts, events, free values, engines -/

theorem State.mapCtx_keeps (s : State) (id : Nat) (f : Ctx → Ctx) : Keeps s (s.mapCtx id f) := .of_eq rfl rfl

theorem State.raise_keeps (s : State) (code detail src ctx : Nat) : Keeps s (s.raise code detail src ctx) := .of_eq rfl rfl

theorem State.draw_keeps (s : State) : Keeps s s.draw.2 := .of_eq rfl rfl

theorem State.notifySession_keeps (s : State) (id : Nat) (n : Notice) : Keeps s (s.notifySession id n) := .of_eq rfl rfl

theorem State.notify_keeps (s : State) (id code detail step : Nat) (data : List Nat) :
    Keeps s (s.notify id code detail step data) := by
  unfold State.notify
  split
  · exact .refl s
  · dsimp only
    split <;> exact .of_eq rfl rfl

theorem State.mapEngine_keeps (s : State) (e : Engine) (f : EngineRec → EngineRec) : Keeps s (s.mapEngine e f) := .of_eq rfl rfl

/-! ## Snapshot pages and writes through a window -/

theorem State.snapComplete_keeps (s : State) (id : Nat) : Keeps s (s.snapComplete id) := by
  unfold State.snapComplete
  split
  · exact .refl s
  · split
    · split
      · dsimp only
        split
        · exact (State.mapCtx_keeps ..).trans (State.notify_keeps ..)
        · exact State.mapCtx_keeps ..
      · exact .refl s
    · exact .refl s

theorem State.copyPage_keeps (s : State) (src dst : Nat) : Keeps s (s.copyPage src dst) :=
  ⟨rfl, fun w => Memory.wf_memCopyPage w ..⟩

/-- A page released to its slot is one page copied. -/
theorem State.releaseSlot_keeps (s : State) (id win : Nat) : Keeps s (s.releaseSlot id win) := by
  unfold State.releaseSlot
  split
  · exact .refl s
  · split
    · exact .refl s
    · split
      · dsimp only
        refine ((Keeps.trans ?_ (State.mapCtx_keeps ..))).trans (State.snapComplete_keeps ..)
        split
        · exact State.copyPage_keeps ..
        · exact .refl s
      · exact .refl s

theorem State.firstWrite_keeps (s : State) (id off : Nat) : Keeps s (s.firstWrite id off) := by
  unfold State.firstWrite
  split
  · split
    · dsimp only
      split
      · exact ((State.mapCtx_keeps ..).trans (State.releaseSlot_keeps ..)).trans (State.mapCtx_keeps ..)
      · exact State.mapCtx_keeps ..
    · exact .refl s
  · exact .refl s

theorem State.pokes_keeps (s : State) (a : Nat) (bs : List Byte) : Keeps s (s.pokes a bs) :=
  ⟨rfl, fun w => Memory.wf_memWriteList w a bs⟩

theorem State.wrPage_keeps (s : State) (id off : Nat) (bs : List Byte) : KeepsOk s (s.wrPage id off bs) := by
  unfold State.wrPage
  split
  · exact .error _
  · split
    · split
      · exact .error _
      · exact .ok ((State.firstWrite_keeps ..).trans (State.pokes_keeps ..))
    · exact .error _
    · split
      · exact .ok (.refl s)
      · exact .error _

theorem State.wrPages_keeps (k : Nat) (s : State) (id off : Nat) (bs : List Byte) :
    KeepsOk s (State.wrPages k s id off bs) := by
  induction k generalizing s off bs with
  | zero => exact .ok (.refl s)
  | succ k ih =>
    unfold State.wrPages
    split
    · exact .ok (.refl s)
    · dsimp only
      split
      · exact .error _
      · rename_i s' h
        exact .after ((State.wrPage_keeps s id off _).at_ok s' h) (ih s' _ _)

theorem State.wrBytes_keeps (s : State) (id off : Nat) (bs : List Byte) : KeepsOk s (s.wrBytes id off bs) :=
  State.wrPages_keeps ..

theorem State.wrByte_keeps (s : State) (id off : Nat) (b : Byte) : KeepsOk s (s.wrByte id off b) := State.wrPage_keeps ..

theorem State.wrNat_keeps (s : State) (id off n v : Nat) : KeepsOk s (s.wrNat id off n v) := State.wrBytes_keeps ..

theorem State.undefPages_keeps (n k : Nat) (s : State) (id off i len : Nat) :
    Keeps s (State.undefPages n k s id off i len) := by
  induction k generalizing s off i len with
  | zero => exact .refl s
  | succ k ih =>
    unfold State.undefPages
    split
    · exact .refl s
    · dsimp only
      split
      · rename_i s' h
        exact ((State.wrPage_keeps s id off _).at_ok s' h).trans (ih ..)
      · exact ih ..

theorem State.undefRange_keeps (s : State) (id off len : Nat) : Keeps s (s.undefRange id off len) :=
  s.draw_keeps.trans (State.undefPages_keeps ..)

/-! ## The log's writer -/

theorem State.appendRec_keeps (s : State) (sd : Sed) (ev : Event) (set supp : Nat) (words : List Nat) (b : Bool) :
    Keeps s (s.appendRec sd ev set supp words b) := .of_eq rfl rfl

theorem State.writeLost_keeps (s : State) : Keeps s s.writeLost := by
  unfold State.writeLost
  split
  · exact .refl s
  · split
    · exact State.appendRec_keeps ..
    · exact .refl s

theorem State.writeRec_keeps {s t : State} {ev : Event} {supp : Nat} (h : s.writeRec ev supp = some t) : Keeps s t := by
  unfold State.writeRec at h
  dsimp only at h
  split at h
  · cases h
    exact s.writeLost_keeps.trans (State.appendRec_keeps ..)
  · split at h
    · cases h
      exact s.writeLost_keeps.trans (.of_eq rfl rfl)
    · cases h

theorem State.writeRepeat_keeps {s t : State} {ev : Event} (h : s.writeRepeat ev = some t) : Keeps s t := by
  unfold State.writeRepeat at h
  dsimp only at h
  split at h
  · exact State.writeRec_keeps h
  · have k := State.writeRec_keeps h
    exact ⟨k.pending, k.wf⟩

theorem State.writeEvent_keeps {s t : State} {ev : Event} (h : s.writeEvent ev = some t) : Keeps s t := by
  unfold State.writeEvent at h
  dsimp only at h
  split at h
  · exact State.writeRec_keeps h
  · split at h
    · split at h
      · cases h
        exact .of_eq rfl rfl
      · have k := State.writeRec_keeps h
        exact ⟨k.pending, k.wf⟩
    · split at h
      · split at h
        · cases h
          exact .of_eq rfl rfl
        · exact State.writeRepeat_keeps h
      · exact State.writeRepeat_keeps h

theorem State.writeFirst_keeps (s : State) (ev : Event) : Keeps s (s.writeFirst ev) := by
  unfold State.writeFirst
  split
  · exact State.writeRec_keeps (by assumption)
  · exact .of_eq rfl rfl

theorem State.writeWaiting_keeps (s : State) : Keeps s s.writeWaiting := by
  unfold State.writeWaiting
  refine Keeps.trans (t := { s with sed := { s.sed with bus := [], queue := [] } }) (.of_eq rfl rfl)
    (Keeps.foldl (fun s ev => ?_) _ _)
  split
  · exact State.writeEvent_keeps (by assumption)
  · exact .of_eq rfl rfl

theorem State.writeNow_keeps (s : State) (code detail src ctx : Nat) : Keeps s (s.writeNow code detail src ctx) :=
  s.writeWaiting_keeps.trans (State.writeFirst_keeps ..)

/-! ## Faults, signals, completion -/

theorem State.notifyOps_keeps (s : State) (code detail : Nat) : Keeps s (s.notifyOps code detail) :=
  Keeps.foldl (fun _ _ => State.notifySession_keeps ..) _ s

theorem State.mapPlaced_keeps (s : State) (r : InstrRef) (f : Placed → Placed) : Keeps s (s.mapPlaced r f) := .of_eq rfl rfl

theorem State.setPhase_keeps (s : State) (r : InstrRef) (ph : Phase) : Keeps s (s.setPhase r ph) := .of_eq rfl rfl

theorem State.dropItems_keeps (s : State) (id : Nat) : Keeps s (s.dropItems id) := .of_eq rfl rfl

theorem State.beginCtxReset_keeps (s : State) (id cause : Nat) : Keeps s (s.beginCtxReset id cause) := by
  unfold State.beginCtxReset
  split
  · exact .refl s
  · split
    · exact .refl s
    · exact ((State.writeNow_keeps ..).trans (State.dropItems_keeps ..)).trans (State.mapCtx_keeps ..)

theorem State.fault_keeps (s : State) (id path : Nat) (f : Fail) : Keeps s (s.fault id path f) := by
  unfold State.fault
  have also (l : List Mismatch) (s : State) : Keeps s (l.foldl (fun s k => s.raise k.code k.detail k.src id) s) :=
    Keeps.foldl (fun _ _ => State.raise_keeps ..) l s
  exact ((((State.raise_keeps ..).trans (also _ _)).trans (State.mapCtx_keeps ..)).trans (State.beginCtxReset_keeps ..)).trans
    (State.mapCtx_keeps ..)

theorem State.signal_keeps (s : State) (id path idx add : Nat) : Keeps s (s.signal id path idx add) := by
  unfold State.signal
  split
  · exact .refl s
  · split
    · exact State.fault_keeps ..
    · exact State.mapCtx_keeps ..

theorem State.signalAll_keeps (s : State) (id path : Nat) (l : List (Nat × Nat)) : Keeps s (s.signalAll id path l) :=
  Keeps.foldl (fun _ _ => State.signal_keeps ..) l s

theorem State.retire_keeps (s : State) (r : InstrRef) : Keeps s (s.retire r) := .of_eq rfl rfl

theorem State.reportUpdate_keeps (s : State) (id path : Nat) (u : Nat × Nat) : Keeps s (s.reportUpdate id path u) := by
  unfold State.reportUpdate
  dsimp only
  repeat' split
  all_goals exact .of_eq rfl rfl

theorem State.raiseFlags_keeps (s : State) (id g fl : Nat) : Keeps s (s.raiseFlags id g fl) := by
  unfold State.raiseFlags
  split
  · exact .refl s
  · exact State.mapCtx_keeps ..

theorem State.raiseAll_keeps (s : State) (id : Nat) (l : List (Nat × Nat)) : Keeps s (s.raiseAll id l) :=
  Keeps.foldl (fun _ _ => State.raiseFlags_keeps ..) l s

theorem State.completeInstr_keeps (s : State) (r : InstrRef) (f : Found) : Keeps s (s.completeInstr r f) := by
  have tail (s : State) : Keeps s (if f.ctx.phase = .resetting then s.retire r
      else ((s.retire r).raiseAll r.ctx f.p.flags).signalAll r.ctx f.path (signalsOf f.words)) :=
    .ite (s.retire_keeps r) (((s.retire_keeps r).trans (State.raiseAll_keeps ..)).trans (State.signalAll_keeps ..))
  unfold State.completeInstr
  split
  · exact (State.reportUpdate_keeps ..).trans (tail _)
  · exact tail s

/-! ## What a conversion unit writes, and the flags of the vector unit -/

theorem State.credit_keeps (s : State) (id : Nat) (t : Tensor) (step : Nat) (counts : List Nat) :
    Keeps s (s.credit id t step counts) := by
  unfold State.credit
  split
  · exact State.mapCtx_keeps ..
  · exact .refl s

theorem State.drew_keeps (s : State) (id n : Nat) : Keeps s (s.drew id n) := .of_eq rfl rfl

theorem State.writeScale_keeps (s : State) (id : Nat) (t : Tensor) (k : Coord) (sc : Scale) :
    KeepsOk s (s.writeScale id t k sc) := by
  unfold State.writeScale
  refine (State.wrNat_keeps ..).bind fun u => ?_
  split
  · exact .pure (.refl u)
  · exact State.wrNat_keeps ..
  · exact (State.wrNat_keeps ..).bind fun _ => State.wrNat_keeps ..

theorem State.observe_keeps (s : State) (id : Nat) (c : Ctx) (t : Tensor) (rc : SieveRec) (k : Coord) (r : BlockReport) :
    KeepsOk s (s.observe id c t rc k r) := by
  unfold State.observe
  split
  · exact .read fun _ => State.wrBytes_keeps ..
  · exact .ok (.refl s)

theorem State.writeBlockN_keeps (s : State) (id : Nat) (t : Tensor) (rc : SieveRec) (sp : WriteSpec) (row : Coord)
    (len : Nat) (val : Coord → Num) (lo : Nat) : KeepsOk s (s.writeBlockN id t rc sp row len val lo) := by
  unfold State.writeBlockN
  split
  · exact .error _
  · refine .read fun xs => .read fun words => .read fun sc => ?_
    refine (State.wrNat_keeps ..).bind fun u => (State.writeScale_keeps ..).bind fun v =>
      (State.observe_keeps ..).bind fun w => .pure ?_
    exact (Keeps.ite (State.mapCtx_keeps ..) (.refl w)).trans (State.credit_keeps ..)

theorem State.writeBlockW_keeps (s : State) (id : Nat) (t : Tensor) (sp : WriteSpec) (row : Coord) (len : Nat)
    (val : Coord → Num) (lo : Nat) : KeepsOk s (s.writeBlockW id t sp row len val lo) := by
  unfold State.writeBlockW
  split
  · exact .error _
  · exact .read fun codes => (State.wrNat_keeps ..).bind fun u => .pure (State.credit_keeps ..)

/-- The one way a conversion unit writes a tensor. -/
theorem State.writeTensor_keeps (s : State) (id : Nat) (v : TView) (sp : WriteSpec) (keep : Coord → Bool)
    (val : Coord → Num) : KeepsOk s (s.writeTensor id v sp keep val) := by
  unfold State.writeTensor
  split
  · exact .error _
  · dsimp only
    have pad (u : State) (m : Nat) (ks : List Coord) (g : Coord → Nat) (bs : List Byte) :
        KeepsOk u (ks.foldlM (fun s k => s.wrBytes id (g k) bs) (u.drew id m)) :=
      .after (State.drew_keeps ..) (.foldlM (fun _ _ => State.wrBytes_keeps ..) _ _)
    split
    · exact .read fun rc => (KeepsOk.foldlM (fun _ _ => State.writeBlockN_keeps ..) _ s).bind fun u => pad u _ _ _ _
    · exact .read fun rc => (KeepsOk.foldlM (fun _ _ => State.writeBlockW_keeps ..) _ s).bind fun u => pad u _ _ _ _

theorem State.undefView_keeps (s : State) (id : Nat) (v : TView) : Keeps s (s.undefView id v) := by
  unfold State.undefView
  dsimp only
  split
  · exact (State.undefRange_keeps ..).trans (State.undefRange_keeps ..)
  · have many (l : List Coord) (g : Coord → Nat) (n : Nat) (u : State) :
        Keeps u (l.foldl (fun s k => s.undefRange id (g k) n) u) := Keeps.foldl (fun _ _ => State.undefRange_keeps ..) l u
    split
    · exact (many ..).trans (Keeps.foldl (fun _ _ => State.undefRange_keeps ..) _ _)
    · exact many ..

/-! ## Mailboxes -/

theorem State.mapSession_keeps (s : State) (id : Nat) (f : Session → Session) : Keeps s (s.mapSession id f) := .of_eq rfl rfl

theorem State.undefAreaPages_keeps (n : Nat) (c : Ctx) (k : Nat) (s : State) (off i len : Nat) :
    Keeps s (State.undefAreaPages n c k s off i len) := by
  induction k generalizing s off i len with
  | zero => exact .refl s
  | succ k ih =>
    unfold State.undefAreaPages
    split
    · exact .refl s
    · dsimp only
      split
      · exact (State.pokes_keeps ..).trans (ih ..)
      · exact ih ..

theorem State.undefArea_keeps (s : State) (c : Ctx) (start len : Nat) : Keeps s (s.undefArea c start len) :=
  s.draw_keeps.trans (State.undefAreaPages_keeps ..)

theorem State.undefHandle_keeps (s : State) (h : Handle) : Keeps s (s.undefHandle h) := by
  unfold State.undefHandle
  split
  · exact .refl s
  · split
    · split
      · exact State.undefArea_keeps ..
      · exact .refl s
    · exact State.undefRange_keeps ..

theorem State.cancelWhere_keeps (s : State) (p : Handle → Bool) : Keeps s (s.cancelWhere p) := by
  have first (l : List Handle) (s : State) : Keeps s (l.foldl (fun s h => s.undefHandle h) s) :=
    Keeps.foldl (fun _ _ => State.undefHandle_keeps ..) l s
  have second (l : List Handle) (s : State) : Keeps s (l.foldl (fun s h =>
      if h.exporting then s.mapCtx h.ctx fun c => { c with exporting := false } else s) s) :=
    Keeps.foldl (fun s _ => .ite (State.mapCtx_keeps ..) (.refl s)) l s
  unfold State.cancelWhere
  have k := (first ((s.ligil.sessions.flatMap Session.handles).filter p) s).trans
    (second ((s.ligil.sessions.flatMap Session.handles).filter p) _)
  exact ⟨k.pending, k.wf⟩

theorem State.endSession_keeps (s : State) (se : Session) : Keeps s (s.endSession se) := by
  have k := State.cancelWhere_keeps s fun h => se.handles.any fun x => x.id == h.id
  unfold State.endSession
  dsimp only
  split <;> exact ⟨k.pending, k.wf⟩

theorem State.closeConn_keeps (s : State) (conn : Nat) : Keeps s (s.closeConn conn) := by
  unfold State.closeConn
  split
  · exact .refl s
  · dsimp only
    split
    · exact ⟨(State.endSession_keeps ..).pending, (State.endSession_keeps ..).wf⟩
    · exact .of_eq rfl rfl

theorem State.protocolError_keeps (s : State) (conn : Nat) : Keeps s (s.protocolError conn) :=
  (State.raise_keeps ..).trans (State.closeConn_keeps ..)

theorem State.answer_keeps (s : State) (id : Nat) (sl : Slot) (status detail : Nat) (words : List (Nat × Nat))
    (payload : List Byte) : Keeps s (s.answer id sl status detail words payload) := by
  unfold State.answer
  split
  · exact .refl s
  · dsimp only
    split <;> exact .of_eq rfl rfl

theorem State.refuseWith_keeps (s : State) (id : Nat) (sl : Slot) (status detail : Nat) (words : List (Nat × Nat)) :
    Keeps s (s.refuseWith id sl status detail words) := (State.raise_keeps ..).trans (State.answer_keeps ..)

theorem State.refuse_keeps (s : State) (id : Nat) (sl : Slot) (status detail : Nat) : Keeps s (s.refuse id sl status detail) :=
  State.refuseWith_keeps ..

theorem State.answerBusy_keeps (s : State) (p : Busy → Option (Nat × Nat × List (Nat × Nat))) : Keeps s (s.answerBusy p) := by
  refine Keeps.foldl (fun s se => Keeps.foldl (fun s b => ?_) _ s) _ s
  split
  · exact (State.answer_keeps ..).trans (State.mapSession_keeps ..)
  · exact .refl s

theorem State.openSession_keeps (s : State) (k : Conn) : Keeps s (s.openSession k).1 := by
  unfold State.openSession
  split
  · exact .refl s
  · exact .of_eq rfl rfl

theorem State.sessionLimit_keeps (s : State) (k : Conn) (sl : Slot) : Keeps s (s.sessionLimit k sl) := by
  have h := (State.raise_keeps s 0x6020 0 pkgPath noCtx).trans (State.closeConn_keeps _ k.id)
  exact ⟨h.pending, h.wf⟩

theorem State.execute_keeps (s : State) (se : Session) (c : Instr) (sl : Slot) {run : State → State}
    (h : ∀ s, Keeps s (run s)) : Keeps s (s.execute se c sl run) := by
  unfold State.execute
  split
  · exact .of_eq rfl rfl
  · refine Keeps.trans ?_ (State.refuse_keeps ..)
    split
    · exact .refl s
    · exact .of_eq rfl rfl
  · exact Keeps.trans (t := s.advanceSeq se.id sl) (.of_eq rfl rfl) (.ite (h _) (State.refuse_keeps ..))

/-- A Ligil command keeps what its own effect keeps. -/
theorem State.command_keeps (s : State) (c : Instr) (sl : Slot) (mine : Bool) {run : Session → State → State}
    (h : ∀ se s, Keeps s (run se s)) : Keeps s (s.command c sl mine run) := by
  unfold State.command
  split
  · exact .refl s
  · split
    · split
      · exact State.protocolError_keeps ..
      · split
        · exact .of_eq rfl rfl
        · exact State.execute_keeps _ _ _ _ (h _)
    · split
      · exact .refl s
      · split
        · exact State.protocolError_keeps ..
        · split
          · rename_i e
            have o := State.openSession_keeps s ‹_›
            rw [e] at o
            exact o.trans (State.execute_keeps _ _ _ _ (h _))
          · rename_i e
            have o := State.openSession_keeps s ‹_›
            rw [e] at o
            exact o.trans (State.sessionLimit_keeps ..)

/-! ## A lane instruction's whole effect -/

theorem State.undefTensors_keeps (s : State) (id : Nat) (p : Plan) (iter : Nat) (l : List Nat) :
    Keeps s (s.undefTensors id p iter l) := Keeps.foldl (fun _ _ => State.undefView_keeps ..) _ s

theorem State.runIssuedWith_keeps (s : State) (r : InstrRef) (ok : Found → Bool) {undo : Found → Plan → State → State}
    {act : Found → Plan → State → Except Fail State} (hu : ∀ f p s, Keeps s (undo f p s))
    (ha : ∀ f p s, KeepsOk s (act f p s)) : Keeps s (s.runIssuedWith r ok undo act) := by
  unfold State.runIssuedWith
  split
  · exact .refl s
  · split
    · split
      · exact .refl s
      · split
        · rename_i e
          exact ((ha _ _ _).at_ok _ e).trans (State.setPhase_keeps ..)
        · exact ((hu _ _ _).trans (State.setPhase_keeps ..)).trans (State.fault_keeps ..)
    · exact .refl s

theorem State.runIssued_keeps (s : State) (r : InstrRef) (ok : Found → Bool) (outs : Found → Plan → List Nat)
    {act : Found → Plan → State → Except Fail State} (ha : ∀ f p s, KeepsOk s (act f p s)) :
    Keeps s (s.runIssued r ok outs act) := State.runIssuedWith_keeps s r ok (fun _ _ _ => State.undefTensors_keeps ..) ha

/-- What a lane instruction does (R98): it is executed with the result of its effect; or its output becomes undefined,
it ends and its context faults; or, where it does not name an issued instruction of its own of a context outside a
reset, nothing changes. -/
theorem State.runIssuedWith_cases (s : State) (r : InstrRef) (ok : Found → Bool) (undo : Found → Plan → State → State)
    (act : Found → Plan → State → Except Fail State) :
    (∃ f p t, s.found? r = some f ∧ ok f = true ∧ f.p.phase = .issued ∧ f.ctx.phase ≠ .resetting ∧
       s.engineStopped f = false ∧ f.ctx.plan = some p ∧
       act f p s = .ok t ∧ s.runIssuedWith r ok undo act = t.setPhase r .executed) ∨
    (∃ f p e, s.found? r = some f ∧ ok f = true ∧ f.p.phase = .issued ∧ f.ctx.phase ≠ .resetting ∧
       s.engineStopped f = false ∧ f.ctx.plan = some p ∧
       act f p s = .error e ∧
       s.runIssuedWith r ok undo act = ((undo f p s).setPhase r .retired).fault r.ctx f.path e) ∨
    s.runIssuedWith r ok undo act = s := by
  unfold State.runIssuedWith
  split
  · exact .inr (.inr rfl)
  · rename_i f hf
    split
    · rename_i h
      simp only [Bool.and_eq_true, beq_iff_eq, bne_iff_ne, Bool.not_eq_true'] at h
      split
      · exact .inr (.inr rfl)
      · rename_i p hp
        split
        · rename_i t ht
          exact .inl ⟨f, p, t, hf, h.1.1.1, h.1.1.2, h.1.2, h.2, hp, ht, rfl⟩
        · rename_i e he
          exact .inr (.inl ⟨f, p, e, hf, h.1.1.1, h.1.1.2, h.1.2, h.2, hp, he, rfl⟩)
    · exact .inr (.inr rfl)

end Sys2Proof.Machine
end

