-- ==== Sys2Proof/Laws/Lookup.lean ====
section
/-! SUPPORT. What the named updates leave to be looked up: a context, a session, a port, a commons object, a keyed
value. The updates touch the one they name and no other. -/

namespace Sys2Proof.Machine

/-! ## Keyed lists -/

theorem getKey_setKey {α : Type} (d v : α) (l : List (Nat × α)) (k j : Nat) :
    getKey d (setKey l k v) j = if j = k then v else getKey d l j := by
  unfold getKey
  induction l with
  | nil =>
    by_cases h : j = k
    · simp [setKey, h]
    · simp [setKey, h, Ne.symm h]
  | cons p ps ih =>
    unfold setKey
    by_cases hp : p.1 = k
    · by_cases h : j = k
      · simp [hp, h]
      · simp [hp, h, Ne.symm h]
    · by_cases h : p.1 = j
      · simp [h, show j ≠ k from fun e => hp (h.trans e)]
      · simpa [hp, h] using ih

@[simp] theorem getKey_setKey_self {α : Type} (d v : α) (l : List (Nat × α)) (k : Nat) : getKey d (setKey l k v) k = v := by
  simp [getKey_setKey]

theorem getKey_setKey_ne {α : Type} (d v : α) (l : List (Nat × α)) {k j : Nat} (h : j ≠ k) :
    getKey d (setKey l k v) j = getKey d l j := by
  simp [getKey_setKey, h]

/-- The one with a number, after an update that keeps every number. -/
theorem find?_map_number {α : Type} (g : α → Nat) (f : α → α) (hf : ∀ a, g (f a) = g a) (l : List α) (i j : Nat) :
    (l.map fun a => if g a = i then f a else a).find? (fun a => g a == j) =
      if j = i then (l.find? fun a => g a == j).map f else l.find? fun a => g a == j := by
  induction l with
  | nil => simp
  | cons a l ih =>
    have hn : g (if g a = i then f a else a) = g a := by split <;> simp [hf]
    rw [List.map_cons, List.find?_cons, List.find?_cons, hn, ih]
    by_cases h : g a = j
    · rw [show (g a == j) = true by simp [h]]
      by_cases e : j = i <;> simp [h, e]
    · rw [show (g a == j) = false by simp [h]]

/-! ## Contexts, sessions, ports, objects, schedulers -/

theorem State.ctx?_mapCtx (s : State) (id j : Nat) {f : Ctx → Ctx} (hf : ∀ c, (f c).id = c.id) :
    (s.mapCtx id f).ctx? j = if j = id then (s.ctx? j).map f else s.ctx? j :=
  find?_map_number Ctx.id f hf s.ctxs id j

theorem State.ctx?_mapCtx_self {s : State} {id : Nat} {c : Ctx} {f : Ctx → Ctx} (h : s.ctx? id = some c)
    (hf : ∀ c, (f c).id = c.id) : (s.mapCtx id f).ctx? id = some (f c) := by
  simp [State.ctx?_mapCtx s id id hf, h]

theorem State.ctx?_id {s : State} {id : Nat} {c : Ctx} (h : s.ctx? id = some c) : c.id = id := by
  simpa using List.find?_some h

theorem State.session?_mapSession (s : State) (id j : Nat) {f : Session → Session} (hf : ∀ x, (f x).id = x.id) :
    (s.mapSession id f).session? j = if j = id then (s.session? j).map f else s.session? j :=
  find?_map_number Session.id f hf s.ligil.sessions id j

theorem State.session?_id {s : State} {id : Nat} {x : Session} (h : s.session? id = some x) : x.id = id := by
  simpa using List.find?_some h

theorem State.object?_mapObject (s : State) (id j : Nat) {f : CommonsObj → CommonsObj}
    (hf : ∀ o, (f o).entry.id = o.entry.id) :
    (s.mapObject id f).object? j = if j = id then (s.object? j).map f else s.object? j :=
  find?_map_number (fun o : CommonsObj => o.entry.id) f hf s.arbiter.objects id j

theorem State.port?_mapPort (s : State) (p q : Nat) (f : Port → Port) :
    (s.mapPort p f).port? q = if q = p then (s.port? q).map f else s.port? q := by
  simp only [State.port?, State.mapPort, modifyAt, List.getElem?_modify]
  by_cases h : q = p
  · simp [h]
  · simp [h, Ne.symm h]

theorem State.sched_setSched (s : State) (g h : Nat) (q : Sched) :
    (s.setSched g q).sched h = if h = g then q else s.sched h := getKey_setKey ..

/-! ## A context's registers and counters -/

theorem Ctx.grain_setGrain (c : Ctx) (g h : Nat) (r : GrainRegs) :
    (c.setGrain g r).grain h = if h = g then r else c.grain h := getKey_setKey ..

theorem Ctx.path_setPath (c : Ctx) (p q : Nat) (r : PathRegs) :
    (c.setPath p r).path q = if q = p then r else c.path q := getKey_setKey ..

/-- A signal that does not overflow adds its addend to its counter and leaves every other one (R262). -/
theorem State.signal_counter {s : State} {id path idx add : Nat} {c : Ctx} (h : s.ctx? id = some c)
    (fit : c.counter idx + add ≤ 0xFFFFFFFF) :
    ∃ d, (s.signal id path idx add).ctx? id = some d ∧
      (∀ k, d.counter k = if k = idx then c.counter k + add else c.counter k) ∧
      d = { c with counters := setKey c.counters idx (c.counter idx + add) } := by
  refine ⟨{ c with counters := setKey c.counters idx (c.counter idx + add) }, ?_, fun k => ?_, rfl⟩
  · unfold State.signal
    rw [h]
    simp only [if_neg (Nat.not_lt.mpr fit)]
    exact State.ctx?_mapCtx_self h fun _ => rfl
  · simp only [Ctx.counter, getKey_setKey]
    split
    · rename_i e
      rw [e]
    · rfl

/-! ## What is left alone -/

theorem SameOthers.refl (id : Nat) (s : State) : SameOthers id s s := fun _ _ => rfl

theorem SameOthers.trans {id : Nat} {s t u : State} (h : SameOthers id s t) (k : SameOthers id t u) : SameOthers id s u :=
  fun j hj => (k j hj).trans (h j hj)

theorem SameOthers.mapCtx (s : State) (id : Nat) {f : Ctx → Ctx} (hf : ∀ c, (f c).id = c.id) :
    SameOthers id s (s.mapCtx id f) := fun j hj => by simp [State.ctx?_mapCtx s id j hf, hj]

theorem SameOtherPorts.mapPort (s : State) (p : Nat) (f : Port → Port) : SameOtherPorts p s (s.mapPort p f) := fun q hq =>
  (State.port?_mapPort s p q f).trans (if_neg hq)

theorem SameBase.refl (s : State) : SameBase s s := ⟨rfl, rfl, rfl, rfl, rfl, rfl⟩

theorem SameBase.trans {s t u : State} (h : SameBase s t) (k : SameBase t u) : SameBase s u :=
  ⟨k.pending.trans h.pending, k.caps.trans h.caps, k.boot.trans h.boot, k.flash.trans h.flash, k.power.trans h.power,
   k.tap.trans h.tap⟩

theorem SameDevice.refl (s : State) : SameDevice s s := ⟨.refl s, rfl, rfl, rfl⟩

theorem SameDevice.trans {s t u : State} (h : SameDevice s t) (k : SameDevice t u) : SameDevice s u :=
  ⟨h.toSameBase.trans k.toSameBase, k.ports.trans h.ports, k.resets.trans h.resets, k.bg.trans h.bg⟩

theorem SameDevice.mapCtx (s : State) (id : Nat) (f : Ctx → Ctx) : SameDevice s (s.mapCtx id f) :=
  ⟨⟨rfl, rfl, rfl, rfl, rfl, rfl⟩, rfl, rfl, rfl⟩

end Sys2Proof.Machine
end

