-- ==== Sys2Proof/WellFormed.lean ====
section
/-! DEFINITION. Which commands are well formed: every number an operand holds lies in the range its field or name
has in the spec. The meanings do not rely on it: a command that names nothing finds nothing. -/

namespace Sys2Proof

/-- A placed instruction's names: context ids 0 to 63 (R343), at most 341 stream directory entries (R250), a step
number of 48 bits (R351). -/
def InstrRef.wf (r : InstrRef) : Bool :=
  decide (r.ctx < 64) && decide (r.step < 2 ^ 48) && decide (r.stream < 341) && decide (r.index < 2 ^ 32)

/-- An engine's grain or number (R9, R10). -/
def Engine.wf : Engine → Bool
  | .forward g => decide (g < 256)
  | .backward0 g => decide (g < 256)
  | .backward1 g => decide (g < 256)
  | .vector g => decide (g < 256)
  | .conversion0 g => decide (g < 256)
  | .conversion1 g => decide (g < 256)
  | .copy n => decide (n < 64)

/-- A command slot (R331): twelve argument words, and a payload of the length word 2 gives, at most 4,032 bytes. -/
def Slot.wf (s : Slot) : Bool :=
  decide (s.args.length = 12) && decide (s.payload.length = s.len) && decide (s.len ≤ 4032)

/-- A Rinan port number. -/
def portWf (p : Nat) : Bool := decide (p < 32)

/-- A die number. -/
def dieWf (d : Nat) : Bool := decide (d < 4)

/-- Whether a command is well formed. -/
def Instr.wf : Instr → Bool
  | .mmFwd r | .mmBwd r | .vecElt r | .vecRowred r | .rowstatFwd r | .rowstatBwd r | .dropout r | .initTensor r
  | .sample r | .clipSum r | .clipFinish r | .convert r | .optimise r | .copy r | .copyComplete r | .promote r
  | .evict r | .sealObject r | .copyPort r | .portCopyCompletion r _ | .synWait r | .synSignal r | .allReduce r
  | .reduceScatter r | .allGather r | .ringPass r | .nop r | .regWrite r | .grnFpcsrWrite r | .pwrHintWrite r
  | .sieveCommit r | .stepEnd r | .loopEnd r | .laneIssue r | .instructionComplete r | .waitTimeout r
  | .collTimeout r | .updateStall r => r.wf
  | .instructionAccept g r _ => decide (g < 256) && r.wf
  | .itemEnterWindow g _ => decide (g < 256)
  | .itemIssue g a | .itemComplete g a => decide (g < 256) && decide (a < 3)
  | .itemRetry e r => e.wf && r.wf
  | .engineHang e | .engineReset e _ | .engineResetDone e => e.wf
  | .commonsFillDone o | .commonsDrainDone o => decide (o < 4096)
  | .snapshotFirstWrite c p => decide (c < 64) && decide (p < 16384 + 294912)
  | .snapshotDrainPage c | .holdComplete c | .contextReset c _ | .contextResetStopDone c
  | .contextResetRestoreDone c | .exportEnd c => decide (c < 64)
  | .hello sl | .attest sl | .admitCtx sl | .reserve sl | .release sl | .attachCommons sl | .attachCommonsGrant sl
  | .detachCommons sl | .detachCommonsRevoke sl | .loadPlan sl | .bindDataOpenIn sl | .bindDataOpenOut sl
  | .bindDataClose sl | .runStep sl | .hold sl | .resume sl | .snapshot sl | .restore sl | .exportSnapshot sl
  | .queryStats sl | .queryCaps sl | .fwOffer sl | .fwChunk sl | .fwActivate sl | .fwConfirm sl
  | .logReadRecords sl | .logReadConfig sl | .logWriteConfig sl | .logReadSet sl | .logWriteSet sl | .dumpRead sl
  | .resetReq sl | .powerPolicy sl => sl.wf
  | .flitReceive p b _ => portWf p && decide (b.length = 256)
  | .collMessageReceive p b _ => portWf p && decide (b < 4096)
  | .flitSend p | .retryRequest p _ | .ackTimeout p | .linkDown p | .laneLockLoss p _ | .peerSlow p _
  | .laneErrorInterval p _ | .probeBurst p | .portBurstHeard p | .portTrainDone p _ _
  | .portAuthDone p _ | .peerAuthTimeout p | .quarantineExpiry p | .bindingTableExchange p _
  | .portPowerOff p | .portOffReturnDone p | .equaliserRecalibration p _ => portWf p
  | .laneWidthChangeDone w => portWf w.port
  | .linkKeyUpdate h => portWf h.port
  | .partitionTrainDone t => dieWf t.die
  | .partitionReset d _ | .partitionStopDone d | .partitionDumpDone d | .partitionRetireDone d
  | .partitionZeroDone d | .thermalCapStep d => dieWf d
  | .subsoilRetraining st ch => decide (st < 12) && decide (ch < 32)
  | .bgDeadlineForced t => decide (t < 8)
  | .patrolScrub p _ | .topsoilScrub p _ | .pageZeroDone p => decide (p < 16384 + 294912)
  | .eventSlotRelease _ _ sl | .commandSlotRelease _ _ sl => decide (sl.slot < 16)
  | .bulkFrame _ _ _ d => decide (d.length ≤ 65536)
  | .clientConnect _ _ _ | .sessionEnd _ | .lglBootLockClose | .fwApplyDone | .eventDeliver _ | .chipReset _ | .resetEscalated _ _ | .powerCycleRequest
  | .controllerHeartbeatExpiry _ | .managementHeartbeatExpiry | .readyWatchdogExpiry | .romStartDone
  | .identityDone _ | .recordsDone | .bankLoadDone | .handoverDone | .firmwareReady | .dumpFlashCopyDone
  | .pkgResetAssert _ | .pkgResetRelease _ | .pwrGoodRise | .pwrGoodFall | .powerDownStopDone | .powerBrakeApply _
  | .powerBrakeRelease _ | .refclkLost _ | .refclkReturn _ | .islandClockTrim _ | .thermalSample _
  | .powerLimitLoop _ | .powerStateEnter _ | .powerWake _ | .powerEnable _ | .flashWearLevelling _
  | .telemetrySample _ | .sedEventPost _ | .sedRecordWrite | .sedRecordClose | .sedTokenRefill _ | .sedFlush
  | .powerStateReached _ | .powerWakeDone _ | .controlStateUe _ | .tapInstruction _ | .tapReset => true

end Sys2Proof
end

