-- ==== Sys2Proof/Laws/PerInstr.lean ====
section
/-! SUPPORT. One law for each command, about its operands alone: a well-formed command that travels in a mailbox slot
has twelve argument words and a payload of the length its header gives, which fits the slot (R331). -/

namespace Sys2Proof.Laws.Slots

open Sys2Proof Sys2Proof.Machine

/-- A well-formed command that travels in a slot has a slot of the form of R331. -/
def Statement (i : Instr) : Prop :=
  i.wf = true → ∀ sl, slotOf i = some sl →
    sl.args.length = 12 ∧ sl.payload.length = sl.len ∧ sl.len ≤ 4032

/-- What a well-formed slot is. -/
theorem of_wf {sl : Slot} (h : sl.wf = true) :
    sl.args.length = 12 ∧ sl.payload.length = sl.len ∧ sl.len ≤ 4032 := by
  simpa [Slot.wf, and_assoc] using h

theorem mmFwd (r : InstrRef) : Statement (.mmFwd r) := fun _ _ e => nomatch e
theorem mmBwd (r : InstrRef) : Statement (.mmBwd r) := fun _ _ e => nomatch e
theorem vecElt (r : InstrRef) : Statement (.vecElt r) := fun _ _ e => nomatch e
theorem vecRowred (r : InstrRef) : Statement (.vecRowred r) := fun _ _ e => nomatch e
theorem rowstatFwd (r : InstrRef) : Statement (.rowstatFwd r) := fun _ _ e => nomatch e
theorem rowstatBwd (r : InstrRef) : Statement (.rowstatBwd r) := fun _ _ e => nomatch e
theorem dropout (r : InstrRef) : Statement (.dropout r) := fun _ _ e => nomatch e
theorem initTensor (r : InstrRef) : Statement (.initTensor r) := fun _ _ e => nomatch e
theorem sample (r : InstrRef) : Statement (.sample r) := fun _ _ e => nomatch e
theorem clipSum (r : InstrRef) : Statement (.clipSum r) := fun _ _ e => nomatch e
theorem clipFinish (r : InstrRef) : Statement (.clipFinish r) := fun _ _ e => nomatch e
theorem convert (r : InstrRef) : Statement (.convert r) := fun _ _ e => nomatch e
theorem optimise (r : InstrRef) : Statement (.optimise r) := fun _ _ e => nomatch e
theorem copy (r : InstrRef) : Statement (.copy r) := fun _ _ e => nomatch e
theorem copyComplete (r : InstrRef) : Statement (.copyComplete r) := fun _ _ e => nomatch e
theorem promote (r : InstrRef) : Statement (.promote r) := fun _ _ e => nomatch e
theorem evict (r : InstrRef) : Statement (.evict r) := fun _ _ e => nomatch e
theorem sealObject (r : InstrRef) : Statement (.sealObject r) := fun _ _ e => nomatch e
theorem commonsFillDone (obj : Nat) : Statement (.commonsFillDone obj) := fun _ _ e => nomatch e
theorem commonsDrainDone (obj : Nat) : Statement (.commonsDrainDone obj) := fun _ _ e => nomatch e
theorem copyPort (r : InstrRef) : Statement (.copyPort r) := fun _ _ e => nomatch e
theorem portCopyCompletion (r : InstrRef) (how : CopyEnd) : Statement (.portCopyCompletion r how) := fun _ _ e => nomatch e
theorem synWait (r : InstrRef) : Statement (.synWait r) := fun _ _ e => nomatch e
theorem synSignal (r : InstrRef) : Statement (.synSignal r) := fun _ _ e => nomatch e
theorem allReduce (r : InstrRef) : Statement (.allReduce r) := fun _ _ e => nomatch e
theorem reduceScatter (r : InstrRef) : Statement (.reduceScatter r) := fun _ _ e => nomatch e
theorem allGather (r : InstrRef) : Statement (.allGather r) := fun _ _ e => nomatch e
theorem ringPass (r : InstrRef) : Statement (.ringPass r) := fun _ _ e => nomatch e
theorem collMessageReceive (port bind : Nat) (m : CollMsg) : Statement (.collMessageReceive port bind m) := fun _ _ e => nomatch e
theorem nop (r : InstrRef) : Statement (.nop r) := fun _ _ e => nomatch e
theorem regWrite (r : InstrRef) : Statement (.regWrite r) := fun _ _ e => nomatch e
theorem grnFpcsrWrite (r : InstrRef) : Statement (.grnFpcsrWrite r) := fun _ _ e => nomatch e
theorem pwrHintWrite (r : InstrRef) : Statement (.pwrHintWrite r) := fun _ _ e => nomatch e
theorem lglBootLockClose : Statement (.lglBootLockClose) := fun _ _ e => nomatch e
theorem sieveCommit (r : InstrRef) : Statement (.sieveCommit r) := fun _ _ e => nomatch e
theorem stepEnd (r : InstrRef) : Statement (.stepEnd r) := fun _ _ e => nomatch e
theorem loopEnd (r : InstrRef) : Statement (.loopEnd r) := fun _ _ e => nomatch e
theorem instructionAccept (grain : Nat) (r : InstrRef) (sameCycle : Bool) : Statement (.instructionAccept grain r sameCycle) := fun _ _ e => nomatch e
theorem itemEnterWindow (grain : Nat) (backward : Bool) : Statement (.itemEnterWindow grain backward) := fun _ _ e => nomatch e
theorem itemIssue (grain array : Nat) : Statement (.itemIssue grain array) := fun _ _ e => nomatch e
theorem itemComplete (grain array : Nat) : Statement (.itemComplete grain array) := fun _ _ e => nomatch e
theorem laneIssue (r : InstrRef) : Statement (.laneIssue r) := fun _ _ e => nomatch e
theorem instructionComplete (r : InstrRef) : Statement (.instructionComplete r) := fun _ _ e => nomatch e
theorem itemRetry (e : Engine) (r : InstrRef) : Statement (.itemRetry e r) := fun _ _ e => nomatch e
theorem waitTimeout (r : InstrRef) : Statement (.waitTimeout r) := fun _ _ e => nomatch e
theorem engineHang (e : Engine) : Statement (.engineHang e) := fun _ _ e => nomatch e
theorem collTimeout (r : InstrRef) : Statement (.collTimeout r) := fun _ _ e => nomatch e
theorem updateStall (r : InstrRef) : Statement (.updateStall r) := fun _ _ e => nomatch e
theorem snapshotFirstWrite (ctx page : Nat) : Statement (.snapshotFirstWrite ctx page) := fun _ _ e => nomatch e
theorem snapshotDrainPage (ctx : Nat) : Statement (.snapshotDrainPage ctx) := fun _ _ e => nomatch e
theorem hello (sl : Slot) : Statement (.hello sl) := fun h _ e => by cases e; exact of_wf h
theorem attest (sl : Slot) : Statement (.attest sl) := fun h _ e => by cases e; exact of_wf h
theorem admitCtx (sl : Slot) : Statement (.admitCtx sl) := fun h _ e => by cases e; exact of_wf h
theorem reserve (sl : Slot) : Statement (.reserve sl) := fun h _ e => by cases e; exact of_wf h
theorem release (sl : Slot) : Statement (.release sl) := fun h _ e => by cases e; exact of_wf h
theorem attachCommons (sl : Slot) : Statement (.attachCommons sl) := fun h _ e => by cases e; exact of_wf h
theorem attachCommonsGrant (sl : Slot) : Statement (.attachCommonsGrant sl) := fun h _ e => by cases e; exact of_wf h
theorem detachCommons (sl : Slot) : Statement (.detachCommons sl) := fun h _ e => by cases e; exact of_wf h
theorem detachCommonsRevoke (sl : Slot) : Statement (.detachCommonsRevoke sl) := fun h _ e => by cases e; exact of_wf h
theorem loadPlan (sl : Slot) : Statement (.loadPlan sl) := fun h _ e => by cases e; exact of_wf h
theorem bindDataOpenIn (sl : Slot) : Statement (.bindDataOpenIn sl) := fun h _ e => by cases e; exact of_wf h
theorem bindDataOpenOut (sl : Slot) : Statement (.bindDataOpenOut sl) := fun h _ e => by cases e; exact of_wf h
theorem bindDataClose (sl : Slot) : Statement (.bindDataClose sl) := fun h _ e => by cases e; exact of_wf h
theorem bulkFrame (conn : Nat) (head : FrameHead) (bulk : BulkHead) (data : List Byte) : Statement (.bulkFrame conn head bulk data) := fun _ _ e => nomatch e
theorem runStep (sl : Slot) : Statement (.runStep sl) := fun h _ e => by cases e; exact of_wf h
theorem hold (sl : Slot) : Statement (.hold sl) := fun h _ e => by cases e; exact of_wf h
theorem holdComplete (ctx : Nat) : Statement (.holdComplete ctx) := fun _ _ e => nomatch e
theorem resume (sl : Slot) : Statement (.resume sl) := fun h _ e => by cases e; exact of_wf h
theorem snapshot (sl : Slot) : Statement (.snapshot sl) := fun h _ e => by cases e; exact of_wf h
theorem restore (sl : Slot) : Statement (.restore sl) := fun h _ e => by cases e; exact of_wf h
theorem exportSnapshot (sl : Slot) : Statement (.exportSnapshot sl) := fun h _ e => by cases e; exact of_wf h
theorem queryStats (sl : Slot) : Statement (.queryStats sl) := fun h _ e => by cases e; exact of_wf h
theorem queryCaps (sl : Slot) : Statement (.queryCaps sl) := fun h _ e => by cases e; exact of_wf h
theorem fwOffer (sl : Slot) : Statement (.fwOffer sl) := fun h _ e => by cases e; exact of_wf h
theorem fwChunk (sl : Slot) : Statement (.fwChunk sl) := fun h _ e => by cases e; exact of_wf h
theorem fwApplyDone : Statement (.fwApplyDone) := fun _ _ e => nomatch e
theorem fwActivate (sl : Slot) : Statement (.fwActivate sl) := fun h _ e => by cases e; exact of_wf h
theorem fwConfirm (sl : Slot) : Statement (.fwConfirm sl) := fun h _ e => by cases e; exact of_wf h
theorem logReadRecords (sl : Slot) : Statement (.logReadRecords sl) := fun h _ e => by cases e; exact of_wf h
theorem logReadConfig (sl : Slot) : Statement (.logReadConfig sl) := fun h _ e => by cases e; exact of_wf h
theorem logWriteConfig (sl : Slot) : Statement (.logWriteConfig sl) := fun h _ e => by cases e; exact of_wf h
theorem logReadSet (sl : Slot) : Statement (.logReadSet sl) := fun h _ e => by cases e; exact of_wf h
theorem logWriteSet (sl : Slot) : Statement (.logWriteSet sl) := fun h _ e => by cases e; exact of_wf h
theorem dumpRead (sl : Slot) : Statement (.dumpRead sl) := fun h _ e => by cases e; exact of_wf h
theorem resetReq (sl : Slot) : Statement (.resetReq sl) := fun h _ e => by cases e; exact of_wf h
theorem powerPolicy (sl : Slot) : Statement (.powerPolicy sl) := fun h _ e => by cases e; exact of_wf h
theorem clientConnect (conn front : Nat) (cert : CertVerdict) : Statement (.clientConnect conn front cert) := fun _ _ e => nomatch e
theorem sessionEnd (conn : Nat) : Statement (.sessionEnd conn) := fun _ _ e => nomatch e
theorem eventSlotRelease (conn : Nat) (head : FrameHead) (slot : SlotRelease) : Statement (.eventSlotRelease conn head slot) := fun _ _ e => nomatch e
theorem eventDeliver (session : Nat) : Statement (.eventDeliver session) := fun _ _ e => nomatch e
theorem flitSend (port : Nat) : Statement (.flitSend port) := fun _ _ e => nomatch e
theorem flitReceive (port : Nat) (bytes : List Byte) (clean : Bool) : Statement (.flitReceive port bytes clean) := fun _ _ e => nomatch e
theorem retryRequest (port seq : Nat) : Statement (.retryRequest port seq) := fun _ _ e => nomatch e
theorem ackTimeout (port : Nat) : Statement (.ackTimeout port) := fun _ _ e => nomatch e
theorem linkDown (port : Nat) : Statement (.linkDown port) := fun _ _ e => nomatch e
theorem laneLockLoss (port lanes : Nat) : Statement (.laneLockLoss port lanes) := fun _ _ e => nomatch e
theorem peerSlow (port vc : Nat) : Statement (.peerSlow port vc) := fun _ _ e => nomatch e
theorem laneErrorInterval (port : Nat) (errs : List LaneErrors) : Statement (.laneErrorInterval port errs) := fun _ _ e => nomatch e
theorem laneWidthChangeDone (w : WidthChange) : Statement (.laneWidthChangeDone w) := fun _ _ e => nomatch e
theorem probeBurst (port : Nat) : Statement (.probeBurst port) := fun _ _ e => nomatch e
theorem portBurstHeard (port : Nat) : Statement (.portBurstHeard port) := fun _ _ e => nomatch e
theorem portTrainDone (port : Nat) (selfTest : Bool) (lanes : Nat) : Statement (.portTrainDone port selfTest lanes) := fun _ _ e => nomatch e
theorem portAuthDone (port : Nat) (h : LinkHello) : Statement (.portAuthDone port h) := fun _ _ e => nomatch e
theorem peerAuthTimeout (port : Nat) : Statement (.peerAuthTimeout port) := fun _ _ e => nomatch e
theorem quarantineExpiry (port : Nat) : Statement (.quarantineExpiry port) := fun _ _ e => nomatch e
theorem linkKeyUpdate (h : PortHello) : Statement (.linkKeyUpdate h) := fun _ _ e => nomatch e
theorem bindingTableExchange (port : Nat) (table : List (Nat × Nat)) : Statement (.bindingTableExchange port table) := fun _ _ e => nomatch e
theorem contextReset (ctx cause : Nat) : Statement (.contextReset ctx cause) := fun _ _ e => nomatch e
theorem contextResetStopDone (ctx : Nat) : Statement (.contextResetStopDone ctx) := fun _ _ e => nomatch e
theorem contextResetRestoreDone (ctx : Nat) : Statement (.contextResetRestoreDone ctx) := fun _ _ e => nomatch e
theorem engineReset (e : Engine) (cause : Nat) : Statement (.engineReset e cause) := fun _ _ e => nomatch e
theorem engineResetDone (e : Engine) : Statement (.engineResetDone e) := fun _ _ e => nomatch e
theorem partitionReset (die cause : Nat) : Statement (.partitionReset die cause) := fun _ _ e => nomatch e
theorem partitionStopDone (die : Nat) : Statement (.partitionStopDone die) := fun _ _ e => nomatch e
theorem partitionDumpDone (die : Nat) : Statement (.partitionDumpDone die) := fun _ _ e => nomatch e
theorem partitionRetireDone (die : Nat) : Statement (.partitionRetireDone die) := fun _ _ e => nomatch e
theorem partitionTrainDone (t : DieTraining) : Statement (.partitionTrainDone t) := fun _ _ e => nomatch e
theorem partitionZeroDone (die : Nat) : Statement (.partitionZeroDone die) := fun _ _ e => nomatch e
theorem chipReset (cause : Nat) : Statement (.chipReset cause) := fun _ _ e => nomatch e
theorem resetEscalated (level part : Nat) : Statement (.resetEscalated level part) := fun _ _ e => nomatch e
theorem powerCycleRequest : Statement (.powerCycleRequest) := fun _ _ e => nomatch e
theorem controllerHeartbeatExpiry (path : Nat) : Statement (.controllerHeartbeatExpiry path) := fun _ _ e => nomatch e
theorem managementHeartbeatExpiry : Statement (.managementHeartbeatExpiry) := fun _ _ e => nomatch e
theorem readyWatchdogExpiry : Statement (.readyWatchdogExpiry) := fun _ _ e => nomatch e
theorem romStartDone : Statement (.romStartDone) := fun _ _ e => nomatch e
theorem identityDone (powerUps : List (List Byte)) : Statement (.identityDone powerUps) := fun _ _ e => nomatch e
theorem recordsDone : Statement (.recordsDone) := fun _ _ e => nomatch e
theorem bankLoadDone : Statement (.bankLoadDone) := fun _ _ e => nomatch e
theorem handoverDone : Statement (.handoverDone) := fun _ _ e => nomatch e
theorem firmwareReady : Statement (.firmwareReady) := fun _ _ e => nomatch e
theorem dumpFlashCopyDone : Statement (.dumpFlashCopyDone) := fun _ _ e => nomatch e
theorem pkgResetAssert (ns : Nat) : Statement (.pkgResetAssert ns) := fun _ _ e => nomatch e
theorem pkgResetRelease (ns : Nat) : Statement (.pkgResetRelease ns) := fun _ _ e => nomatch e
theorem pwrGoodRise : Statement (.pwrGoodRise) := fun _ _ e => nomatch e
theorem pwrGoodFall : Statement (.pwrGoodFall) := fun _ _ e => nomatch e
theorem powerDownStopDone : Statement (.powerDownStopDone) := fun _ _ e => nomatch e
theorem powerBrakeApply (ns : Nat) : Statement (.powerBrakeApply ns) := fun _ _ e => nomatch e
theorem powerBrakeRelease (ns : Nat) : Statement (.powerBrakeRelease ns) := fun _ _ e => nomatch e
theorem refclkLost (clock : Nat) : Statement (.refclkLost clock) := fun _ _ e => nomatch e
theorem refclkReturn (clock : Nat) : Statement (.refclkReturn clock) := fun _ _ e => nomatch e
theorem islandClockTrim (path : Nat) : Statement (.islandClockTrim path) := fun _ _ e => nomatch e
theorem thermalSample (readings : List Reading) : Statement (.thermalSample readings) := fun _ _ e => nomatch e
theorem thermalCapStep (die : Nat) : Statement (.thermalCapStep die) := fun _ _ e => nomatch e
theorem powerLimitLoop (milliwatts : Nat) : Statement (.powerLimitLoop milliwatts) := fun _ _ e => nomatch e
theorem powerStateEnter (path : Nat) : Statement (.powerStateEnter path) := fun _ _ e => nomatch e
theorem powerWake (path : Nat) : Statement (.powerWake path) := fun _ _ e => nomatch e
theorem powerEnable (path : Nat) : Statement (.powerEnable path) := fun _ _ e => nomatch e
theorem portPowerOff (port : Nat) : Statement (.portPowerOff port) := fun _ _ e => nomatch e
theorem patrolScrub (page : Nat) (finding : Finding) : Statement (.patrolScrub page finding) := fun _ _ e => nomatch e
theorem topsoilScrub (page : Nat) (finding : Finding) : Statement (.topsoilScrub page finding) := fun _ _ e => nomatch e
theorem equaliserRecalibration (port lane : Nat) : Statement (.equaliserRecalibration port lane) := fun _ _ e => nomatch e
theorem subsoilRetraining (stack channel : Nat) : Statement (.subsoilRetraining stack channel) := fun _ _ e => nomatch e
theorem pageZeroDone (page : Nat) : Statement (.pageZeroDone page) := fun _ _ e => nomatch e
theorem flashWearLevelling (block : Nat) : Statement (.flashWearLevelling block) := fun _ _ e => nomatch e
theorem bgDeadlineForced (task : Nat) : Statement (.bgDeadlineForced task) := fun _ _ e => nomatch e
theorem telemetrySample (t : Telemetry) : Statement (.telemetrySample t) := fun _ _ e => nomatch e
theorem sedEventPost (src : Nat) : Statement (.sedEventPost src) := fun _ _ e => nomatch e
theorem sedRecordWrite : Statement (.sedRecordWrite) := fun _ _ e => nomatch e
theorem sedRecordClose : Statement (.sedRecordClose) := fun _ _ e => nomatch e
theorem sedTokenRefill (code : Nat) : Statement (.sedTokenRefill code) := fun _ _ e => nomatch e
theorem sedFlush : Statement (.sedFlush) := fun _ _ e => nomatch e
theorem commandSlotRelease (conn : Nat) (head : FrameHead) (slot : SlotRelease) : Statement (.commandSlotRelease conn head slot) := fun _ _ e => nomatch e
theorem powerStateReached (path : Nat) : Statement (.powerStateReached path) := fun _ _ e => nomatch e
theorem powerWakeDone (path : Nat) : Statement (.powerWakeDone path) := fun _ _ e => nomatch e
theorem portOffReturnDone (port : Nat) : Statement (.portOffReturnDone port) := fun _ _ e => nomatch e
theorem exportEnd (ctx : Nat) : Statement (.exportEnd ctx) := fun _ _ e => nomatch e
theorem controlStateUe (path : Nat) : Statement (.controlStateUe path) := fun _ _ e => nomatch e
theorem tapInstruction (i : TapInstr) : Statement (.tapInstruction i) := fun _ _ e => nomatch e
theorem tapReset : Statement (.tapReset) := fun _ _ e => nomatch e

end Sys2Proof.Laws.Slots
end

