-- ==== Sys2Proof/Tests/Slice0.lean ====
section
/-! SUPPORT. Tests: an ill-formed term for each check of WellFormed, states that meet the hypotheses of the statements,
and a few single steps. -/

namespace Sys2Proof.Tests

set_option Elab.async false

open Sys2Proof Sys2Proof.Machine

/-! ## Helpers -/

/-- The instruction at index `i` of stream 0 of step 5 of context 0. -/
def ref (i : Nat) : InstrRef := { ctx := 0, step := 5, stream := 0, index := i }

/-- A tensor without elements at a window offset, in format `fmt`. -/
def emptyTensor (base fmt : Nat) : Tensor :=
  { base, fmt, low := false, grow := 0, wvr := false, d0 := 4, d1 := 0, d2 := 1, d3 := 1, stream := 0, wide := 0xFFFF,
    sieve := noRecord, version := 0, len0 := 0, reservedOk := true, scaleRaw := 0,
    scale := { rotId := 0, rot := 0, track := false, intErr := 0, fmt, axis := 0, reserved := 0, base := 0 } }

/-- A plan of one stream. -/
def plan (path : Nat) (instrs : List (List Nat)) (tensors : List Tensor) : Plan :=
  { offset := 0x1000000000, length := 4096, kind := 0, depth := 1, overlap := false, nFirst := 5, formats := 0, units := 0,
    streams := [{ path, instrs }], tensors, args := [List.replicate 64 0, List.replicate 64 0], commons := [], marks := [] }

/-- A placed instruction. -/
def placedAt (i : Nat) (ph : Phase) : Placed :=
  { stream := 0, index := i, phase := ph, accepted := [], rdir := [], issuedAt := 0, since := none, gateDue := none,
    stalled := false, upd := none, flags := [], masks := [] }

/-- Step 5 with its placed instructions. -/
def run (l : List Placed) : StepRun :=
  { step := 5, tag := 7, at_ := 0, iter := 0, first := 0, maxTokens := 0, placed := l, mask := BitVec.allOnes 256, snapDecided := none,
    nonfinite := [], colls := [] }

/-- A context in the state after ADMIT, of session 1. -/
def fresh : Ctx :=
  .admitted 0 { reference := false, policy := .cont, commonsOwner := true, hangMs := 250, seed := [], owner := 9 } 1

/-- A running context whose step 5 has one stream at a ped, with one page of topsoil and one of subsoil. -/
def running (path : Nat) (instrs : List (List Nat)) (ph : Phase) : Ctx :=
  { fresh with
    phase := .running
    plan := some (plan path instrs [emptyTensor 0 1, emptyTensor 0 1])
    steps := [run ((List.range instrs.length).map fun i => placedAt i ph)]
    pages := { CtxPages.empty with window := [⟨0, 0⟩, ⟨16384, 16384⟩] }
    resv := { Resv.empty with top := [1], sub := [1], counters := [16], shares := [4] } }

/-- The state after reset with contexts. -/
def withCtxs (l : List Ctx) : State := { State.reset with ctxs := l }

/-- A state with one running context whose plan is one instruction, with given words. -/
def one (path : Nat) (words : List Nat) (ph : Phase) : State := withCtxs [running path [words] ph]

theorem ok_of {ε α : Type} {x : Except ε α} (h : x.toBool = true) : ∃ u, x = .ok u := by
  cases x with
  | ok u => exact ⟨u, rfl⟩
  | error e => exact absurd h (by simp [Except.toBool])

theorem error_of {ε α : Type} {x : Except ε α} (h : x.toBool = false) : ∃ e, x = .error e := by
  cases x with
  | ok u => exact absurd h (by simp [Except.toBool])
  | error e => exact ⟨e, rfl⟩

theorem some_of {α : Type} {x : Option α} (h : x.isSome = true) : ∃ u, x = some u := by
  cases x with
  | some u => exact ⟨u, rfl⟩
  | none => exact absurd h (by simp)

theorem bytes_of {ε : Type} {x : Except ε (List Byte)} {n : Nat} (h : x.toOption.map List.length = some n) :
    ∃ d, x = .ok d ∧ d.length = n := by
  cases x with
  | ok d => exact ⟨d, rfl, by simpa [Except.toOption] using h⟩
  | error e => exact absurd h (by simp [Except.toOption])

/-- The state a command leaves, if it stops nowhere. -/
def next? (o : Out) : Option State :=
  match o with
  | .next t => some t
  | _ => none


/-! ## WellFormed refuses -/

theorem test_wf_ref : (Instr.nop (ref 0)).wf = true ∧ (Instr.nop { ref 0 with ctx := 64 }).wf = false ∧
    (Instr.nop { ref 0 with step := 2 ^ 48 }).wf = false ∧ (Instr.nop { ref 0 with stream := 341 }).wf = false ∧
    (Instr.nop { ref 0 with index := 2 ^ 32 }).wf = false := by decide

theorem test_wf_engine : (Instr.engineHang (.forward 256)).wf = false ∧ (Instr.engineHang (.backward0 256)).wf = false ∧
    (Instr.engineHang (.backward1 256)).wf = false ∧ (Instr.engineHang (.vector 256)).wf = false ∧
    (Instr.engineHang (.conversion0 256)).wf = false ∧ (Instr.engineHang (.conversion1 256)).wf = false ∧
    (Instr.engineHang (.copy 64)).wf = false ∧ (Instr.itemRetry (.copy 64) (ref 0)).wf = false ∧
    (Instr.itemRetry (.copy 63) { ref 0 with ctx := 64 }).wf = false := by decide

/-- A command in slot form: session 1, sequence 5, code and argument words. -/
def slot (code seq : Nat) (args : List Nat) (payload : List Byte) : Slot :=
  { conn := 1, head := { type := 1, reserved := 0, length := 64 + payload.length }, owner := 1, reserved := 0
    code := BitVec.ofNat 16 code, session := 1, seq := BitVec.ofNat 16 seq, len := payload.length, status := 0, detail := 0
    args := (args ++ List.replicate (12 - args.length) 0).map (BitVec.ofNat 32), payload }

theorem test_wf_slot : (Instr.attest (slot 2 1 [] [0])).wf = true ∧
    (Instr.attest { slot 2 1 [] [0] with args := [] }).wf = false ∧
    (Instr.attest { slot 2 1 [] [0] with len := 2 }).wf = false ∧
    ∀ l : List Byte, l.length = 4033 → (Instr.attest (slot 2 1 [] l)).wf = false :=
  ⟨by decide, by decide, by decide, fun l h => by simp [Instr.wf, Slot.wf, slot, h]⟩

/-- An idle flit. -/
def flit : Flit :=
  { vc := 0, type := 0, last := false, crypt := false, bind := 0, epoch := 0, seq := 0, fill := 0, reserved := 0, payload := [],
    ack := 0, creditVc := 0, credits := 0 }

theorem test_wf_flit : (Instr.flitReceive 31 (List.replicate 256 0) true).wf = true ∧
    (Instr.flitReceive 32 (List.replicate 256 0) true).wf = false ∧
    (Instr.flitReceive 0 (List.replicate 255 0) true).wf = false := by decide +kernel

theorem test_wf_numbers : (Instr.instructionAccept 256 (ref 0) false).wf = false ∧
    (Instr.instructionAccept 0 { ref 0 with ctx := 64 } false).wf = false ∧ (Instr.itemEnterWindow 256 true).wf = false ∧
    (Instr.itemIssue 256 0).wf = false ∧ (Instr.itemIssue 0 3).wf = false ∧ (Instr.commonsFillDone 4096).wf = false ∧
    (Instr.snapshotFirstWrite 64 0).wf = false ∧ (Instr.snapshotFirstWrite 0 311296).wf = false ∧
    (Instr.exportEnd 64).wf = false ∧ (Instr.linkDown 32).wf = false ∧ (Instr.partitionReset 4 1).wf = false ∧
    (Instr.subsoilRetraining 12 0).wf = false ∧ (Instr.subsoilRetraining 0 32).wf = false ∧
    (Instr.bgDeadlineForced 8).wf = false ∧ (Instr.pageZeroDone 311296).wf = false ∧
    (Instr.eventSlotRelease 0 ⟨4, 0, 4⟩ ⟨16, 0⟩).wf = false ∧ (Instr.commandSlotRelease 0 ⟨4, 0, 4⟩ ⟨16, 0⟩).wf = false ∧
    (Instr.collMessageReceive 32 0 { group := 0, step := 0, serial := 0, rank := 0, maskTag := 0, part := .blockDone }).wf = false ∧
    (Instr.collMessageReceive 0 4096 { group := 0, step := 0, serial := 0, rank := 0, maskTag := 0, part := .blockDone }).wf =
      false := by decide

theorem test_wf_frame : ∀ l : List Byte, l.length = 65537 → (Instr.bulkFrame 0 ⟨3, 0, 65553⟩ ⟨0, 0, 65537⟩ l).wf = false :=
  fun l h => by simp [Instr.wf, h]

/-! ## States that meet the hypotheses: steps, memory, the queue -/

theorem witness_EveryStepKeepsMemoryCanonical : ∃ s t : State, Inv s ∧ step s = .next t :=
  ⟨.reset, _, rfl, rfl⟩

theorem witness_NoCommandTouchesTheQueue : ∃ (c : Instr) (s t : State), exec c s = .next t :=
  ⟨.tapReset, .reset, _, rfl⟩

theorem witness_OnlyADebugInstructionStopsTheBlock :
    (∃ s : State, s.boot.prot.getLsbD 5 = true) ∧ (∃ s : State, s.boot.prot.getLsbD 5 = false) ∧
    ∃ s : State, s.tap = .idcode ∧ s.caps.stepping = 0x10 :=
  ⟨⟨{ State.reset with boot := { State.reset.boot with prot := 0b100000 } }, by decide⟩, ⟨.reset, by decide⟩, .reset, rfl, rfl⟩

/-! ## The control lane -/

/-- A control instruction with a signal of 2 to counter 3; SYN_SIGNAL adds 6 to counter 4 too. -/
def ctl (op : Nat) : List Nat := [op, 0, 0, 3 + 2 ^ 17 + 2 * 2 ^ 18, 4 + (if op = 0x51 then 2 ^ 17 else 0), 6, 0, 0]

/-- One that waits for counter 1 to hold 1. -/
def waits (op : Nat) : List Nat := [op, 1 + 2 ^ 18, 1, 0, 0, 0, 0, 0]

theorem witness_ControlLaneInstructionsRetireAndSignal :
    (∀ op ∈ [0x70, 0x50, 0x51], ∃ u f, u = (one 0x400 (ctl op) .placed).decideEntry (ref 0) ∧ u.found? (ref 0) = some f ∧
      u.issuable f = true ∧ (u.workUnits f).all u.active = true ∧ f.p.upd = none ∧ f.p.flags = [] ∧
      f.ctx.fits (signalsOf f.words) ∧ wOp f.words = op) ∧
    (∃ f ∈ ((one 0x400 (waits 0x70) .placed).decideEntry (ref 0)).found? (ref 0),
      ((one 0x400 (waits 0x70) .placed).decideEntry (ref 0)).waitHolds f = false) ∧
    ∃ f ∈ (one 0x400 (waits 0x73) .placed).found? (ref 0), (one 0x400 (waits 0x73) .placed).waitHolds f = false := by
  refine ⟨fun op h => ?_, by decide, by decide⟩
  fin_cases h
  · refine ⟨_, _, rfl, rfl, by decide, by decide, rfl, rfl, fun i => ?_, rfl⟩
    show 0 + signalSum [(3, 2)] i ≤ _
    by_cases h3 : 3 = i <;> simp [signalSum, sumNat, h3]
  · refine ⟨_, _, rfl, rfl, by decide, by decide, rfl, rfl, fun i => ?_, rfl⟩
    show 0 + signalSum [(3, 2)] i ≤ _
    by_cases h3 : 3 = i <;> simp [signalSum, sumNat, h3]
  · refine ⟨_, _, rfl, rfl, by decide, by decide, rfl, rfl, fun i => ?_, rfl⟩
    show 0 + signalSum [(3, 2), (4, 6)] i ≤ _
    by_cases h3 : 3 = i <;> by_cases h4 : 4 = i <;> simp [signalSum, sumNat, h3, h4]

/-- REG_WRITE to an offset, value and mask all ones. -/
def regw (off : Nat) : List Nat := [0x71, 0, 0, 0, off, 0xFFFFFFFF, 0xFFFFFFFF, 0]

/-- SIEVE_COMMIT of one tensor, or of none. -/
def commit (i : Nat) : List Nat := [0x72, 0, 0, 0, 0xFFFF0000 + i, 0xFFFFFFFF, 0xFFFFFFFF, 0xFFFFFFFF]

/-- One control instruction, once the decision of R268 is made. -/
def decided (path : Nat) (ws : List Nat) : State := (one path ws .placed).decideEntry (ref 0)

theorem witness_RegisterWritesComplete :
    (∃ f ∈ (decided 0x400 (regw 0x200)).found? (ref 0), (decided 0x400 (regw 0x200)).issuable f = true ∧
      ((decided 0x400 (regw 0x200)).workUnits f).all (decided 0x400 (regw 0x200)).active = true ∧
      wOp f.words = 0x71 ∧ isFpcsrWrite f.path f.words = false ∧ isHintWrite f.words = false) ∧
    (∃ f ∈ (decided 255 (regw 0x040)).found? (ref 0), (decided 255 (regw 0x040)).issuable f = true ∧
      ((decided 255 (regw 0x040)).workUnits f).all (decided 255 (regw 0x040)).active = true ∧
      wOp f.words = 0x71 ∧ isFpcsrWrite f.path f.words = true) ∧
    (∃ f ∈ (decided 0 (regw 0x300)).found? (ref 0), (decided 0 (regw 0x300)).issuable f = true ∧
      ((decided 0 (regw 0x300)).workUnits f).all (decided 0 (regw 0x300)).active = true ∧
      wOp f.words = 0x71 ∧ isHintWrite f.words = true) := by decide

theorem witness_SieveCommitCommitsAndRetires : ∀ i ∈ [0xFFFF, 0],
    ∃ f ∈ (decided 0x400 (commit i)).found? (ref 0), wOp f.words = 0x72 ∧
      (decided 0x400 (commit i)).issuable f = true ∧
      ((decided 0x400 (commit i)).workUnits f).all (decided 0x400 (commit i)).active = true ∧ ∃ p ∈ f.ctx.plan,
      ((decided 0x400 (commit i)).commitAll 0 f.path f.run.step p (commitNames f.words)).toBool = decide (i = 0xFFFF) := by
  decide

theorem witness_GrainStatusIsMaskedAndSticky :
    (∃ r : GrainRegs, r.rdir < 8 ∧ r.flags < 32) ∧ ∃ c, (withCtxs [fresh]).ctx? 0 = some c :=
  ⟨⟨{ GrainRegs.init with rdir := 7, flags := 31 }, by decide⟩, _, rfl⟩

/-! ## Stream-order lanes -/

/-- Words of an instruction whose operands are tensors 0. -/
def words (op : Nat) : List Nat := [op, 0, 0, 0, 0, 0, 0, 0]

/-- The same instruction while the unit of path `k` is in Retain. -/
def asleep (op k : Nat) : State :=
  { one 0x400 (words op) .placed with power := { Power.init with units := [(k,
    { state := 2, entering := none, waking := false, wakePending := false, shutPending := none, idleSince := 0 })] } }

theorem witness_LanesIssueAndComplete :
    (∀ op ∈ [0x20, 0x30, 0x40, 0x60], ∃ f ∈ (decided 0x400 (words op)).found? (ref 0), ∃ l ∈ laneOf f.words,
      l.isArray = false ∧ l ≠ .control ∧ (decided 0x400 (words op)).issuable f = true ∧
      ((decided 0x400 (words op)).workUnits f).all (decided 0x400 (words op)).active = true) ∧
    (∃ f ∈ ((asleep 0x40 0x500).decideEntry (ref 0)).found? (ref 0), ∃ l ∈ laneOf f.words, l.isArray = false ∧ l ≠ .control ∧
      ((asleep 0x40 0x500).decideEntry (ref 0)).issuable f = true ∧
      (((asleep 0x40 0x500).decideEntry (ref 0)).workUnits f).all
        (((asleep 0x40 0x500).decideEntry (ref 0)).wake (((asleep 0x40 0x500).decideEntry (ref 0)).workUnits f)).active
        = false) ∧
    (∃ f ∈ (decided 0x400 (waits 0x20)).found? (ref 0), ∃ l ∈ laneOf f.words, l.isArray = false ∧
      l ≠ .control ∧ (decided 0x400 (waits 0x20)).issuable f = false) ∧
    (∀ op ∈ [0x20, 0x30, 0x10, 0x11, 0x40, 0x44], ∃ f ∈ (one 0x400 (words op) .executed).found? (ref 0),
      f.p.phase = .executed ∧ wOp f.words = op ∧ (one 0x400 (words op) .executed).scheds = []) := by decide +kernel

theorem witness_FaultStartsAContextReset :
    (∃ c, (withCtxs [fresh]).ctx? 0 = some c ∧ c.phase ≠ .resetting) ∧
    ∃ c, (withCtxs [{ fresh with phase := .resetting }]).ctx? 0 = some c ∧ c.phase = .resetting :=
  ⟨⟨_, rfl, by decide⟩, _, rfl, rfl⟩

/-- COPY of 64 bytes from the subsoil window's start to the topsoil window's last line of page 0. -/
def copy64 : List Nat := [0x40, 0, 0, 0, 0, 0x10 + 0xFFC0 * 65536, 0x1F, 1]

/-- The same with a source that is not mapped. -/
def copyBad : List Nat := [0x40, 0, 0, 0, 0, 0x20 + 0xFFC0 * 65536, 0x1F, 1]

def issued (ws : List Nat) : State := one 0x400 ws .issued

/-- The meanings of the vector and conversion opcodes. -/
def laneMeanings : List (Nat × (State → Found → Plan → Except Fail State)) :=
  [(0x20, State.vecElt), (0x21, State.vecRowred),
   (0x22, fun s f p => s.rowStatistic f p (wHi f.words 5) 0xFFFF (wLo f.words 5) false),
   (0x23, fun s f p => s.rowStatistic f p (wHi f.words 5) (wLo f.words 5) 0xFFFF true),
   (0x24, State.dropout), (0x25, State.initialise), (0x26, State.sample), (0x27, State.clipSum), (0x28, State.clipFinish),
   (0x30, State.convert)]

theorem witness_LaneInstructionsExecute :
    ∀ k ∈ laneMeanings, ∃ f p, (issued (words k.1)).found? (ref 0) = some f ∧ f.p.phase = .issued ∧
      f.ctx.phase ≠ .resetting ∧ (issued (words k.1)).engineStopped f = false ∧ f.ctx.plan = some p ∧ wOp f.words = k.1 ∧
      ∃ u, k.2 (issued (words k.1)) f p = .ok u := by
  intro k h
  simp only [laneMeanings] at h
  fin_cases h <;> exact ⟨_, _, rfl, rfl, by decide, by decide, rfl, rfl, ok_of (by decide +kernel)⟩

theorem witness_ProductsAndUpdatesExecute :
    (∀ op ∈ [0x10, 0x11], ∃ f p out, (one 0x400 (words op) .placed).found? (ref 0) = some f ∧ f.ctx.placing = true ∧
      f.ctx.plan = some p ∧ f.p.phase = .placed ∧ f.ctx.phase ≠ .resetting ∧
      (one 0x400 (words op) .placed).allAccepted f = true ∧ (one 0x400 (words op) .placed).itemsLeft (ref 0) = false ∧
      (one 0x400 (words op) .placed).waitHolds f = true ∧ p.tensors[(productOf f.words).output]? = some out ∧ wOp f.words = op ∧
      ∃ u, (one 0x400 (words op) .placed).product f p out (productOf f.words).output = .ok u) ∧
    ∃ f p, (issued (words 0x32)).found? (ref 0) = some f ∧ f.ctx.placing = true ∧ f.ctx.plan = some p ∧
      wOp f.words = 0x32 ∧ f.p.phase = .issued ∧ (issued (words 0x32)).gateMissing f = .ok 0 ∧
      ∃ u, (issued (words 0x32)).optimise f p = .ok u := by
  refine ⟨fun op h => ?_, _, _, rfl, rfl, rfl, rfl, rfl, ?_, ok_of (by decide +kernel)⟩
  · fin_cases h <;> exact ⟨_, _, _, rfl, rfl, rfl, rfl, by decide, by decide +kernel, by decide, by decide, rfl, rfl, ok_of (by decide +kernel)⟩
  · rfl

/-- An instruction whose operands are tensors that the plan does not have. -/
def badWords (op : Nat) : List Nat := [op, 0, 0, 0, 0x00070007, 0x00070007, 0x00070007, 0x00070007]

/-- The same with an output that the plan has: the token tensor of SAMPLE, a product's result. -/
def badOperand (op : Nat) : List Nat := [op, 0, 0, 0, 7, 0, 0, 0]

/-- The instruction of a state whose plan's arguments name offsets that are not mapped. -/
def badArgs (ws : List Nat) : State :=
  withCtxs [{ running 0x400 [ws] .issued with
    plan := some { plan 0x400 [ws] [emptyTensor 0 1] with args := [List.replicate 64 0xF0] } }]

theorem witness_FailedLaneInstructionsFault :
    ∀ k ∈ laneMeanings, ∃ s ∈ [issued (badWords k.1), issued (badOperand k.1), badArgs (words k.1)], ∃ f p, s.found? (ref 0) = some f ∧
      f.p.phase = .issued ∧ f.ctx.phase ≠ .resetting ∧ s.engineStopped f = false ∧
      f.ctx.plan = some p ∧ wOp f.words = k.1 ∧ (k.1 = 0x26 → (p.tensors[wHi f.words 4]?).isSome = true) ∧
      ∃ e, k.2 s f p = .error e := by
  intro k h
  simp only [laneMeanings] at h
  fin_cases h <;>
    first
    | exact ⟨_, .head _, _, _, rfl, rfl, by decide, by decide, rfl, rfl, by decide, error_of (by decide +kernel)⟩
    | exact ⟨_, .tail _ (.head _), _, _, rfl, rfl, by decide, by decide, rfl, rfl, by decide, error_of (by decide +kernel)⟩
    | exact ⟨_, .tail _ (.tail _ (.head _)), _, _, rfl, rfl, by decide, by decide, rfl, rfl, by decide,
        error_of (by decide +kernel)⟩

/-- OPTIMISE with a high half that the plan has and no other operand that it has. -/
def badUpdate : List Nat := [0x32, 0, 0, 0, 0x00070000, 0x00070007, 0x00070007, 0]

theorem witness_FailedProductsAndUpdatesFault :
    (∀ op ∈ [0x10, 0x11], ∃ f p out, (one 0x400 (badOperand op) .placed).found? (ref 0) = some f ∧
      f.ctx.plan = some p ∧ f.p.phase = .placed ∧ f.ctx.phase ≠ .resetting ∧
      (one 0x400 (badOperand op) .placed).allAccepted f = true ∧ (one 0x400 (badOperand op) .placed).itemsLeft (ref 0) = false ∧
      (one 0x400 (badOperand op) .placed).waitHolds f = true ∧ p.tensors[(productOf f.words).output]? = some out ∧ wOp f.words = op ∧
      ∃ e, (one 0x400 (badOperand op) .placed).product f p out (productOf f.words).output = .error e) ∧
    (∃ f p, (issued badUpdate).found? (ref 0) = some f ∧ f.ctx.placing = true ∧ f.ctx.plan = some p ∧
      wOp f.words = 0x32 ∧ f.p.phase = .issued ∧ (issued badUpdate).gateMissing f = .ok 0 ∧
      ∃ e, (issued badUpdate).optimise f p = .error e) ∧
    ∃ f p, (issued (badWords 0x32)).found? (ref 0) = some f ∧ f.ctx.placing = true ∧ f.ctx.plan = some p ∧
      wOp f.words = 0x32 ∧ f.p.phase = .issued ∧ ∃ e, (issued (badWords 0x32)).gateMissing f = .error e := by
  refine ⟨fun op h => ?_, ⟨_, _, rfl, rfl, rfl, rfl, rfl, ?_, error_of (by decide +kernel)⟩,
    _, _, rfl, rfl, rfl, rfl, rfl, error_of (by decide +kernel)⟩
  · fin_cases h <;> exact ⟨_, _, _, rfl, rfl, rfl, by decide, by decide +kernel, by decide, by decide, rfl, rfl, error_of (by decide +kernel)⟩
  · rfl

theorem witness_FailedCopyFaults :
    ∃ f p e, (issued copyBad).found? (ref 0) = some f ∧ f.p.phase = .issued ∧ f.ctx.phase ≠ .resetting ∧
      (issued copyBad).engineStopped f = false ∧ f.ctx.plan = some p ∧ wOp f.words = 0x40 ∧ (issued copyBad).moveCopy f.ctx f.words = .error e := by
  obtain ⟨e, he⟩ := error_of (x := (issued copyBad).moveCopy (running 0x400 [copyBad] .issued) copyBad) (by decide +kernel)
  exact ⟨_, _, e, rfl, rfl, by decide, by decide, rfl, rfl, he⟩

/-- The destination ends at the page's last byte. -/
theorem witness_CopyMovesItsBytes :
    ∃ f p data a, (issued copy64).found? (ref 0) = some f ∧ f.p.phase = .issued ∧ wOp f.words = 0x40 ∧
      f.ctx.phase ≠ .resetting ∧ (issued copy64).engineStopped f = false ∧ f.ctx.plan = some p ∧ f.ctx.id = 0 ∧ f.ctx.snap = none ∧
      copyDst f.words % pageSize + copyLen f.words = pageSize ∧ 0 < copyLen f.words ∧
      (issued copy64).translate f.ctx (copyDst f.words) = some (a, true) ∧
      (issued copy64).copyBytes f.ctx (copySrc f.words) (copyLen f.words) = .ok data ∧ data.length = copyLen f.words := by
  obtain ⟨a, ha⟩ : ∃ a, (issued copy64).translate (running 0x400 [copy64] .issued) (copyDst copy64) = some (a, true) :=
    ⟨_, rfl⟩
  obtain ⟨d, hd⟩ := bytes_of (x := (issued copy64).copyBytes (running 0x400 [copy64] .issued) (copySrc copy64)
    (copyLen copy64)) (n := copyLen copy64) (by decide +kernel)
  exact ⟨_, _, d, a, rfl, rfl, rfl, by decide, by decide, rfl, rfl, rfl, by decide, by decide, ha, hd⟩

/-! ## Steps, grains and pages -/

/-- A running context with a snapshot whose page 0 is still to be saved. -/
def snapping : Ctx :=
  { running 0x400 [copy64] .issued with
    pages := { CtxPages.empty with window := [⟨0, 0⟩, ⟨16384, 16384⟩], area := [20000, 20001] }
    snap := some { slots := [0], area := 1, pending := [0], dirty := [], step := 4, at_ := 0, complete := true, announce := none,
                   ofPlan := true } }

theorem witness_InstructionsStayInTheirWindow :
    (next? (exec (.copy (ref 0)) (issued copy64))).isSome = true ∧
    ∀ c, (issued copy64).ctx? 0 = some c → c.outside (pageAddr 2) ∧ c.outside (pageAddr 1) := by
  refine ⟨by decide +kernel, fun c h => ?_⟩
  cases h
  constructor <;> intro p hp <;>
    (have h : p = 0 ∨ p = 16384 := by
      simp only [running, CtxPages.empty, List.map, List.mem_cons, List.not_mem_nil, or_false] at hp
      exact hp
     rcases h with rfl | rfl <;> decide)

theorem witness_FirstWriteSavesThePage :
    ∃ c ∈ (withCtxs [snapping]).ctx? 0, pageOf? 16383 = some 0 ∧ (withCtxs [snapping]).slotError 0 0 = none ∧ ∃ sn ∈ c.snap, sn.pending.contains 0 = true ∧
      sn.slots.contains 0 = true ∧ ∃ m ∈ c.pages.window.find? (fun m => m.win == 0), m.dev = 0 ∧
      c.pages.area[sn.slots.idxOf 0]? = some 20000 := by decide +kernel

theorem witness_CompletionSignalsUnlessResetting :
    (∃ f ∈ (issued (words 0x40)).found? (ref 0), f.p.upd = none ∧ f.ctx.phase ≠ .resetting ∧ signalsOf f.words = []) ∧
    ∃ f ∈ (withCtxs [{ running 0x400 [words 0x40] .executed with phase := .resetting }]).found? (ref 0),
      f.p.upd = none ∧ f.ctx.phase = .resetting := by decide +kernel

theorem witness_CounterOverflowFaults :
    ∃ c ∈ (withCtxs [fresh]).ctx? 0, 0xFFFFFFFF < c.counter 0 + 2 ^ 32 ∧ c.counter 0 + 0xFFFFFFFF ≤ 0xFFFFFFFF := by
  decide +kernel

/-- A generation run of one iteration that stops after it. -/
def generating (ws : List Nat) : State :=
  withCtxs [{ running 0x400 [ws] .placed with plan := some { plan 0x400 [ws] [emptyTensor 0 1] with kind := 2 } }]

theorem witness_StepAndLoopEndsEndTheStep :
    (∃ f ∈ (one 0x400 (words 0x73) .placed).found? (ref 0),
      ∃ c ∈ ((one 0x400 (words 0x73) .placed).completeInstr (ref 0) f).ctx? 0, c.phase = .running ∧
      (one 0x400 (words 0x73) .placed).endReady f 0x73 = true) ∧
    ∃ f ∈ (generating (words 0x74)).found? (ref 0),
      ∃ c ∈ ((generating (words 0x74)).completeInstr (ref 0) f).ctx? 0, c.phase = .running ∧
      (generating (words 0x74)).endReady f 0x74 = true ∧
      (((generating (words 0x74)).completeInstr (ref 0) f).stepEnded 0 f.path).2 = true := by decide +kernel

theorem witness_BoundaryNamesTheStep :
    ∃ c ∈ (one 0x400 (words 0x73) .placed).ctx? 0, c.steps ≠ [] ∧ c.plan.isSome = true ∧ c.phase = .running ∧
      ∃ d ∈ ((one 0x400 (words 0x73) .placed).boundary 0 0x400 false).ctx? 0, d.phase ≠ .resetting ∧ d.spr.step = 5 ∧
      d.spr.tag = 7 ∧ d.steps = [] ∧ d.phase = .ready := by decide +kernel

/-- A plan with one product of one panel. -/
def mult (op : Nat) (ph : Phase) : Ctx :=
  { running 0 [[op, 0, 0, 0, 0, 0, 0xFFFF0000, 0]] ph with
    plan := some (plan 0 [[op, 0, 0, 0, 0, 0, 0xFFFF0000, 0]] [{ emptyTensor 0 1 with d1 := 4 }]) }

def item (op n : Nat) : Item :=
  { ref := ref 0, number := n, stamp := 1, backward := op == 0x11, wide := false, bsel := 0, preferFwd := false }

def sched0 (q : Sched) (c : Ctx) : State := { withCtxs [c] with scheds := [(0, q)] }

theorem witness_AcceptQueuesTheShare :
    ∀ op ∈ [0x10, 0x11], ∃ u ∈ some ((withCtxs [mult op .placed]).decideEntry (ref 0)), ∃ f ∈ u.found? (ref 0),
      isProduct f.words = true ∧
      f.p.phase = .placed ∧ f.ctx.placing = true ∧ f.ctx.entered f.run = true ∧ f.ctx.eligibleHeld f.run f.words = false ∧
      (f.ctx.plan.any fun p => u.judgedHold p f.words f.path f.run.iter) = false ∧ u.grainOk 0 = true ∧
      u.hasShare f 0 = true ∧ f.p.accepted.contains 0 = false ∧ u.queueOrder f 0 = true ∧ u.active 0 = true := by
  decide +kernel

theorem witness_ItemsMoveThroughTheGrain :
    (∀ b : Bool, ∃ op, (op = 0x10 ∨ op = 0x11) ∧
      ∃ i ∈ (sched0 { Sched.empty with queue := [item op 0] } (mult op .placed)).nextEntry 0 b,
      ∃ f ∈ (sched0 { Sched.empty with queue := [item op 0] } (mult op .placed)).found? i.ref, f.maskOff i.number = none) ∧
    (∃ i ∈ (sched0 { Sched.empty with fwd := [item 0x10 0] } (mult 0x10 .placed)).nextIssue 0 0, i.number = 0) ∧
    (∃ i ∈ (sched0 { Sched.empty with bwd := [item 0x11 0] } (mult 0x11 .placed)).nextIssue 0 1, i.number = 0) ∧
    (∃ i ∈ (sched0 { Sched.empty with bwd := [{ item 0x11 0 with bsel := 2 }] } (mult 0x11 .placed)).nextIssue 0 2,
      i.bsel = 2 ∧ (sched0 { Sched.empty with bwd := [{ item 0x11 0 with bsel := 2 }] } (mult 0x11 .placed)).nextIssue 0 1 = none) ∧
    ((((sched0 { Sched.empty with running := [(2, item 0x11 0, 0)] } (mult 0x11 .placed)).sched 0).running.any fun r => r.1 == 2) = true) := by
  refine ⟨fun b => ?_, by decide +kernel⟩
  cases b
  · exact ⟨0x10, by decide +kernel⟩
  · exact ⟨0x11, by decide +kernel⟩

/-- Two items of one product and one that is older: the oldest is issued, and array 2 waits while array 1 is free. -/
theorem witness_ArraysIssueTheOldestItem :
    (∃ i ∈ (sched0 { Sched.empty with bwd := [item 0x11 1, item 0x11 0] } (mult 0x11 .placed)).nextIssue 0 1, i.number = 0) ∧
    (∃ k ∈ (sched0 { Sched.empty with bwd := [item 0x11 1, item 0x11 0] } (mult 0x11 .placed)).nextIssue 0 1, k.number = 0) ∧
    (sched0 { Sched.empty with bwd := [item 0x11 1, item 0x11 0] } (mult 0x11 .placed)).active 0 = true ∧
    ∃ t ∈ next? (exec (.itemIssue 0 2) (sched0 { Sched.empty with bwd := [item 0x11 1, item 0x11 0] } (mult 0x11 .placed))),
      t.scheds = [(0, { Sched.empty with bwd := [item 0x11 1, item 0x11 0] })] := by decide +kernel

/-- Windows one below their bounds take one item more and no further one. -/
theorem witness_WindowsHoldTheirSlots :
    ((sched0 { Sched.empty with fwd := (List.range 8).map (item 0x10), queue := [item 0x10 9] } (mult 0x10 .placed)).sched 0).fwd.length ≤ 8 ∧
    ∃ t ∈ next? (exec (.itemEnterWindow 0 false)
        (sched0 { Sched.empty with fwd := (List.range 8).map (item 0x10), queue := [item 0x10 9] } (mult 0x10 .placed))),
      (t.sched 0).fwd.length = 8 := by decide +kernel

/-! ## Ports, commons, snapshots and collectives -/

def binding (p : Nat) : Binding := { port := p, number := 3, tag := 77, arrival := 0x800 }

/-- Contexts with port 1 UP or not, whose partner has job 77 as its binding 5. -/
def linked (l : List Ctx) (ph : PortPhase) : State :=
  { withCtxs l with ports := State.reset.ports.set 1 { Port.init with phase := ph, epoch := 4, lanes := 255, partner := [(5, 77)] } }

/-- COPY_PORT of two lines to port 1. -/
def portCopy : List Nat := [0x44, 0, 0, 0, 0, 0x10000 + 0x10, 0, 0x20000]

/-- A copy to a port that is not UP, and one to a port that is. -/
def copyDown : State := linked [running 0x400 [portCopy] .issued] .probe

def copyUp : State := linked [{ running 0x400 [portCopy] .issued with bindings := [binding 1] }] .up

theorem witness_PortCopyIsSentOrEnds :
    (∃ f ∈ copyDown.found? (ref 0), wOp f.words = 0x44 ∧ f.p.phase = .issued ∧
      ∃ q ∈ copyDown.port? (copyPortOf f.words), q.phase ≠ .up) ∧
    (∃ f ∈ copyUp.found? (ref 0), wOp f.words = 0x44 ∧ f.p.phase = .issued ∧
      ∃ q ∈ copyUp.port? (copyPortOf f.words), q.phase = .up ∧
      ∃ b ∈ f.ctx.lowestBinding (copyPortOf f.words), (copyUp.partnerOf (copyPortOf f.words) b.number).isSome = true ∧
      ∃ d ∈ (copyUp.copyBytes f.ctx (copySrc f.words) (portLines f.words * 64)).toOption, d.length = 128) ∧
    ∃ t ∈ next? (exec (.copyPort (ref 0)) copyUp), ∃ m ∈ t.port? 1, m.link.waiting.map OutMsg.vc = [0] := by
  decide +kernel

def entry : CommonsEntry := { id := 0, size := 1, home := 0, view := 100, places := [0], counter := 0 }

def object (ph : ObjPhase) (holders : List Nat) : CommonsObj :=
  { entry, owner := 0, home := [16384], resident := if ph = .home then [] else [7], phase := ph, holders, waiters := [],
    grants := [5], engine := 0 }

/-- A context with a commons table and an object; `pool` are its pool pages. -/
def commons (o : List CommonsObj) (pool : List Nat) (op : Nat) : State :=
  { withCtxs [{ running 0x400 [words op] .issued with
      plan := some { plan 0x400 [words op] [] with commons := [entry] }
      pages := { CtxPages.empty with window := [⟨16384, 16384⟩], poolTop := pool } }] with
    arbiter := { objects := o, queue := [] } }

theorem witness_PromoteStartsAFillOrQueues :
    (∀ q ∈ [[], [ref 3]], ({ commons [object .home []] [7] 0x41 with
      arbiter := { objects := [object .home []], queue := q } } : State).arbiter.queue = q) ∧
    ∀ pool ∈ [[], [7]], ∃ f ∈ (commons [object .home []] pool 0x41).found? (ref 0), f.p.phase = .issued ∧ wOp f.words = 0x41 ∧
      (commons [object .home []] pool 0x41).engineStopped f = false ∧
      ∃ o ∈ (commons [object .home []] pool 0x41).object? (wLo f.words 4 % 4096), o.holders.contains 0 = false ∧ o.phase = .home ∧
      (placePages o.entry.places ((commons [object .home []] pool 0x41).poolFree o.owner)).2 = (if pool = [] then 1 else 0) := by
  decide +kernel

theorem witness_EvictAndSealComplete :
    (∃ f ∈ (commons [object .resident [0]] [7] 0x42).found? (ref 0), f.p.phase = .issued ∧ wOp f.words = 0x42 ∧
      (commons [object .resident [0]] [7] 0x42).engineStopped f = false ∧ ∃ o ∈ (commons [object .resident [0]] [7] 0x42).object? (wLo f.words 4 % 4096), o.holders.contains 0 = true) ∧
    (∃ f ∈ (commons [object .resident []] [7] 0x42).found? (ref 0), f.p.phase = .issued ∧ wOp f.words = 0x42 ∧
      ∃ o ∈ (commons [object .resident []] [7] 0x42).object? (wLo f.words 4 % 4096), o.holders.contains 0 = false) ∧
    ∃ f ∈ (commons [] [] 0x43).found? (ref 0), f.p.phase = .issued ∧ wOp f.words = 0x43 ∧
      ∃ e ∈ (f.ctx.plan.bind fun p => p.commons.find? fun e => e.id == wLo f.words 4 % 4096),
      ((List.range e.size).filterMap (fun j =>
        (f.ctx.pages.window.find? fun m => m.win == 16384 + e.home + j).map PageMap.dev)).length = e.size ∧
      (commons [] [] 0x43).object? (wLo f.words 4 % 4096) = none := by decide +kernel

/-- A COPY out of the object's resident view is issued. -/
def viewing (o : List CommonsObj) : State :=
  { withCtxs [running 0x400 [[0x40, 0, 0, 0, 100, 0xC0, 0, 1]] .issued] with arbiter := { objects := o, queue := [] } }

theorem witness_FillsAndDrainsEnd :
    (∀ c ∈ (commons [object .filling [0]] [7] 0x41).ctxs, c.owed = []) ∧
    (∃ o ∈ (commons [object .filling [0]] [7] 0x41).object? 0, o.phase = .filling ∧
      ((commons [object .filling [0]] [7] 0x41).fill o).toBool = true) ∧
    (∃ o ∈ (commons [object .filling []] [7] 0x41).object? 0, o.phase = .filling ∧ o.holders.isEmpty = true) ∧
    (∃ o ∈ (viewing [object .draining []]).object? 0, o.phase = .draining ∧
      (viewing [object .draining []]).readInFlight o = true) ∧
    ∃ o ∈ (commons [object .draining []] [7] 0x41).object? 0, o.phase = .draining ∧
      (commons [object .draining []] [7] 0x41).readInFlight o = false ∧
      (commons [object .draining []] [7] 0x41).arbiter.queue = [] := by decide +kernel

theorem witness_SnapshotPagesAreSaved :
    ∃ c ∈ (withCtxs [snapping]).ctx? 0, ∃ sn ∈ c.snap, sn.pending.contains 0 = true ∧ sn.pending.head? = some 0 ∧
      c.phase ≠ .resetting ∧ (withCtxs [snapping]).slotError 0 0 = none ∧
      (withCtxs [snapping]).copyEngines.any ((withCtxs [snapping]).copyRoom c) = true ∧
      (({ withCtxs [snapping] with bg := { Background.init with ueWords := [0] } } : State).slotError 0 0).isSome = true := by
  decide +kernel

/-- The group block of rank 0 of two: every group of the micro-batch expected, then its members. -/
def group2 : List (List Byte) :=
  [[2, 0, 0, 0, 0, 0, 0, 0, 9, 0] ++ List.replicate 22 0 ++ List.replicate 32 255,
   [0, 0, 0, 0, 0, 0, 2, 0] ++ List.replicate 56 0]

/-- The same with only group 0 expected: rank 1 is missing. -/
def group1 : List (List Byte) :=
  [[2, 0, 0, 0, 0, 0, 0, 0, 9, 0] ++ List.replicate 22 0 ++ [1] ++ List.replicate 31 0,
   [0, 0, 0, 0, 0, 0, 2, 0] ++ List.replicate 56 0]

/-- A collective of a group, with the binding that reaches rank 1. -/
def collective (op : Nat) (args : List (List Byte)) : Ctx :=
  { running 0x400 [words op] .issued with
    plan := some { plan 0x400 [words op] [emptyTensor 0 1, emptyTensor 0 1] with args }
    bindings := [{ binding 0 with number := 0 }] }

theorem witness_CollectivesStart :
    ∀ op ∈ [0x60, 0x61, 0x62, 0x63], ∃ f ∈ (withCtxs [collective op group2]).found? (ref 0), f.p.phase = .issued ∧
      f.ctx.placing = true ∧ wOp f.words = op ∧ ∃ e ∈ f.collEnv, e.g.size = 2 ∧
      ((withCtxs [collective op group2]).collBegin e (ref 0) false).toBool = true := by decide +kernel

theorem witness_UndersizedCollectivesHold :
    ∃ f ∈ (withCtxs [collective 0x60 group1]).found? (ref 0), f.p.phase = .issued ∧ f.ctx.placing = true ∧
      wOp f.words = 0x60 ∧ f.ctx.early = [] ∧ ∃ e ∈ f.collEnv, e.eff.testBit (e.g.groupOf e.g.rank) = true ∧
      e.mode ≠ .ring ∧ e.present.length < e.g.size - e.g.budget := by decide +kernel

def message : CollMsg := { group := 0, step := 5, serial := 9, rank := 1, maskTag := 0, part := .blockDone }

theorem witness_CollectiveMessagesAreTakenOrDropped :
    (∃ x ∈ (withCtxs [collective 0x60 group2]).bindingAt 0 0, (withCtxs [collective 0x60 group2]).ctx? x.1.id = some x.1 ∧
      x.1.receiving = true) ∧
    ∃ x ∈ (withCtxs [{ collective 0x60 group2 with phase := .resetting }]).bindingAt 0 0,
      (withCtxs [{ collective 0x60 group2 with phase := .resetting }]).ctx? x.1.id = some x.1 ∧ x.1.receiving = false := by
  decide +kernel

/-- Its collective has begun. -/
def begun : Ctx :=
  { collective 0x60 group2 with steps := [{ run [placedAt 0 .executed] with colls := [{
    stream := 0, index := 0, maskTag := 0, contribs := [], counts := [], results := [], gathered := [], blockIn := false,
    blockOut := false, nonfinite := false, since := 0 }] }] }

/-- An OPTIMISE whose gate counter has one read of step 5 missing: the record at offset 0 expects 1 a step from step 4. -/
def gated : State :=
  { withCtxs [{ running 0x400 [words 0x32] .issued with
      steps := [run [{ placedAt 0 .issued with gateDue := some 100000 }]] }] with
    mem := memWriteList (memWriteList [] (pageAddr 0 + 8) [1]) (pageAddr 0 + 16) [4] }

theorem witness_TimeoutsHoldTheContext :
    (∃ f ∈ (one 0x400 (waits 0x20) .placed).found? (ref 0), (one 0x400 (waits 0x20) .placed).waitingOn f (ref 0) = some 1 ∧
      (one 0x400 (waits 0x20) .placed).arbiter.queue.contains (ref 0) = false) ∧
    (∃ f ∈ (withCtxs [begun]).found? (ref 0), f.coll?.isSome = true ∧ f.collEnv.isSome = true ∧ f.ctx.phase = .running ∧
      f.ctx.holdAsked = false) ∧
    ∃ f ∈ gated.found? (ref 0), f.p.gateDue = some 100000 ∧ (gated.gateMissing f).toOption = some 1 ∧ f.p.phase = .issued ∧
      wOp f.words = 0x32 ∧ f.p.stalled = false ∧ f.ctx.placing = true ∧ 100000 - f.p.issuedAt < f.ctx.waitUs := by decide +kernel

/-! ## Ligil commands -/

/-- A client with every role on connection 1, in session 1. -/
def client : Session :=
  { Session.zero with id := 1, conn := 1, roles := 7, identity := 9, nextSeq := 1, hello := true }

/-- A state with that client. -/
def served (s : State) : State :=
  { s with ligil := { Ligil.init with
      conns := [{ id := 1, front := 0, roles := 7, identity := 9, session := some 1 }]
      sessions := [Session.zero, client] } }

/-- `Accepted`, as a test. -/
def accepts (s : State) (sl : Slot) (se : Session) : Bool :=
  s.serving sl.conn && s.sessionOf sl.conn == some se && sl.formOk && sl.headerOk && sl.session.toNat == se.id &&
  !(s.slotBusy se sl.number) && (se.hello || se.id == 0 || sl.cmd == 1) && se.busy.isEmpty &&
  !(s.ligil.deferred.any (cameOver sl.conn)) && s.verdict se sl == .go

theorem accepted_of {s : State} {sl : Slot} {se : Session} (h : accepts s sl se = true) : Accepted s sl se := by
  simp only [accepts, Bool.and_eq_true, Bool.or_eq_true, Bool.not_eq_true', beq_iff_eq, List.isEmpty_iff] at h
  obtain ⟨⟨⟨⟨⟨⟨⟨⟨⟨a, b⟩, c⟩, h⟩, d⟩, e⟩, f⟩, g⟩, i⟩, j⟩ := h
  exact ⟨a, b, c, h, d, e, by tauto, g, i, j⟩

/-- A command of sequence 1. -/
def cmd (code : Nat) (args : List Nat) (payload : List Byte) : Slot := slot code 1 args payload

theorem witness_HelloOpensASession : ∃ s k, s = { withCtxs [fresh] with ligil := { Ligil.init with conns := [k] } } ∧
    k.id = 1 ∧ s.serving 1 = true ∧ s.sessionOf 1 = none ∧ s.conn? 1 = some k ∧
    ({ slot 1 0 [1, 0] [] with session := 0 } : Slot).formOk = true ∧
    ({ slot 1 0 [1, 0] [] with session := 0 } : Slot).headerOk = true ∧ s.freeSession = some 1 :=
  ⟨_, { id := 1, front := 0, roles := 7, identity := 9, session := none }, rfl, by decide +kernel⟩

theorem witness_HelloClaimsItsContexts : ∃ s sl, sl = { slot 1 0 [1, 1] [] with session := 1 } ∧
    s = { withCtxs [{ fresh with session := none }] with ligil := { (served State.reset).ligil with
      sessions := [Session.zero, { client with hello := false, nextSeq := 0 }] } } ∧
    Accepted s sl { client with hello := false, nextSeq := 0 } ∧ sl.cmd = 1 ∧ sl.w 4 = 1 ∧ sl.w 5 = 1 ∧
    ∃ c ∈ s.ctx? 0, c.config.owner = 9 ∧ c.session = none :=
  ⟨_, _, rfl, rfl, accepted_of (by decide +kernel), by decide +kernel⟩

/-- ADMIT of a REFERENCE context with a hang timeout. -/
def admitting : Slot := cmd 0x10 [1, 10000] (List.replicate 32 3)

theorem witness_AdmitMakesAContext : Accepted (served (withCtxs [fresh])) admitting client ∧ admitting.cmd = 0x10 ∧
    admitting.len = 32 ∧ admitting.w 4 < 32 ∧ bitOf (admitting.w 4) 1 = false ∧ bitOf (admitting.w 4) 4 = false ∧
    admitting.w 5 ≤ 10000 ∧ lowestBelow 64 (fun i => ((served (withCtxs [fresh])).ctx? i).isNone) = some 1 ∧
    ∃ t ∈ next? (exec (.admitCtx admitting) (served (withCtxs [fresh]))), (t.ctxs.map Ctx.id) = [0, 1] :=
  ⟨accepted_of (by decide +kernel), by decide +kernel⟩

/-- Every context id is taken. -/
def full : State := served (withCtxs ((List.range 64).map fun i => { fresh with id := i }))

theorem witness_AdmitWithoutAFreeIdIsRefused : Accepted full admitting client ∧
    ∀ i, i < 64 → (full.ctx? i).isSome = true :=
  ⟨accepted_of (by decide +kernel), by decide +kernel⟩

/-- RESERVE of one snapshot area page, and no more. -/
def reserving : Slot := cmd 0x11 [0, 0] (List.replicate 352 0 ++ 1 :: List.replicate 439 0)

theorem getD_bump (a b i : Nat) : (List.replicate a (0 : Byte) ++ 1 :: List.replicate b 0).getD i 0 = if i = a then 1 else 0 := by
  rw [List.getD_eq_getElem?_getD]
  rcases Nat.lt_trichotomy i a with h | h | h
  · rw [List.getElem?_append_left (by simpa using h)]
    simp [h, Nat.ne_of_lt h]
  · subst h
    rw [List.getElem?_append_right (by simp)]
    simp
  · rw [List.getElem?_append_right (by simp; omega)]
    obtain ⟨k, rfl⟩ := Nat.exists_eq_add_of_lt h
    have e : a + k + 1 - a = k + 1 := by omega
    have n : ¬a + k + 1 = a := by omega
    simp only [List.length_replicate, e, List.getElem?_cons_succ, List.getElem?_replicate, n, if_false]
    split <;> rfl

theorem reserving_bytes (i : Nat) : reserving.payload.getD i 0 = if i = 352 then 1 else 0 := getD_bump 352 439 i

/-- What it asks for. -/
def asked : Request :=
  { resv := { top := List.replicate 256 0, sub := List.replicate 12 0, headroom := List.replicate 12 0,
              snap := 1 :: List.replicate 11 0, poolSub := List.replicate 12 0, poolTop := List.replicate 256 0,
              counters := List.replicate 4 0, shares := List.replicate 64 0, snapSet := 0 }
    ports := [] }

theorem reserving_request : parseRequest reserving.payload = asked := by
  simp only [parseRequest, leAt, sliceBytes, reserving_bytes]
  decide +kernel

theorem reserving_total : Resv.grow fresh.resv asked.resv = asked.resv := by decide +kernel

theorem witness_ReserveGrantsTheRequest : ∃ u c mine, Accepted (served (withCtxs [fresh])) reserving client ∧
    reserving.cmd = 0x11 ∧ u = (served (withCtxs [fresh])).advanceSeq 1 reserving ∧ u.ctx? (reserving.w 4 % 256) = some c ∧
    mine = Resv.grow c.resv (parseRequest reserving.payload).resv ∧ 792 ≤ reserving.len ∧
    reserving.len = 792 + 16 * leAt reserving.payload 788 4 ∧ reserving.ctxOk = true ∧ reserving.w 5 < 2 ∧
    (parseRequest reserving.payload).argsOk c.config.commonsOwner mine = true ∧ u.reserveWaits reserving = false ∧
    u.misfit (u.ctxs.filter fun x => x.id != c.id) mine = none ∧
    u.bindAll (u.ctxs.filter fun x => x.id != c.id) c.bindings (parseRequest reserving.payload).ports = some [] := by
  refine ⟨_, fresh, asked.resv, accepted_of (by decide +kernel), rfl, rfl, rfl,
    by rw [reserving_request, reserving_total], by decide +kernel, by decide +kernel, by decide +kernel, by decide +kernel, ?_, ?_, ?_, ?_⟩
  · rw [reserving_request]; decide +kernel
  · rw [State.reserveWaits, reserving_request]; decide +kernel
  · decide +kernel
  · rw [reserving_request]; decide +kernel

/-- A context in a phase, with a client. -/
def inPhase (ph : CtxPhase) : State := served (withCtxs [{ fresh with phase := ph }])

theorem witness_ReleaseEndsTheContext : ∀ ph ∈ [CtxPhase.admitted, .reserved, .ready, .running, .held],
    Accepted (inPhase ph) (cmd 0x12 [0] []) client ∧ ((inPhase ph).advanceSeq 1 (cmd 0x12 [0] [])).commonsBusy 0 = false ∧
    (cmd 0x12 [0] []).ctxOk = true ∧ ∃ c ∈ (inPhase ph).ctx? 0, c.phase = ph := by
  intro ph h
  fin_cases h <;> exact ⟨accepted_of (by decide +kernel), by decide +kernel⟩

/-- A commons context that is HELD, with a client and its object. -/
def lending (att : List Nat) : State :=
  served { commons [object .home []] [] 0x41 with
    ctxs := [{ fresh with phase := .held, plan := some { plan 0x400 [] [] with commons := [entry] }, attached := att }] }

theorem witness_CommonsCommandsComplete :
    (∃ sl ∈ some (cmd 0x13 [0, 0, 0] []), accepts (lending []) sl client = true ∧ bitOf (sl.w 6) 0 = false ∧
      Slot.commonsArgs sl 0 = none ∧ ∃ o ∈ (lending []).object? (sl.w 5), o.owner = 0 ∧
      ∃ c ∈ (lending []).ctx? 0, c.attached.contains o.entry.id = false) ∧
    (∃ sl ∈ some (cmd 0x13 [0, 0, 1] (List.replicate 16 1)), accepts (lending []) sl client = true ∧
      bitOf (sl.w 6) 0 = true ∧ Slot.commonsArgs sl 16 = none ∧ ∃ o ∈ (lending []).object? (sl.w 5), o.owner = sl.w 4 % 256) ∧
    (∃ sl ∈ some (cmd 0x14 [0, 0, 0] []), accepts (lending [0]) sl client = true ∧ bitOf (sl.w 6) 0 = false ∧
      Slot.commonsArgs sl 0 = none) ∧
    ∃ sl ∈ some (cmd 0x14 [0, 0, 1] (List.replicate 15 0 ++ [5])), accepts (lending []) sl client = true ∧
      bitOf (sl.w 6) 0 = true ∧ Slot.commonsArgs sl 16 = none ∧
      ∃ t ∈ next? (exec (.detachCommonsRevoke sl) (lending [])), t.arbiter.objects.map CommonsObj.grants = [[]] := by
  decide +kernel

/-- A wrong sequence, and an operator's command of a tenant. -/
theorem witness_RefusedCommandsChangeNothing :
    (∃ st d, (inPhase .ready).verdict client (slot 0x51 2 [] []) = .refuse st d) ∧
    (∃ st d, (inPhase .ready).verdict { client with roles := 1 } (cmd 0x81 [] []) = .refuse st d) ∧
    (inPhase .ready).session? client.id = some client :=
  ⟨⟨0x4402, 1, by decide +kernel⟩, ⟨0x6021, 1, by decide +kernel⟩, by decide +kernel⟩

theorem witness_RolesLimitCommands :
    (inPhase .ready).verdict { client with roles := 4 } (cmd 0x81 [] []) = .go ∧
    (inPhase .ready).verdict { client with roles := 1 } (cmd 0x31 [0] []) = .go ∧
    (inPhase .ready).verdict { client with roles := 4, identity := 8 } (cmd 0x12 [0] []) = .go ∧
    (cmd 0x12 [0] []).named = some 0 := by decide +kernel

theorem witness_LoadPlanRefuses : ∃ s sl, s = inPhase .reserved ∧ sl = cmd 0x20 [0, 0, 0x10, 4096] [] ∧
    Accepted s sl client ∧ sl.ctxOk = true ∧ sl.w 6 < 65536 ∧ sl.w 7 ≠ 0 ∧ sl.w48 5 % 64 = 0 ∧ sl.w 7 % 64 = 0 ∧
    ∃ c, (s.advanceSeq 1 sl).ctx? 0 = some c ∧ ∃ e, (s.advanceSeq 1 sl).offered c (sl.w48 5) (sl.w 7) = .error e :=
  ⟨_, _, rfl, rfl, accepted_of (by decide +kernel), by decide +kernel, by decide +kernel, by decide +kernel, by decide +kernel,
   by decide +kernel, _, rfl, error_of (by decide +kernel)⟩

/-- A running context with a client. -/
def busy (c : Ctx) : State := served (withCtxs [c])

/-- The session with handles. -/
def withHandles (s : State) (l : List Handle) : State :=
  { s with ligil := { s.ligil with sessions := [Session.zero, { client with handles := l }], nextHandle := 40 } }

/-- With a subsoil page beside the plan's. -/
def plain : Ctx :=
  { running 0x400 [words 0x40] .placed with
    pages := { CtxPages.empty with window := [⟨0, 0⟩, ⟨16384, 16384⟩, ⟨16385, 16390⟩] } }

/-- BIND_DATA of 64 bytes of that page: op 0 opens in, op 1 opens out. -/
def binding64 (op : Nat) : Slot := cmd 0x21 [0, op, 0x200000, 0x10, 64, 0] []

def handle (inward : Bool) : Handle :=
  { id := 30, ctx := 0, inward, area := false, start := 0x1000200000, length := 64, exporting := false }

/-- The closing op with a CRC, a signal to counter 4 or none. -/
def closing (crc sig : Nat) : Slot := cmd 0x21 [0, 2, 0, 0, 0, 0, 30, crc, sig] []

theorem witness_BulkHandlesOpenAndClose :
    (∀ op ∈ [0, 1], accepts (busy plain) (binding64 op) client = true ∧ (binding64 op).w 5 % 4 = op ∧
      ∃ c ∈ ((busy plain).advanceSeq 1 (binding64 op)).ctx? 0,
      ∃ h ∈ (((busy plain).advanceSeq 1 (binding64 op)).openChecks (binding64 op) client c).toOption,
      (((busy plain).advanceSeq 1 (binding64 op)).handleBytes h).toBool = true) ∧
    (∀ inward : Bool, ∀ sl ∈ [closing 0 0, closing (crc32c (List.replicate 64 0)) (2 ^ 17 + 4),
        closing (crc32c (List.replicate 64 0)) 4],
      accepts (withHandles (busy plain) [handle inward]) sl { client with handles := [handle inward] } = true ∧
      sl.w 5 % 4 = 2 ∧ sl.ctxOk = true ∧ sl.w 5 < 8 ∧ sl.w 12 < 2 ^ 18 ∧
      [handle inward].find? (fun h => h.id == sl.w 10 && h.ctx == 0 && !h.exporting) = some (handle inward)) ∧
    ((busy plain).handleBytes (handle true)).toOption = some (List.replicate 64 0) ∧
    crc32c (List.replicate 64 0) ≠ 0 ∧ plain.hasCounter 4 = true ∧ plain.counter 4 < 0xFFFFFFFF := by decide +kernel

theorem test_bulk_frames : (bulkFrames 3 (List.replicate 5 1)).map BulkOut.offset = [0] := by decide +kernel

theorem witness_BulkFramesAreWritten :
    (∃ se ∈ (withHandles (busy plain) [handle true]).sessionOf 1,
      se.handles.find? (fun h => h.id == 30 && h.inward) = some (handle true) ∧
      (withHandles (busy plain) [handle true]).frontStopped 1 = false ∧ bulkOk 1 ⟨3, 0, 20⟩ ⟨30, 60, 4⟩ [1, 2, 3, 4] = true ∧
      bulkOk 1 ⟨3, 0, 19⟩ ⟨30, 60, 4⟩ [1, 2, 3, 4] = false ∧ (handle true).length < 61 + [(1 : Byte), 2, 3, 4].length ∧
      ∃ c ∈ (withHandles (busy plain) [handle true]).ctx? 0, 60 + [1, 2, 3, 4].length ≤ (handle true).length ∧
      ((withHandles (busy plain) [handle true]).wrBytes c.id ((handle true).start + 60) [1, 2, 3, 4]).toBool = true) ∧
    ∃ se ∈ (busy plain).sessionOf 1, (se.handles.find? fun h => h.id == 30 && h.inward) = none ∧
      ((busy plain).conn? 1).isSome = true := by decide +kernel

/-- A READY context with a plan of a kind. -/
def ready (kind : Nat) : State :=
  busy { fresh with phase := .ready, plan := some { plan 0x400 [words 0x73] [] with kind }
                    lgl := { LglRegs.init with nextStep := 5 } }

theorem witness_RunStepPlacesTheStep :
    (∀ k ∈ [(0, 0), (2, 3)], ∀ n ∈ [4, 5], ∃ sl ∈ some (cmd 0x30 [0, n, 0, 0x77, 0, k.2] []), accepts (ready k.1) sl client = true ∧
      sl.len = 0 ∧ sl.ctxOk = true ∧ sl.w 6 < 65536 ∧ ∃ c ∈ ((ready k.1).advanceSeq 1 sl).ctx? 0,
      ∃ p ∈ c.plan, ((p.kind == 2) == (sl.w 9 == 0)) = false ∧ p.growPast (p.iteration (sl.w48 5)) = false ∧ c.steps.length < 2 ∧ c.phase ≠ .running ∧
      (n = 5 → sl.w48 5 = c.lgl.nextStep) ∧ (n = 4 → sl.w48 5 ≠ c.lgl.nextStep)) ∧
    (∃ p ∈ some { plan 0x400 [words 0x73] [{ emptyTensor 0 1 with grow := 1, d1 := 4, len0 := 4 }] with kind := 2 },
      p.growPast (p.iteration 5) = true) := by decide +kernel

theorem witness_HoldStopsTheContext :
    (∃ sl ∈ some (cmd 0x31 [0] []), accepts (busy plain) sl client = true ∧ sl.ctxOk = true ∧
      ∃ c ∈ (busy plain).ctx? 0, c.phase ≠ .held) ∧
    ∀ ph ∈ [CtxPhase.running, .ready], ∃ c ∈ (busy { plain with holdAsked := true, phase := ph }).ctx? 0, c.holdAsked = true ∧
      c.phase = ph ∧ (busy { plain with holdAsked := true, phase := ph }).anyRuns c = false ∧
      (c.plan.any fun p => p.kind == 2) = false := by decide +kernel

/-- A HELD context that may wait for its position to be confirmed. -/
def held (wait : Bool) : State :=
  busy { plain with phase := .held, spr := { SprRegs.init with posWait := wait, tag := 7 } }

theorem witness_ResumeRunsOnOrRefuses :
    (∀ wait : Bool, ∃ sl ∈ some (cmd 0x32 [0, 1, 7, 0] []), accepts (held wait) sl client = true ∧ Slot.resumeBad sl = none ∧
      bitOf (sl.w 5) 0 = true ∧ sl.w64 6 = 7 ∧ bitOf (sl.w 5) 1 = false ∧ bitOf (sl.w 5) 2 = false ∧
      ∃ c ∈ (held wait).ctx? 0, c.spr.tag = 7 ∧ c.heldDegraded = false ∧ c.spr.posWait = wait) ∧
    (∀ x ∈ (held true).ctxs, x.owed = []) ∧
    (∃ sl ∈ some (cmd 0x32 [0, 3, 7, 0] (List.replicate 32 255)), accepts (held true) sl client = true ∧ Slot.resumeBad sl = none ∧
      bitOf (sl.w 5) 1 = true ∧ ∃ c ∈ (held true).ctx? 0, c.steps ≠ []) ∧
    (∃ sl ∈ some (cmd 0x32 [0, 1, 8, 0] []), accepts (held true) sl client = true ∧ Slot.resumeBad sl = none ∧ sl.w64 6 ≠ 7) ∧
    ∃ sl ∈ some (cmd 0x32 [0, 0, 7, 0] []), accepts (held true) sl client = true ∧ Slot.resumeBad sl = none ∧
      bitOf (sl.w 5) 0 = false := by decide +kernel

def exportable : Ctx := { snapping with snap := snapping.snap.map fun q => { q with pending := [] } }

/-- The commands of a context and their states: SNAPSHOT with a step in flight and without, EXPORT_SNAPSHOT. -/
theorem witness_SnapshotCommandsComplete :
    (∃ sl ∈ some (cmd 0x40 [0] []), accepts (busy plain) sl client = true ∧ sl.ctxOk = true ∧
      ∃ c ∈ ((busy plain).advanceSeq 1 sl).ctx? 0, c.steps ≠ []) ∧
    (∃ sl ∈ some (cmd 0x40 [0] []), accepts (ready 0) sl client = true ∧
      ∃ c ∈ ((ready 0).advanceSeq 1 sl).ctx? 0, c.steps = [] ∧ c.exporting = false) ∧
    ∃ sl ∈ some (cmd 0x42 [0] []), accepts (busy exportable) sl client = true ∧
      sl.ctxOk = true ∧ client.handles.length < 16 ∧ ∃ c ∈ ((busy exportable).advanceSeq 1 sl).ctx? 0, ∃ q ∈ c.snap,
      q.pending = [] ∧ q.area = 1 := by decide +kernel

theorem witness_ExportEndReleasesTheContext :
    ∃ s ∈ some (withHandles (busy { plain with exporting := true }) [{ handle false with exporting := true }]),
      ∃ c ∈ s.ctx? 0, c.snapAsked = false ∧ { client with handles := [{ handle false with exporting := true }] } ∈ s.ligil.sessions ∧
      (∀ x ∈ s.ligil.sessions, ∀ k ∈ x.handles, k.ctx = 0 → k.exporting = true → x.id = 1 ∧ k.id = 30) ∧
      (∀ x ∈ s.ligil.sessions, x.id = 1 → x = { client with handles := [{ handle false with exporting := true }] }) := by
  decide +kernel

theorem witness_QueriesAnswerOneImage :
    accepts (inPhase .ready) (cmd 0x51 [] []) client = true ∧ accepts (inPhase .ready) (cmd 0x50 [0, 1, 0] []) client = true ∧
    accepts (inPhase .ready) (cmd 0x50 [0, 4, 0] []) client = true ∧ (cmd 0x50 [0, 4, 0] []).w 4 < 256 ∧
    contextSelector 1 = true ∧ contextSelector 4 = true ∧
    ∃ c ∈ (inPhase .ready).ctx? 0, ∃ i ∈ ((inPhase .ready).advanceSeq 1 (cmd 0x50 [0, 1, 0] [])).ctxImage c 1 0,
      i.toBool = true := by decide +kernel

/-- A state whose log has one record, with a crash dump or without. -/
def logged (d : Option Dump) : State :=
  { inPhase .ready with sed := { Sed.init with
      ring := [{ code := 0x31, sev := 1, src := 0x400, rep := 1, detail := 0, time := 0, pcc := 0, seq := 1, ctx := 0xFF,
                 flags := 0, snap := [], supp := 0, span := 0 }]
      nextSeq := 2, openRec := true, dump := d } }

theorem witness_LogReadsAnswer :
    accepts (logged none) (cmd 0x70 [0, 1, 0, 63] []) client = true ∧ accepts (logged none) (cmd 0x70 [0, 0, 0, 1] []) client = true ∧
    accepts (logged none) (cmd 0x70 [2, 0, 0, 504] []) client = true ∧ accepts (logged none) (cmd 0x70 [6, 1] []) client = true ∧
    accepts (logged none) (cmd 0x70 [6, 63] []) client = true ∧
    accepts (logged none) (cmd 0x71 [0, 1] []) client = true ∧ (logged none).sed.dumpFlash = none ∧
    accepts (logged (some { seq := 1, bytes := [1, 2, 3] })) (cmd 0x71 [0, maxPayload] []) client = true := by decide +kernel

/-- A configuration entry for code 0x2101 (rate 16 by 2^p ms) and one with a reserved field set. -/
def entry8 : List Byte := [0x01, 0x21, 16, 16, 10, 0, 0, 0]

theorem witness_LogWritesConfigure :
    accepts (logged none) (cmd 0x70 [4, 0, 0, 1] entry8) client = true ∧
    (∃ e ∈ parseCfg (sliceBytes entry8 0 8), floodExempt e.code = false) ∧
    accepts (logged none) (cmd 0x70 [4, 0, 0, 1] [0x01, 0x21, 16, 16, 10, 0, 0, 1]) client = true ∧
    parseCfg (sliceBytes [0x01, 0x21, 16, 16, 10, 0, 0, 1] 0 8) = none ∧
    accepts (logged none) (cmd 0x70 [8, 63] [0x80, 0xF0, 0xFF, 0x80]) client = true ∧
    bitsOf (leAt [0x80, 0xF0, 0xFF, 0x80] 0 4) 30 24 = 0 ∧ leAt [0x80, 0xF0, 0xFF, 0x80] 0 4 % 4 = 0 ∧
    ∃ t ∈ next? (exec (.logWriteSet (cmd 0x70 [8, 63] [0x80, 0xF0, 0xFF, 0x80])) (logged none)),
      getKey [] t.sed.sets 63 = [0x80FFF080] := by decide +kernel

theorem witness_ResetRequestsStartResets :
    (∀ ph ∈ [CtxPhase.running, .held, .ready, .admitted, .reserved, .resetting],
      accepts (inPhase ph) (cmd 0x80 [1, 0] []) client = true) ∧
    (∀ path ∈ [0, 255, 0x500, 0x53F], accepts (inPhase .ready) (cmd 0x80 [2, path] []) client = true ∧
      (∀ e ∈ pathEngines path, ((inPhase .ready).engineRec e).resetting = none ∧ ((inPhase .ready).engineRec e).resets.length < 2) ∧
      (inPhase .ready).engineOk ((pathEngines path).headD (.copy 64)) = true ∧
      (inPhase .ready).dieResetting (pathDie path) = false) ∧
    (∀ d ∈ [0, 3], accepts (inPhase .ready) (cmd 0x80 [3, d] []) client = true ∧ (inPhase .ready).dieOk d = true ∧
      (inPhase .ready).dieResetting d = false) ∧
    accepts (inPhase .ready) (cmd 0x80 [4, 0] []) client = true ∧ (inPhase .ready).resets.asked = none ∧
    accepts (inPhase .ready) (cmd 0x80 [0, 0] []) client = true ∧ accepts (inPhase .ready) (cmd 0x80 [5, 0] []) client = true := by
  decide +kernel

theorem witness_ConnectionsTakeTheVerifiedIdentity : State.reset.boot.phase = .running ∧ State.reset.boot.ident = true ∧
    State.reset.conn? 2 = none ∧ State.reset.power.sdsLost.getD 1 false = false := by decide +kernel

theorem witness_SessionEndKeepsTheContexts :
    (∃ se ∈ (inPhase .running).sessionOf 1, se.handles = [] ∧ ∃ c ∈ (inPhase .running).ctx? 0, c.session = some se.id) ∧
    ∃ se ∈ (busy { fresh with session := some 4 }).sessionOf 1, se.handles = [] ∧
      ∃ c ∈ (busy { fresh with session := some 4 }).ctx? 0, c.session ≠ some se.id := by decide +kernel

def notice : Notice := { code := 0x4003, detail := 1, ctx := 0, step := 5, data := [] }

/-- Session 1 or session 0 with an event, event slot 3 in use and, for session 0, a response the controller holds. -/
def eventful : State :=
  { State.reset with ligil := { (inPhase .ready).ligil with sessions :=
      [{ Session.zero with events := [notice], evSlots := [{ number := 15, code := 0xF0, seq := 0, lost := 0, notice }]
                           slots := [{ number := 2, owner := 2, code := 1, seq := 2, status := 0, detail := 0, words := [],
                                       payload := [] }] },
       { client with events := [notice], evSlots := [{ number := 3, code := 0xF0, seq := 0, lost := 0, notice }] }] } }

theorem witness_SlotsAreFilledAndFreed :
    (∀ id ∈ [0, 1], ∃ se ∈ eventful.session? id, se.events = [notice] ∧
      lowestBelow 16 (fun i => !(se.evSlots.any fun x => x.number == i)) = some 0 ∧ eventful.boot.phase = .running ∧
      (se.hello = true ∨ se.id = 0) ∧ eventful.frontStopped se.conn = false) ∧
    (∃ se ∈ eventful.sessionOf 1, (se.evSlots.any fun x => x.number == 3) = true) ∧
    (⟨2, 0, 4⟩ : FrameHead).ok 1 2 4 = true ∧ (⟨3, 0, 4⟩ : FrameHead).ok 1 2 4 = false ∧
    (∃ se ∈ eventful.sessionOf 0, se.id = 0 ∧ (se.slots.any fun x => x.number == 2 && x.owner == 2) = true) := by decide +kernel

theorem witness_EventQueuesAreBounded :
    ∃ q : List Notice, q.length = 1024 ∧ q.length ≤ 1024 := ⟨List.replicate 1024 notice, List.length_replicate, by
      rw [List.length_replicate]⟩

/-! ## Boot, firmware, pins and power -/

/-- The state after reset in a phase of the boot. -/
def booting (ph : BootPhase) (f : Boot → Boot) : State := { State.reset with boot := f { State.reset.boot with phase := ph } }

/-- Bank A boots; with bank A's rollback too low and a sound bank B, the second; with neither, recovery. -/
theorem witness_BootPhasesFollow :
    (booting .romStart id).boot.thermHold = false ∧ (booting .romStart id).boot.phase = .romStart ∧
    (booting .identity id).boot.phase = .identity ∧ (booting .records id).boot.phase = .records ∧
    (∃ s ∈ some (booting .bankLoad id), s.boot.phase = .bankLoad ∧ s.bootCtl.active = 0 ∧ s.bankFails 0 = none) ∧
    (∃ s ∈ some { booting .bankLoad id with flash := { Flash.factory with bankA := .erased, bankB := .factory } },
      (s.bankFails 0).isSome = true ∧ s.bankFails (1 - 0) = none) ∧
    (∃ s ∈ some { booting .bankLoad id with flash := { Flash.factory with bankA := .erased } },
      (s.bankFails 0).isSome = true ∧ (s.bankFails (1 - 0)).isSome = true) ∧
    (booting .handover id).boot.phase = .handover ∧ (booting .firmware id).boot.phase = .firmware := by decide +kernel

/-- The signature of the byte 2: with `r` and `s` its digest, the key is the point of that abscissa less the base point. -/
def digest2 : Nat := 0xdb475240477c5e4497a2c5724ca485f5b1f2c2fc0602b92bae234238ec8d4e873a7148c739593e95a7f4dfe7c6e69f69

def key2 : List Byte :=
  beBytes 48 0xb42062144550e6f1c1eab261bc2f03156627cfba964fb8b26e2ec1644432b6873cf698069cf8aabcd7ebc2754650b412 ++
  beBytes 48 0xced6ff89af867f08cc08fa4c6a369dc0e2ee4f55350a07a3820e84657604c645d002b3907e62a6a02e4847ea6bb59fbc

/-- A header of an image of 97 bytes under that key. -/
def header97 : List Byte := List.replicate 24 0 ++ leBytes 8 97 ++ List.replicate 120 0 ++ key2 ++ List.replicate 264 0

/-- A session sends an image: what is staged so far is `st`. -/
def receiving (st : List Byte) : State :=
  served { booting .running (fun b => { b with upd := .receiving, offer := some (1, header97) }) with
    flash := { Flash.factory with stagingB := st } }

theorem test_sha384_of_empty : (sha384 []).take 4 = [0x38, 0xB0, 0x60, 0xA7] := by decide +kernel

/-- The second example of RFC 4231. -/
theorem test_hmac384 :
    (hmac384 (asciiBytes "Jefe") (asciiBytes "what do ya want for nothing?")).take 4 = [0xAF, 0x45, 0xD2, 0xE3] := by
  decide +kernel

/-- The check value of CRC-32C. -/
theorem test_crc32c : crc32c (asciiBytes "123456789") = 0xE3069283 := by decide +kernel

/-- Examples of FIPS 197: SubBytes of 53 and MixColumns of a column. -/
theorem test_aes : aesSbox 0x53 = 0xED ∧ aesMix [0xDB, 0x13, 0x53, 0x45] = [0x8E, 0x4D, 0xA1, 0xBC] := by decide +kernel

theorem test_signature : ecdsaVerify key2 (beBytes 48 digest2) (beBytes 48 digest2 ++ beBytes 48 digest2) = true := by
  decide +kernel

theorem test_digest2 : sha384 [2] = beBytes 48 digest2 := by decide +kernel

def signed97 : List Byte := 2 :: (beBytes 48 digest2 ++ beBytes 48 digest2)

/-- Which offered header and which image pass rests on the digests of Tuinel's keys, which no rule gives: for these two
clauses the witness is a state in which the check is made, and either answer can be its answer. -/
theorem witness_FirmwareCommandsUpdate :
    (accepts (booting .running id |> served) (cmd 0x02 [] (List.replicate 32 1)) client = true ∧
      (booting .running id).maySign = true ∧ (booting .running id).mayRaise = true) ∧
    (∃ sl ∈ some (cmd 0x60 [0, 0] (List.replicate 512 0)), accepts (booting .running id |> served) sl client = true ∧
      sl.w64 4 = imgLength sl.payload ∧ (booting .running id |> served).offerFails sl.payload = some (0x6001, 1)) ∧
    (∃ sl ∈ some (cmd 0x61 [0, 0] [2]), accepts (receiving []) sl client = true ∧ sl.w64 4 = ((receiving []).flash.staging (receiving []).updBank).length ∧ sl.payload.length < imgLength header97) ∧
    (∃ sl ∈ some (cmd 0x61 [1, 0] (List.replicate 96 0)), accepts (receiving [2]) sl client = true ∧ (receiving [2]).flash.staging (receiving [2]).updBank = [2] ∧ sl.w64 4 = [(2 : Byte)].length ∧
      ([2] ++ sl.payload).length = imgLength header97 ∧
      ecdsaVerify (sliceBytes header97 152 96) (sha384 (([2] ++ sl.payload).take (imgLength header97 - 96)))
        (sliceBytes ([2] ++ sl.payload) (imgLength header97 - 96) 96) = false) ∧
    (accepts (served (booting .running fun b => { b with upd := .staged })) (cmd 0x62 [1] []) client = true) ∧
    (accepts (served (booting .running fun b => { b with upd := .trial })) (cmd 0x63 [] []) client = true) := by decide +kernel

theorem witness_FirmwareCommandsUpdate_signed : ∃ sl, sl = cmd 0x61 [1, 0] (beBytes 48 digest2 ++ beBytes 48 digest2) ∧
    Accepted (receiving [2]) sl client ∧ sl.w64 4 = 1 ∧ ([2] ++ sl.payload).length = imgLength header97 ∧
    ecdsaVerify (sliceBytes header97 152 96) (sha384 (([2] ++ sl.payload).take (imgLength header97 - 96)))
      (sliceBytes ([2] ++ sl.payload) (imgLength header97 - 96) 96) = true := by
  refine ⟨_, rfl, accepted_of (by decide +kernel), by decide +kernel, by decide +kernel, ?_⟩
  have h1 : sliceBytes header97 152 96 = key2 := by decide +kernel
  have h2 : ([2] ++ (cmd 0x61 [1, 0] (beBytes 48 digest2 ++ beBytes 48 digest2)).payload).take (imgLength header97 - 96) = [2] := by
    decide +kernel
  have h3 : sliceBytes ([2] ++ (cmd 0x61 [1, 0] (beBytes 48 digest2 ++ beBytes 48 digest2)).payload) (imgLength header97 - 96) 96 =
      beBytes 48 digest2 ++ beBytes 48 digest2 := by decide +kernel
  rw [h1, h2, h3, test_digest2]
  exact test_signature

/-- The same holds of the image that is applied. -/
theorem witness_AppliedImagesAreStagedOrDropped :
    ∃ s ∈ some (booting .running fun b => { b with upd := .applying }), s.boot.upd = .applying ∧ s.boot.phase = .running ∧
      imgIsDiff (s.flash.staging s.updBank) = false ∧ (s.imageFails (s.flash.staging s.updBank)).isSome = true := by decide +kernel

theorem witness_PinsStartAndStopTheBlock :
    State.reset.boot.pkgResetN = true ∧ State.reset.powered = true ∧ (booting .off id).powered = false ∧
    (booting .held fun b => { b with pkgResetN := false }).boot.pkgResetN = false ∧
    (booting .off fun b => { b with pwrGood := false }).boot.pwrGood = false ∧ State.reset.boot.pwrGood = true ∧
    (booting .stopping id).boot.phase = .stopping ∧
    ({ State.reset with sed := { Sed.init with dumpCopying := true } }).sed.dumpCopying = true := by decide +kernel

theorem witness_PowerPolicySetsLimitAndCap :
    (∀ a ∈ [[800, 250], [3200, 2000], [799, 250], [3201, 2000], [800, 249], [3200, 2001]],
      accepts (inPhase .ready) (cmd 0x81 a []) client = true) ∧
    (∀ a ∈ [[800, 250], [3200, 2000]], 800 ≤ (cmd 0x81 a []).w 4 ∧ (cmd 0x81 a []).w 4 ≤ 3200 ∧ 250 ≤ (cmd 0x81 a []).w 5 ∧
      (cmd 0x81 a []).w 5 ≤ 2000) ∧
    (∀ a ∈ [[799, 250], [3201, 2000], [800, 249], [3200, 2001]], (cmd 0x81 a []).w 4 < 800 ∨ 3200 < (cmd 0x81 a []).w 4 ∨
      (cmd 0x81 a []).w 5 < 250 ∨ 2000 < (cmd 0x81 a []).w 5) := by decide +kernel

theorem witness_BrakeAndClocksAct :
    State.reset.power.brake = false ∧ ({ State.reset with power := { Power.init with brake := true } }).power.brake = true ∧
    State.reset.power.sysLost = false ∧ State.reset.power.sdsLost.length = 4 ∧ State.reset.power.sdsLost.getD 3 false = false ∧
    ([true, false, false, true] : List Bool).length = 4 ∧ ([true, false, false, true] : List Bool).getD 3 false = true ∧
    pathKnown 0 = true ∧ pathKnown 0x400 = true ∧ followsClock 0 = true ∧ followsClock 0x600 = false := by decide +kernel

/-- Temperatures, throttling dies and a thermal cap of die 0. -/
def warm (temps : List (Nat × Int)) (cap : Nat) : State :=
  { State.reset with power := { Power.init with temps, throttle := [true, false, false, false], thermalCap := [cap, 128, 128, 128] } }

theorem witness_ThermalAndPowerLoopsMoveTheCaps :
    State.reset.power.throttle.length = 4 ∧ State.reset.power.thermalCap.length = 4 ∧ State.reset.powered = true ∧
    State.reset.boot.thermHold = false ∧
    (∃ r ∈ some (⟨0, 16 * 200⟩ : Reading), isSensor r.sensor = true ∧ isTrip (r.sensor, r.temp) = true) ∧
    (∃ r ∈ some (⟨0x70B, 0⟩ : Reading), isSensor r.sensor = true ∧ isTrip (r.sensor, r.temp) = false) ∧
    (∀ cap ∈ [16, 17, 128], (warm [(0, 16 * 104)] cap).power.throttle.getD 0 false = true ∧
      ((warm [(0, 16 * 104)] cap).sensorsOf 0).any isHot = true) ∧
    (∀ cap ∈ [16, 126, 127], ((warm [(0, 0)] cap).sensorsOf 0).all isCool = true) ∧
    (warm [] 126).power.thermalCap.getD 0 128 + 1 < mhzSteps (warm [] 126).power.capMhz ∧
    mhzSteps (warm [] 127).power.capMhz ≤ (warm [] 127).power.thermalCap.getD 0 128 + 1 ∧
    State.reset.boot.phase = .running := by decide +kernel

/-- Unit 7 with a power record. -/
def unit7 (u : UnitPower) : State := { State.reset with now := 3000, power := { Power.init with units := [(7, u)] } }

def idleUnit : UnitPower :=
  { state := 0, entering := none, waking := false, wakePending := false, shutPending := none, idleSince := 0 }

theorem witness_UnitsChangePowerState :
    powerUnit 7 = true ∧
    (∀ u ∈ [idleUnit, { idleUnit with state := 2, waking := true }],
      ((unit7 u).unit 7).depth < deepest (((unit7 u).nextT 7).getD ((unit7 u).idleT 7)) ∧ ((unit7 u).unit 7).entering = none ∧
      (unit7 u).mayPower 7 (deepest (((unit7 u).nextT 7).getD ((unit7 u).idleT 7))) = true) ∧
    (∀ since ∈ [2985, 2986], ((unit7 { idleUnit with entering := some (3, since) }).unit 7).entering = some (3, since) ∧
      clockStopped 3 ((unit7 { idleUnit with entering := some (3, since) }).now - since) = decide (since ≤ 2985)) ∧
    (∃ u ∈ some ((unit7 { idleUnit with state := 3 }).unit 7), u.entering = none ∧ u.state ≠ 0 ∧ u.waking = false) ∧
    (∃ s ∈ some { unit7 { idleUnit with state := 2 } with ctxs := [{ fresh with
        paths := [(7, { PathRegs.init with hintValid := true, hintNext := 100, hintAt := 3000 })] }] },
      s.nextT 7 = some 100 ∧ (s.unit 7).state ≠ 0) ∧
    ((unit7 { idleUnit with state := 2, waking := true }).unit 7).waking = true := by decide +kernel

theorem witness_UnusedPortsGoOffAndReturn :
    (∀ ph ∈ [PortPhase.probe, .train, .auth, .up], ∃ s ∈ some { linked [fresh] ph with power := { Power.init with limitW := 1599 } },
      ∃ q ∈ s.port? 1, q.phase = ph ∧ s.power.limitW < 1600 ∧ (s.ctxs.any fun c => c.bindings.any fun b => b.port == 1) = false) ∧
    ∃ s ∈ some { linked [] .off with ports := State.reset.ports.set 1 { Port.init with phase := .off, returning := true } },
      ∃ q ∈ s.port? 1, q.phase = .off ∧ q.returning = true := by decide +kernel

/-- R409: the bank that boots is protected, the other is not. -/
theorem test_bankProtected : State.reset.bankProtected 0 = true ∧ State.reset.bankProtected 1 = false := by decide

/-! ## Background work, the log, links and resets -/

/-- A scrub at both ends of subsoil and topsoil with a word that cannot be corrected, and a page to be zeroed. -/
theorem witness_ScrubbingAndZeroingActOnPages :
    State.reset.pageOk 16384 = true ∧ State.reset.pageOk 16383 = true ∧ State.reset.pageOk 311295 = true ∧
    inPage 16384 (pageAddr 16384) = true ∧ inPage 16383 (pageAddr 16383 + 2097151) = true ∧
    State.reset.bg.zeroing.contains 16384 = false ∧ State.reset.reserved 16384 = false ∧
    ({ State.reset with bg := { Background.init with zeroing := [16384] } }).bg.zeroing.contains 16384 = true := by decide +kernel

/-- Port 1 is UP, with one lane in recalibration or none. -/
def lanes8 (rc : Option Nat) (lanes : Nat := 255) (cal : Bool := true) : State :=
  { State.reset with ports := State.reset.ports.set 1 { Port.init with phase := .up, epoch := 4, lanes, recal := rc, calOk := cal } }

theorem witness_BackgroundTasksServeTheirSlots :
    (∀ rc ∈ [none, some 7], ∃ q ∈ (lanes8 rc).port? 1, q.phase = .up ∧ bitOf q.lanes 7 = true ∧ q.recal = rc ∧ q.calOk = true) ∧
    (∃ q ∈ (lanes8 none (cal := false)).port? 1, q.calOk = false ∧ bitOf q.lanes 7 = true) ∧
    (∃ q ∈ (lanes8 (some 7) 127).port? 1, q.recal = some 7 ∧ bitOf q.lanes 7 = false) ∧
    State.reset.stackOk 0 = true ∧ State.reset.stackOk 11 = true ∧ State.reset.boot.phase = .running := by decide +kernel

/-- A lane retired during its recalibration ends it (R467): lane 7 of 8 fails. -/
theorem test_retired_lane_ends_recalibration :
    ((next? (exec (.laneErrorInterval 1 (List.replicate 7 ⟨0, 1000, 0⟩ ++ [⟨1000, 1000, 0⟩])) (lanes8 (some 7)))).bind fun t =>
      (t.port? 1).map fun q => (q.lanes, q.recal)) = some (127, none) := by decide +kernel

/-- The worked example of the flood modes (R432): the bucket of LANE_RETRY, empty at 0 ms, has one token at 300 ms, and the
record written then carries the 24 suppressed events. -/
theorem test_lane_retry_burst :
    (({ State.reset with now := 300000, sed := { Sed.init with buckets := [{ code := 0x3101, tokens := 0, since := 0, supp := 24 }] } } :
      State).writeEvent { code := 0x3101, detail := 0, src := 0x609, ctx := 0xFF, words := [] }).map
        (fun t => (t.sed.ring.map SedRec.supp, (t.bucket 0x3101).since, (t.bucket 0x3101).tokens)) = some ([24], 256000, 0) := by
  decide +kernel

def event (code : Nat) : Event := { code, detail := 3, src := 0x400, ctx := 0xFF, words := [] }

def record (code : Nat) : SedRec :=
  { code, sev := severity code, src := 0x400, rep := 1, detail := 3, time := 0, pcc := 0, seq := 1, ctx := 0xFF, flags := 0,
    snap := [], supp := 0, span := 0 }

/-- A log with an event at a source, one in the queue and a record. -/
def logging (bus queue : List Event) (ring : List SedRec) : State :=
  { State.reset with sed := { Sed.init with bus, queue, ring, nextSeq := 2, openRec := true } }

theorem witness_TheLogRecordsEvents :
    ((logging [event 0x5001] [] []).sed.bus.find? (fun e => e.src == 0x400) = some (event 0x5001) ∧
      (logging [event 0x5001] [] []).sed.queue.length < 960) ∧
    (floodExempt 0x5001 = true ∧ (State.reset.codeCfg 0x5001).set = 0 ∧ (logging [] [event 0x5001] []).sed.lostPending = 0) ∧
    (floodExempt 0x4003 = false ∧ (State.reset.codeCfg 0x4003).rate = false ∧ (record 0x4003).folds (event 0x4003) = true ∧
      (logging [] [event 0x4003] [record 0x4003]).sed.ring.getLast? = some (record 0x4003) ∧
      (logging [] [event 0x4003] [record 0x4003]).recOpen = true) ∧
    (∃ s ∈ some { State.reset with sed := { Sed.init with buckets := [{ code := 0x2101, tokens := 31, since := 0, supp := 2 }] } },
      (s.codeCfg 0x2101).rate = true ∧ (s.bucket 0x2101).tokens < (s.codeCfg 0x2101).burst) := by decide +kernel

/-- A management flit in sequence, without bytes of a message. -/
def mgmt : Flit := { flit with vc := 3, type := 7, epoch := 4, payload := List.replicate 240 0 }

/-- A flit's 256 bytes give it back, and the check over bytes 0 to 251 finds a byte that is not as sent (R296, R297). -/
theorem test_flit_bytes : Flit.ofBytes mgmt.bytes = mgmt ∧ crcGood mgmt.bytes = true ∧ mgmt.bytes.length = 256 ∧
    crcGood (mgmt.bytes.set 9 1) = false ∧
    ({ flit with vc := 1, type := 5, last := true, bind := 0x801, epoch := 0xFE, seq := 0x123456, fill := 0xE0 } : Flit).header =
      0x56801FE123456E00 := by decide +kernel

/-- Port 1 with a link layer. -/
def linkUp (ph : PortPhase) (f : Link → Link) : State :=
  { State.reset with ports := State.reset.ports.set 1 { Port.init with phase := ph, epoch := 4, lanes := 255, link := f .fresh } }

def manage : OutMsg := { vc := 3, bind := 0, started := false, since := 0, peer := none, bytes := [1] }

theorem witness_LinksSendAndReceiveFlits :
    (∀ ph ∈ [PortPhase.up, .auth], ∀ f ∈ [fun l : Link => l, fun l => { l with retryPending := true },
        fun l => { l with resend := [mgmt], replay := [(mgmt, 1)] }, fun l => { l with waiting := [manage] }],
      ∃ q ∈ ((linkUp ph f).purge 1).port? 1, q.phase = ph ∧ q.widthChange = false) ∧
    (∃ q ∈ ((linkUp .up fun l => { l with waiting := [manage] }).purge 1).port? 1, q.link.replay.length < 2048 ∧
      ((linkUp .up fun l => { l with waiting := [manage] }).purge 1).pickVc 1 q = some 3) ∧
    (∃ q ∈ ((linkUp .up id).purge 1).port? 1, ((linkUp .up id).purge 1).pickVc 1 q = none) ∧
    (∃ q ∈ ((linkUp .up fun l => { l with replay := List.replicate 2048 (mgmt, 0) }).purge 1).port? 1, q.link.resend = [] ∧
      2048 ≤ q.link.replay.length) ∧
    (∃ q ∈ (linkUp .up id).port? 1, ∃ f ∈ some (Flit.ofBytes mgmt.bytes), f.epoch = q.epoch % 256 ∧ f.type ≠ 1 ∧
      q.opened f = some [] ∧ f.seq = q.link.rxSeq ∧ (linkUp .up id).malformed 1 q f = false ∧
      crcGood { mgmt with seq := 1 }.bytes = true ∧ (Flit.ofBytes { mgmt with seq := 1 }.bytes).seq ≠ q.link.rxSeq ∧
      crcGood { mgmt with epoch := 3 }.bytes = true ∧ (Flit.ofBytes { mgmt with epoch := 3 }.bytes).epoch ≠ q.epoch % 256 ∧
      crcGood { mgmt with reserved := 1 }.bytes = true ∧
      (linkUp .up id).malformed 1 q (Flit.ofBytes { mgmt with reserved := 1 }.bytes) = true) ∧
    (∀ n ∈ [7, 8], ∃ q ∈ (linkUp .up fun l => { l with replay := [(mgmt, n)] }).port? 1,
      (q.link.fromSeq (seqMod 0)).isEmpty = false ∧ q.link.spent (seqMod 0) = decide (n = 8) ∧
      q.link.replay = [(mgmt, n)] ∧ q.phase = .up) := by decide +kernel

def faulty : LaneErrors := { symbolErrors := 1, symbols := 1023, codewords := 4 }

/-- A starving VC, and 4 or 5 failing lanes of 8. -/
theorem witness_PortsGoDownOrLoseLanes :
    (∃ q ∈ (linkUp .up id).port? 1, q.phase = .up ∧ 4 ≤ laneCount (q.lanes &&& 0x0F) ∧ laneCount (q.lanes &&& 0x07) < 4) ∧
    (∃ q ∈ (linkUp .up fun l => { l with waiting := [manage], credits := [512, 512, 64, 0] }).port? 1,
      q.link.credits.getD 3 0 = 0 ∧ q.starved.getD 3 false = false ∧
      ((linkUp .up fun l => { l with waiting := [manage], credits := [512, 512, 64, 0] }).nextMsg 1 3 q.link).isSome = true) ∧
    (∀ n ∈ [4, 5], ∃ q ∈ (linkUp .up id).port? 1, ∃ bad ∈ some ((List.range 8).filter (fun i =>
        bitOf q.lanes i && ((List.replicate n faulty)[i]?).any fun e => laneFails e q.cfg)), bad ≠ [] ∧
      (n = 4 → 4 + bad.length ≤ laneCount q.lanes) ∧ (n = 5 → laneCount q.lanes < 4 + bad.length)) ∧
    (∀ n ∈ [7, 8], ∃ q ∈ (linkUp .up fun l => { l with replay := [(mgmt, n)] }).port? 1,
      q.link.spent ((q.link.replay.head?.map fun x => x.1.seq).getD 0) = decide (n = 8)) ∧
    (∃ q ∈ (linkUp .up id).port? 1, q.lanes &&& 0x1FF = q.lanes ∧ q.lanes &&& 0x0F ≠ q.lanes ∧
      4 ≤ laneCount (q.lanes &&& 0x0F) ∧ laneCount (q.lanes &&& 7) < 4) := by decide +kernel

/-- What a partner sends, with a chain that verifies or not. -/
def peer (ok : Bool) : LinkHello :=
  { nonce := [], epoch := 9, ecdh := [], hasCrypto := true, cryptReq := true, chain := [], chainOk := ok, unitKey := [], sig := []
    port := 3, fabric := false, table := [(5, 77)] }

/-- Whether a handshake passes rests on records that Tuinel's keys sign and on digests over this unit's free nonce, which no
rule gives: the witness is a port in AUTH whose handshake is checked, and a handshake that fails. -/
theorem witness_PortsTrainAndComeUp :
    (∀ ph ∈ [PortPhase.probe, .train, .auth, .quarantine, .up], ∃ q ∈ (linkUp ph id).port? 1, q.phase = ph) ∧
    State.reset.power.sdsLost.getD (1 / 8) false = false ∧ State.reset.dieResetting (1 / 8) = false ∧ 4 ≤ laneCount 0x0F ∧ laneCount 0x07 < 4 ∧
    (∃ q ∈ (linkUp .train id).port? 1, q.selfTestFails = 0) ∧
    (∃ s ∈ some { linkUp .train id with ports := State.reset.ports.set 31 { Port.init with phase := .train, selfTestFails := 1 } },
      ∃ q ∈ s.port? 31, 1 ≤ q.selfTestFails) ∧
    (∃ q ∈ (linkUp .auth id).port? 1, (linkUp .auth id).maySign = true ∧
      ((linkUp .auth id).authFailure 1 q (peer false)).isSome = true) ∧
    (∃ s ∈ some { linkUp .up id with ports := State.reset.ports.set 1 { Port.init with phase := .up, crypt := true } },
      ∃ q ∈ s.port? 1, q.crypt = true ∧ q.keyFlits < 2 ^ 40 ∧ q.rxFlits < 2 ^ 40 ∧
      ∃ u ∈ some ((s.advanceTo (q.keyAt + 86400000000)).sendHello 1), ∃ x ∈ u.port? 1,
        (u.authFailure 1 x (peer false)).isSome = true) := by decide +kernel

/-- A context in a reset. -/
def resetting (r : CtxReset) : State := withCtxs [{ plain with phase := .resetting, reset := some r }]

def stopped (lost release : Bool) : CtxReset := { cause := 2, start := 0, stopped := true, release, dies := [], lost }

theorem witness_ContextResetsStopAndRestore :
    (∃ c ∈ (withCtxs [plain]).ctx? 0, c.phase ≠ .resetting) ∧
    (∃ c ∈ (resetting { stopped false false with stopped := false }).ctx? 0, c.phase = .resetting ∧
      ∃ x ∈ c.reset, x.stopped = false ∧
      ∀ se ∈ (resetting { stopped false false with stopped := false }).ligil.sessions, ∀ h ∈ se.handles, h.ctx ≠ 0) ∧
    (∃ c ∈ (resetting { stopped false false with dies := [1] }).ctx? 0, ∃ x ∈ c.reset, x.dies ≠ []) ∧
    (∀ lost release : Bool, ∃ c ∈ (resetting (stopped lost release)).ctx? 0, c.snap = none ∧ ∃ x ∈ c.reset, x.stopped = true ∧
      x.dies = [] ∧ x.lost = lost ∧ x.release = release) := by decide +kernel

/-- Forward array 0 with an item, vector unit 0 with an instruction, and engine records. -/
def engaged (l : List EngineRec) : State :=
  { sched0 { Sched.empty with running := [(0, item 0x10 0, 0)] } (mult 0x10 .placed) with engines := l }

def engine0 : EngineRec :=
  { engine := .forward 0, parity := [5], resets := [0], itemsSince := none, resetting := none, lastRetire := 0, moved := 0 }

theorem witness_EnginesAreResetAndReturn :
    (∃ s ∈ some (engaged [engine0]), s.engineOk (.forward 0) = true ∧ s.engineOk (.copy 63) = true ∧ s.boot.phase = .running ∧
      s.dieResetting (pathDie (enginePath (.forward 0))) = false ∧ (s.engineRec (.forward 0)).resetting = none ∧
      (s.engineRec (.forward 0)).resets.length < 2 ∧ engineGrain (.forward 0) = some 0 ∧
      (s.issuedOn (.forward 0)).contains (ref 0) = true ∧
      ((s.engineRec (.forward 0)).parity.filter fun x => decide (s.now ≤ x + 1000000)).length < 2 ∧
      ((s.issuedOn (.forward 0)).filter fun r => (engineArray (.forward 0)).isSome || s.pends r) ≠ [] ∧
      s.active (engineUnit (.forward 0)) = true) ∧
    ((engaged [{ engine0 with resetting := some (7, 0) }]).engineRec (.forward 0)).resetting = some (7, 0) := by decide +kernel

/-- A partition reset of die 0. -/
def partReset (ph : PartPhase) : State :=
  { withCtxs [{ plain with phase := .resetting, reset := some (stopped false false) }] with
    resets := { State.reset.resets with parts := [{ die := 0, cause := 1, phase := ph, start := 0, seq := 1, included := [0] }], judged := [3] } }

theorem witness_PartitionResetsRunThroughTheirPhases :
    (∀ d ∈ [0, 3], State.reset.dieOk d = true ∧ State.reset.dieResetting d = false) ∧ State.reset.boot.phase = .running ∧
    (∃ c ∈ (withCtxs [plain]).ctx? 0, c.usesDie 0 = true ∧ c.reset = none) ∧
    (∀ ph ∈ [PartPhase.stop, .dump, .retire, .train, .zero], ∃ r ∈ (partReset ph).resets.parts.find? (fun x => x.die == 0),
      r.phase = ph ∧ (∀ id ∈ r.included, ∀ c ∈ (partReset ph).ctx? id, (c.reset.any CtxReset.stopped) = true) ∧
      ∀ se ∈ (partReset ph).ligil.sessions, se.handles = []) ∧
    (∃ q ∈ (partReset .train).port? 7, q.phase ≠ .retired ∧ q.selfTestFails = 0) ∧
    (∀ path ∈ [0x100, 0x200, 0x300, 0x70B], pathKnown path = true ∧ chipDomain path = false) ∧
    pathKnown 0x400 = true ∧ chipDomain 0x400 = true := by decide +kernel

theorem witness_ChipResetsRestartTheBlock :
    State.reset.powered = true ∧ State.reset.boot.thermHold = false ∧ State.reset.resets.chipTimes.length < 2 ∧
    countedCause 1 = false ∧ countedCause 9 = true ∧
    (∃ s ∈ some { State.reset with resets := { State.reset.resets with chipTimes := [0, 0] } },
      2 ≤ (s.resets.chipTimes.filter fun x => decide (s.opMs / 1000 ≤ x + 3600)).length ∧ s.powered = true) ∧
    (booting .firmware id).boot.phase = .firmware ∧
    (∃ c ∈ (resetting (stopped false false)).ctx? 0, ∃ r ∈ c.reset, r.dies = []) ∧
    (∃ s ∈ some (engaged [{ engine0 with resetting := some (7, 0) }]), ∃ e ∈ (pathEngines 0).find? (fun e => (s.engineRec e).resetting.isSome),
      s.boot.phase = .running ∧ engineDie e < 4 ∧ s.dieOk (engineDie e) = true ∧ s.dieResetting (engineDie e) = false) ∧
    ((partReset .stop).resets.parts.find? (fun x => x.die == 0)).isSome = true ∧
    (∃ s ∈ some { State.reset with resets := { State.reset.resets with chip := some (1, 0) } }, s.resets.chip.isSome = true ∧
      s.powered = true ∧ s.boot.pkgResetN = true ∧ s.boot.pwrGood = true ∧ s.boot.thermHold = false) := by decide +kernel

/-- A code in repeat mode, one in rate mode with and without a token, and one that is exempt. -/
theorem witness_FloodModesKeepTheirPromises :
    (∃ s ∈ some (logging [] [] [record 0x4003]), (s.codeCfg 0x4003).rate = false ∧ (s.writeEvent (event 0x4003)).isSome = true) ∧
    (∀ tokens ∈ [0, 1], ∃ s ∈ some { State.reset with sed := { Sed.init with buckets := [{ code := 0x2101, tokens, since := 0, supp := 2 }] } },
      (s.codeCfg 0x2101).rate = true ∧ (s.writeEvent (event 0x2101)).isSome = true) ∧
    ((logging [] [] []).writeEvent (event 0x5001)).isSome = true ∧ 0x5001 / 0x1000 = 5 := by decide +kernel

/-- A first quarantine and one within an hour of another, and a port in quarantine. -/
theorem witness_QuarantinesLastAndDouble :
    (∃ q ∈ (linkUp .up id).port? 1, q.quarantines = 0) ∧
    (∃ s ∈ some { linkUp .up id with now := 3600000000, ports := State.reset.ports.set 1 { Port.init with quarantines := 1, quarUntil := 0 } },
      ∃ q ∈ s.port? 1, 0 < q.quarantines ∧ s.now ≤ q.quarUntil + 3600 * 1000000) ∧
    ∃ q ∈ (linkUp .quarantine id).port? 1, q.phase = .quarantine := by decide +kernel

/-! ## A plan image that passes, and other witnesses that need a proof -/

/-- The bytes of a plan image before and after its check word: a ped-4 stream with one STEP_END, and no table. -/
def imgPre : List Byte := [0x50, 0x4C, 0x4E, 0x31, 1, 0, 0, 4, 0xC0, 0x98, 0, 0]

def imgSuf : List Byte :=
  [0, 0, 0, 0, 0, 0, 0, 0, 5, 0, 0, 0, 0, 0, 1, 0, 64] ++ List.replicate 23 0 ++ [192] ++ List.replicate 7 0 ++
  [0, 4, 0, 0, 128, 0, 0, 0, 1] ++ List.replicate 55 0 ++ [0x73] ++ List.replicate 63 0

/-- The bitmap names the first subsoil page, where the image lies. -/
def imgTail : List Byte := List.replicate 2048 0 ++ 1 :: List.replicate 36863 0

def imgCheck : Nat := crc32c (imgPre ++ [0, 0, 0, 0] ++ (imgSuf ++ imgTail))

def image : List Byte := imgPre ++ leBytes 4 imgCheck ++ (imgSuf ++ imgTail)

theorem crcShift_lt {c : Nat} (h : c < 2 ^ 32) : crcShift c < 2 ^ 32 := by
  unfold crcShift
  split
  · exact Nat.xor_lt_two_pow (by omega) (by decide)
  · omega

theorem crcByte_lt {c : Nat} (h : c < 2 ^ 32) (b : Byte) : crcByte c b < 2 ^ 32 := by
  unfold crcByte
  have : c ^^^ b.toNat < 2 ^ 32 := Nat.xor_lt_two_pow h (by have := b.isLt; omega)
  exact crcShift_lt (crcShift_lt (crcShift_lt (crcShift_lt (crcShift_lt (crcShift_lt (crcShift_lt (crcShift_lt this)))))))

theorem crc32c_lt (bs : List Byte) : crc32c bs < 2 ^ 32 := by
  unfold crc32c
  refine Nat.xor_lt_two_pow ?_ (by decide)
  have : ∀ (l : List Byte) (c : Nat), c < 2 ^ 32 → l.foldl crcByte c < 2 ^ 32 := by
    intro l
    induction l with
    | nil => intro c h; exact h
    | cons b l ih => intro c h; exact ih _ (crcByte_lt h b)
  exact this bs _ (by decide)

theorem leNat_leBytes (n v : Nat) : leNat (leBytes n v) = v % 256 ^ n := by
  induction n generalizing v with
  | zero => simp [leBytes, leNat, Nat.mod_one]
  | succ n ih =>
    simp only [leBytes, leNat, ih, BitVec.toNat_ofNat]
    exact (by rw [Nat.pow_succ', Nat.mod_mul] : v % 256 ^ (n + 1) = v % 256 + 256 * (v / 256 % 256 ^ n)).symm

theorem bump_length (a b : Nat) : (List.replicate a (0 : Byte) ++ 1 :: List.replicate b 0).length = a + (b + 1) := by
  rw [List.length_append, List.length_cons, List.length_replicate, List.length_replicate]

theorem imgTail_length : imgTail.length = 38912 := bump_length 2048 36863

theorem image_length : image.length = 39104 := by
  simp only [image, List.length_append, imgTail_length]
  decide +kernel

theorem image_check : leAt image 12 4 = imgCheck := by
  have : sliceBytes image 12 4 = leBytes 4 imgCheck := rfl
  rw [leAt, this, leNat_leBytes]
  exact Nat.mod_eq_of_lt (crc32c_lt _)

theorem image_around : image.take 12 ++ [0, 0, 0, 0] ++ image.drop 16 = imgPre ++ [0, 0, 0, 0] ++ (imgSuf ++ imgTail) := rfl

theorem image_headerOk : headerOk image (parseHeader image) = true := by
  have hc : (parseHeader image).check = crc32c (image.take 12 ++ [0, 0, 0, 0] ++ image.drop 16) := by
    rw [image_around]; exact image_check
  simp only [headerOk, hc, image_length, tableOk, beq_self_eq_true, Bool.and_true]
  decide +kernel

/-- The plan the image spells. -/
def imgPlan : Plan :=
  { offset := 0x1000000000, length := 39104, kind := 0, depth := 4, overlap := false, nFirst := 5, formats := 0, units := 0
    streams := [{ path := 0x400, instrs := [[0x73, 0, 0, 0, 0, 0, 0, 0]] }], tensors := [], args := [], commons := []
    marks := [16384] }

theorem bump_slice (l : List Byte) : (List.range l.length).map (fun i => l.getD i 0) = l := by
  apply List.ext_getElem
  · simp
  · intro i h1 h2
    simp [List.getD_eq_getElem?_getD, h2]

theorem getD_append_ge (l r : List Byte) (i : Nat) : (l ++ r).getD (l.length + i) 0 = r.getD i 0 := by
  rw [List.getD_eq_getElem?_getD, List.getElem?_append_right (by omega), Nat.add_sub_cancel_left, ← List.getD_eq_getElem?_getD]

theorem slice_append (l r : List Byte) (n m : Nat) (hn : l.length = n) (hm : r.length = m) : sliceBytes (l ++ r) n m = r := by
  subst hn hm
  simp only [sliceBytes, getD_append_ge]
  exact bump_slice r

theorem image_marks : sliceBytes image 192 markBytes = imgTail := by
  have h : image = (imgPre ++ leBytes 4 imgCheck ++ imgSuf) ++ imgTail := by
    rw [image, List.append_assoc (imgPre ++ leBytes 4 imgCheck)]
  rw [h]
  exact slice_append _ _ _ _ (by rw [List.length_append, List.length_append]; decide +kernel) imgTail_length

theorem parseMarks_bump (a b : Nat) : parseMarks (List.replicate a 0 ++ 1 :: List.replicate b 0) = [8 * a] := by
  have z : ∀ (n k : Nat) (f : Byte × Nat → List Nat), (∀ j, f (0, j) = []) → ((List.replicate n (0 : Byte)).zipIdx k).flatMap f = [] := by
    intro n
    induction n with
    | zero => intro k f _; rfl
    | succ n ih => intro k f h; rw [List.replicate_succ, List.zipIdx_cons, List.flatMap_cons, h, ih _ _ h]; rfl
  rw [parseMarks, List.zipIdx_append, List.flatMap_append, z _ _ _ (by simp), List.zipIdx_cons, List.flatMap_cons, z _ _ _ (by simp)]
  have h : (List.range 8).filter (fun i => (1 : Byte).getLsbD i) = [0] := by decide
  simp only [List.length_replicate, List.nil_append, List.append_nil, h]
  simp

theorem image_plan : parsePlan 0x1000000000 image = imgPlan := by
  have hm : parseMarks (sliceBytes image (parseHeader image).snapOff markBytes) = [16384] := by
    have h : (parseHeader image).snapOff = 192 := by decide +kernel
    rw [h, image_marks]
    exact parseMarks_bump 2048 36863
  simp only [parsePlan, hm, image_length, imgPlan, Plan.mk.injEq, and_true, true_and]
  decide +kernel

theorem cellsAt_ge (a : Nat) (bs : List Byte) : ∀ c ∈ cellsAt a bs, a ≤ c.1 := by
  induction bs generalizing a with
  | nil => intro c h; cases h
  | cons b bs ih =>
    intro c h
    rw [cellsAt] at h
    split at h
    · exact Nat.le_of_succ_le (ih (a + 1) c h)
    · rcases List.mem_cons.mp h with rfl | h
      · exact Nat.le_refl a
      · exact Nat.le_of_succ_le (ih (a + 1) c h)

theorem memRun_cellsAt (a : Nat) (bs : List Byte) : memRun bs.length (cellsAt a bs) a = bs := by
  induction bs generalizing a with
  | nil => rfl
  | cons b bs ih =>
    rw [List.length_cons, cellsAt]
    split
    · rename_i h
      subst h
      have := cellsAt_ge (a + 1) bs
      cases hc : cellsAt (a + 1) bs with
      | nil => rw [memRun, ← hc, ih]
      | cons c cs =>
        have : c.1 ≠ a := by have := this c (by rw [hc]; exact List.mem_cons_self ..); omega
        rw [memRun, if_neg this, ← hc, ih]
    · rw [memRun, if_pos rfl, ih]

theorem memBytes_cellsAt (a : Nat) (bs : List Byte) : memBytes (cellsAt a bs) a bs.length = bs := by
  have h : (cellsAt a bs).dropWhile (fun c => decide (c.1 < a)) = cellsAt a bs := by
    cases hc : cellsAt a bs with
    | nil => rfl
    | cons c cs =>
      have : a ≤ c.1 := cellsAt_ge a bs c (by rw [hc]; exact List.mem_cons_self ..)
      rw [List.dropWhile_cons, if_neg (by simp; omega)]
  rw [memBytes, h, memRun_cellsAt]

/-- A RESERVED context of one subsoil page, in which the image lies, and a client that loads it. -/
def loader : Ctx :=
  { fresh with phase := .reserved, pages := { CtxPages.empty with window := [⟨16384, 16384⟩] }
               resv := { Resv.empty with sub := [1], snap := [2], snapSet := 1 } }

def loadable : State := { served (withCtxs [loader]) with mem := cellsAt (pageAddr 16384) image }

def loading : Slot := cmd 0x20 [0, 0, 0x10, 39104] []

theorem image_bytes {s : State} {c : Ctx} (h1 : s.translate c 0x1000000000 = some (pageAddr 16384, true))
    (h2 : s.ueIn (pageAddr 16384) 39104 = none) (h3 : memBytes s.mem (pageAddr 16384) 39104 = image) :
    s.rdBytes c 0x1000000000 39104 = .ok image := by
  have h4 : pagePart 0x1000000000 39104 = 39104 := by decide +kernel
  have h5 : 39104 / pageSize + 2 = 1 + 1 := by decide +kernel
  have h6 : s.rdPages c 1 (0x1000000000 + 39104) (39104 - 39104) = .ok [] := by
    rw [State.rdPages, if_pos (Nat.sub_self _)]
  rw [State.rdBytes, h5, State.rdPages, if_neg (by decide), h4, h1]
  simp only [h2]
  rw [h3, h6]
  show Except.ok (image ++ []) = .ok image
  rw [List.append_nil]

theorem image_cells : memBytes (cellsAt (pageAddr 16384) image) (pageAddr 16384) 39104 = image := by
  have := memBytes_cellsAt (pageAddr 16384) image
  rwa [image_length] at this

theorem loadable_bytes : (loadable.advanceSeq 1 loading).rdBytes loader 0x1000000000 39104 = .ok image :=
  image_bytes (by decide +kernel) (by decide +kernel) image_cells

theorem checkPlan_ok {s : State} {c : Ctx} {off : Nat} {b : List Byte} {p : Plan} (h1 : s.imageChecks b = none)
    (h2 : parsePlan off b = p) (h3 : (⟨s, c, p⟩ : Loading).tableChecks b = none)
    (h4 : (⟨s, c, p⟩ : Loading).instrRefusal = none) (h5 : (⟨s, c, p⟩ : Loading).wholeChecks = none) :
    s.checkPlan c off b = .ok p := by
  subst h2
  delta State.checkPlan
  rw [h1]
  dsimp only
  rw [h3]
  dsimp only
  rw [h4]
  dsimp only
  rw [h5]

/-- The image passes every check, each in the form in which the statement asks for it. -/
theorem witness_LoadPlanInstalls : Accepted loadable loading client ∧ loading.cmd = 0x20 ∧ loading.len = 0 ∧
    ((loadable.advanceSeq 1 loading).ctx? 0).any (· == loader) = true ∧ loading.ctxOk = true ∧ loading.w 6 < 65536 ∧ loading.w 7 ≠ 0 ∧
    loading.w48 5 % 64 = 0 ∧ loading.w 7 % 64 = 0 ∧ loading.w 4 % 256 = 0 ∧
    subsoilRange loader.mappedPage (loading.w48 5) (loading.w 7) = true ∧
    (loadable.advanceSeq 1 loading).rdBytes loader (loading.w48 5) (loading.w 7) = .ok image ∧
    (loadable.advanceSeq 1 loading).checkPlan loader (loading.w48 5) image = .ok imgPlan ∧
    State.imageRules loader imgPlan = none := by
  have a : loading.w48 5 = 0x1000000000 := by decide +kernel
  have b : loading.w 7 = 39104 := by decide +kernel
  have c : (loadable.advanceSeq 1 loading).imageChecks image = none := by
    simp only [State.imageChecks, image_headerOk, firstBad, Loading.dirChecks, tableOk, image_length]
    decide +kernel
  have t : (⟨loadable.advanceSeq 1 loading, loader, imgPlan⟩ : Loading).tableChecks image = none := by decide +kernel
  have i : (⟨loadable.advanceSeq 1 loading, loader, imgPlan⟩ : Loading).instrRefusal = none := by decide +kernel
  have w : (⟨loadable.advanceSeq 1 loading, loader, imgPlan⟩ : Loading).wholeChecks = none := by decide +kernel
  rw [a, b]
  exact ⟨accepted_of (by decide +kernel), by decide +kernel, by decide +kernel, by decide +kernel, by decide +kernel,
    by decide +kernel, by decide +kernel, by decide +kernel, by decide +kernel, by decide +kernel, by decide +kernel,
    loadable_bytes, checkPlan_ok c image_plan t i w, by decide +kernel⟩

/-! ### An image of that context -/

theorem memRun_append_left (n : Nat) (l r : List Host.Cell) (a : Nat) (h : ∀ c ∈ r, a + n ≤ c.1) :
    memRun n (l ++ r) a = memRun n l a := by
  induction n generalizing l a with
  | zero => cases l <;> rfl
  | succ n ih =>
    cases l with
    | nil =>
      cases r with
      | nil => rfl
      | cons c r =>
        have : c.1 ≠ a := by have := h c (List.mem_cons_self ..); omega
        have hl : memRun (n + 1) (c :: r) a = unlisted :: memRun n (c :: r) (a + 1) := by rw [memRun, if_neg this]
        exact hl.trans (congrArg _ (ih [] (a + 1) fun d hd => by have := h d hd; omega))
    | cons c l =>
      rw [List.cons_append, memRun, memRun]
      split
      · rw [ih l (a + 1) fun d hd => by have := h d hd; omega]
      · rw [← List.cons_append, ih (c :: l) (a + 1) fun d hd => by have := h d hd; omega]

theorem memBytes_append_right (l r : List Host.Cell) (a n : Nat) (h : ∀ c ∈ l, c.1 < a) : memBytes (l ++ r) a n = memBytes r a n := by
  have : (l ++ r).dropWhile (fun c => decide (c.1 < a)) = r.dropWhile fun c => decide (c.1 < a) := by
    induction l with
    | nil => rfl
    | cons c l ih =>
      rw [List.cons_append, List.dropWhile_cons, if_pos (by simpa using h c (List.mem_cons_self ..))]
      exact ih fun d hd => h d (List.mem_cons_of_mem _ hd)
  rw [memBytes, this, memBytes]

theorem cellsAt_lt (a : Nat) (bs : List Byte) : ∀ c ∈ cellsAt a bs, c.1 < a + bs.length := by
  induction bs generalizing a with
  | nil => intro c h; cases h
  | cons b bs ih =>
    intro c h
    rw [cellsAt] at h
    rw [List.length_cons]
    split at h
    · have := ih (a + 1) c h; omega
    · rcases List.mem_cons.mp h with rfl | h
      · show a < _; omega
      · have := ih (a + 1) c h; omega

/-- The record page: no slots, no counters, the plan at the first subsoil page; its check word last. -/
def recHead : List Byte :=
  [0x43, 0x49, 0x4D, 0x31, 1, 0, 8, 0, 4, 0, 0, 0, 0, 0, 0, 0, 7, 0, 0, 0, 0, 0, 0, 0, 1] ++ List.replicate 27 0 ++
  [0x10, 0, 0, 0, 0xC0, 0x98] ++ List.replicate 70 0 ++ [2] ++ List.replicate 7 0 ++
  [190, 192, 33, 180, 243, 104, 227, 6, 145, 52, 224, 18, 194, 180, 48, 112] ++ List.replicate 100 0

def recPage : List Byte := recHead ++ leBytes 4 (crc32c recHead)

/-- Its context, RESERVED, with a snapshot area of two pages. -/
def restorer : Ctx := { loader with pages := { loader.pages with area := [20000, 20001] } }

def restorable : State :=
  { served (withCtxs [restorer]) with mem := cellsAt (pageAddr 16384) image ++ cellsAt (pageAddr 20001) recPage }

def restoring : Slot := cmd 0x41 [0] []

def restorable' : State := restorable.advanceSeq 1 restoring

theorem dropWhile_ge (l : List Host.Cell) (a : Nat) (h : ∀ c ∈ l, a ≤ c.1) : l.dropWhile (fun c => decide (c.1 < a)) = l := by
  cases l with
  | nil => rfl
  | cons c l => rw [List.dropWhile_cons, if_neg (by have := h c (List.mem_cons_self ..); simp; omega)]

theorem memBytes_append_left (l r : List Host.Cell) (a n : Nat) (hl : ∀ c ∈ l, a ≤ c.1) (hr : ∀ c ∈ r, a + n ≤ c.1) :
    memBytes (l ++ r) a n = memBytes l a n := by
  rw [memBytes, memBytes, dropWhile_ge _ _ hl, dropWhile_ge, memRun_append_left _ _ _ _ hr]
  intro c hc
  rcases List.mem_append.mp hc with hc | hc
  · exact hl c hc
  · have := hr c hc; omega

theorem restorable_mem : restorable'.mem = cellsAt (pageAddr 16384) image ++ cellsAt (pageAddr 20001) recPage := rfl

theorem restorable_gap : pageAddr 16384 + 39104 ≤ pageAddr 20001 := by decide +kernel

theorem restorable_image : memBytes restorable'.mem (pageAddr 16384) 39104 = image := by
  rw [restorable_mem, memBytes_append_left _ _ _ _ (cellsAt_ge _ _) fun c hc => Nat.le_trans restorable_gap (cellsAt_ge _ _ c hc)]
  exact image_cells

theorem restorable_record (off n : Nat) :
    memBytes restorable'.mem (pageAddr 20001 + off) n = memBytes (cellsAt (pageAddr 20001) recPage) (pageAddr 20001 + off) n := by
  rw [restorable_mem]
  refine memBytes_append_right _ _ _ n fun c hc => ?_
  have := cellsAt_lt _ _ c hc
  rw [image_length] at this
  exact Nat.lt_of_lt_of_le this (Nat.le_trans restorable_gap (Nat.le_add_right _ _))

theorem findRecord_own {s : State} {c : Ctx} (h : s.recordHere c c.resv.snapSet = true) : s.findRecord c = c.resv.snapSet := by
  rw [State.findRecord, List.find?_cons_of_pos h]
  rfl

theorem recordHere_of {s : State} {c : Ctx} {j p : Nat} (h : c.pages.area[j]? = some p)
    (h1 : leNat (memBytes s.mem (pageAddr p + 0) 4) = imageMagic) (h2 : leNat (memBytes s.mem (pageAddr p + 24) 4) = j) :
    s.recordHere c j = true := by
  rw [State.recordHere, h]
  simp only [Option.any_some]
  rw [h2, show pageAddr p = pageAddr p + 0 from rfl, h1]
  simp

theorem restorable_find : restorable'.findRecord restorer = 1 :=
  findRecord_own (recordHere_of (p := 20001) (by decide +kernel) (by rw [restorable_record]; decide +kernel)
    (by rw [restorable_record]; decide +kernel))

/-- The record page alone. -/
def recState : State := { State.reset with mem := cellsAt (pageAddr 20001) recPage }

theorem readRecord_congr {s t : State} {p : Nat} (h : ∀ off n, memBytes s.mem (pageAddr p + off) n = memBytes t.mem (pageAddr p + off) n) :
    s.readRecord p = t.readRecord p := by simp only [State.readRecord, h]

def recImg : ImageRec := recState.readRecord 20001

theorem restorable_read : restorable'.readRecord 20001 = recImg := readRecord_congr restorable_record

theorem restorePlan_ok {s : State} {c : Ctx} {img : ImageRec} {b : List Byte} {p : Plan} (h1 : img.slots = [])
    (h2 : c.plan = none) (h4 : s.rdBytes c img.planOff img.planLen = .ok b) (h5 : (parsePlan img.planOff b).neededPorts = [])
    (h6 : s.checkPlan c.allBound img.planOff b = .ok p) : s.restorePlan c img = .ok p := by
  have hc : { c with plan := none } = c := by cases c; simp_all
  delta State.restorePlan
  rw [h1, hc]
  dsimp only [State.slotsBack, List.zipIdx_nil, List.foldl_nil]
  rw [h4]
  dsimp only
  rw [h5, h6]
  simp

theorem restoreChecks_ok {s : State} {c : Ctx} {at_ : Nat} {img : ImageRec} {p : Plan} (v : img.valid = true)
    (sl : img.slots = []) (ue : s.bg.ueWords = []) (sh : s.restoreShapes c img = none) (pl : s.restorePlan c img = .ok p)
    (hd : sumNat c.resv.headroom = img.headroom) (sd : img.seed = seedDigest c.config.seed) :
    s.restoreChecks c at_ img = .ok p := by
  rw [State.restoreChecks, v, sl, sh, pl]
  simp [State.pageUe, ue, hd, sd]

theorem witness_RestoreTakesTheImage : Accepted restorable restoring client ∧ restoring.cmd = 0x41 ∧ restoring.len = 0 ∧
    restoring.ctxOk = true ∧ (restorable'.ctx? 0).any (· == restorer) = true ∧ restorer.phase = .reserved ∧ restorer.steps = [] ∧
    restorable'.findRecord restorer < restorer.pages.area.length ∧
    restorable'.restoreChecks restorer (restorable'.findRecord restorer)
      (restorable'.readRecord (restorer.pages.area.getD (restorable'.findRecord restorer) 0)) = .ok imgPlan := by
  have a : restorer.pages.area.getD 1 0 = 20001 := rfl
  have o : recImg.planOff = 0x1000000000 := by decide +kernel
  have l : recImg.planLen = 39104 := by decide +kernel
  have b : restorable'.rdBytes restorer 0x1000000000 39104 = .ok image :=
    image_bytes (by decide +kernel) (by decide +kernel) restorable_image
  have c : restorable'.imageChecks image = none := by
    simp only [State.imageChecks, image_headerOk, firstBad, Loading.dirChecks, tableOk, image_length]
    decide +kernel
  have k : restorable'.checkPlan restorer.allBound 0x1000000000 image = .ok imgPlan :=
    checkPlan_ok c image_plan (by decide +kernel) (by decide +kernel) (by decide +kernel)
  refine ⟨accepted_of (by decide +kernel), by decide +kernel, by decide +kernel, by decide +kernel, by decide +kernel, rfl, rfl,
    by rw [restorable_find]; decide, ?_⟩
  rw [restorable_find, a, restorable_read]
  refine restoreChecks_ok (by decide +kernel) (by decide +kernel) rfl (by decide +kernel) ?_ (by decide +kernel) (by decide +kernel)
  refine restorePlan_ok (b := image) (by decide +kernel) rfl ?_ ?_ ?_
  · rw [o, l]; exact b
  · rw [o, image_plan]; decide +kernel
  · rw [o]; exact k

/-- The state in which its export runs. -/
def exporter : State := (busy exportable).advanceSeq 1 (cmd 0x42 [0] [])

/-- The snapshot is saved, its record in page 1 of the area: the export reads pages 0 and 1. -/
theorem witness_ExportReadsItsPages :
    ∃ data, exporter.areaBytes exportable 0 ((1 + 1) * pageSize) = .ok data := by
  have h1 : ∀ k off n, n ≠ 0 → ∀ a, exportable.areaAddr off = some a →
      ∀ rest, exporter.areaPages exportable k (off + pagePart off n) (n - pagePart off n) = .ok rest →
      ∃ d, exporter.areaPages exportable (k + 1) off n = .ok d := by
    intro k off n hn a ha rest hr
    refine ⟨memBytes exporter.mem a (pagePart off n) ++ rest, ?_⟩
    have u : ∀ x m, exporter.ueIn x m = none := fun x m => by simp [State.ueIn, exporter, State.advanceSeq, State.mapSession, busy, served, withCtxs, State.reset, Background.init]
    rw [State.areaPages, if_neg hn]
    simp only [ha, u, hr]
    rfl
  have k1 : (1 + 1) * pageSize / pageSize + 2 = 2 + 1 + 1 := by decide +kernel
  have p0 : pagePart 0 ((1 + 1) * pageSize) = pageSize := by decide +kernel
  have p1 : pagePart (0 + pageSize) ((1 + 1) * pageSize - pageSize) = pageSize := by decide +kernel
  have z : (1 + 1) * pageSize - pageSize - pageSize = 0 := by decide +kernel
  have e : exporter.areaPages exportable 2 (0 + pageSize + pageSize) 0 = .ok [] := by
    rw [State.areaPages, if_pos rfl]
  obtain ⟨d, hd⟩ := h1 2 (0 + pageSize) ((1 + 1) * pageSize - pageSize) (by decide +kernel) (pageAddr 20001) (by decide +kernel) []
    (by rw [p1, z]; exact e)
  obtain ⟨d', hd'⟩ := h1 (2 + 1) 0 ((1 + 1) * pageSize) (by decide +kernel) (pageAddr 20000) (by decide +kernel) d
    (by rw [p0]; exact hd)
  exact ⟨d', by rw [State.areaBytes, k1]; exact hd'⟩

/-! ## Worked examples of the spec: the expected values are the spec's own -/

/-- A value of a wide format. -/
def val (f : FloatFmt) (c : Nat) : Machine.Num := f.decode c

/-- A block of 32 codes whose first ones are given. -/
def codes32 (l : List Nat) (rest : Nat) : List Nat := l ++ List.replicate (32 - l.length) rest

/-- 02, Example 1: expansion of the narrow formats to E4M3. -/
theorem test_expansion_same_values :
    cmpNum (val e3m2 0x2E) (val e4m3 0xBC) = .eq ∧ cmpNum (val e3m2 0x1F) (val e4m3 0x5E) = .eq ∧
      cmpNum (val e2m1 0xF) (val e4m3 0xCC) = .eq := by decide +kernel

/-- 02, Example 2: FP32 to E4M3 under scale entry 0x78, by RNE, RTZ and SR with two random words. -/
theorem test_narrow_rounding :
    (convNarrow .fp32 .e4m3 .rne false 0x78 0 (val fp32 0x3E99999A)).code = 0x62 ∧
      (convNarrow .fp32 .e4m3 .rtz false 0x78 0 (val fp32 0x3E99999A)).code = 0x61 ∧
      (convNarrow .fp32 .e4m3 .sr false 0x78 0x3C5A1E07 (val fp32 0x3E99999A)).code = 0x62 ∧
      (convNarrow .fp32 .e4m3 .sr false 0x78 0x00040000 (val fp32 0x3E99999A)).code = 0x61 := by decide +kernel

/-- 02, Example 3: an FP64 source reaches BF16 through round to odd. -/
theorem test_round_to_odd :
    convWide .fp64 .bf16 .rne 0 (val fp64 0x3FF0100000001000) = 0x3F81 ∧
      (fp32.ofNum .rto (val fp64 0x3FF0100000001000)) = 0x3F808001 := by decide +kernel

/-- The element at `x` written to E4M3 with scale 1, with its two counts. -/
def toE4m3 (rnd : Rnd) (nanm : Bool) (x : Machine.Num) : Nat × Bool × Bool :=
  let o := convNarrow .fp32 .e4m3 rnd nanm 0x7F 0 x
  (o.code, o.sat, o.nonfin)

/-- 02, Example 4: overflow in saturating mode and in NaN mode. -/
theorem test_narrow_overflow :
    toE4m3 .rne false (.fin false 460 0) = (0x7E, false, false) ∧
      toE4m3 .rne true (.fin false 464 0) = (0x7E, false, false) ∧
      toE4m3 .rne false (.fin false 470 0) = (0x7E, true, false) ∧
      toE4m3 .rne true (.fin false 470 0) = (0x7F, false, true) ∧
      toE4m3 .rtz true (.fin false 470 0) = (0x7E, false, false) ∧
      toE4m3 .rtz false (.fin false 500 0) = (0x7E, true, false) ∧
      toE4m3 .rtz true (.fin false 500 0) = (0x7F, false, true) ∧
      toE4m3 .rne false (.inf true) = (0xFE, true, false) ∧
      toE4m3 .rne true (.inf true) = (0x7F, false, true) := by decide +kernel

/-- 02, Example 5: FP32 to INT8 with scale 2^−7 and zero point 128. -/
theorem test_integer_conversion :
    (convInt .fp32 .int8 .rne 0x3C00 128 0 (val fp32 0xBF3AE148)).code = 35 ∧
      (convInt .fp32 .int8 .sr 0x3C00 128 0x8F5C0000 (val fp32 0xBF3AE148)).code = 34 ∧
      (convInt .fp32 .int8 .sr 0x3C00 128 0x8F5BFFFF (val fp32 0xBF3AE148)).code = 35 := by decide +kernel

/-- 03, Example 1: two E4M3 blocks and their chain. -/
theorem test_reference_order_chain :
    (blockResult .e4m3 .e4m3 (.e8m0 0x7F) (.e8m0 0x7C) (codes32 [0x3C, 0x7E, 0x01] 0) (codes32 [0x3A, 0x01, 0x01] 0)).code
        = 0x3EB00010 ∧
      (blockResult .e4m3 .e4m3 (.e8m0 0x7F) (.e8m0 0x7F) (codes32 [0x7E] 0) (codes32 [0x7E] 0)).code = 0x48440000 ∧
      (chainOf none [0x3EB00010, 0x48440000] none).c = 0x48440016 := by decide +kernel

/-- 03, Example 2: the window of a BF16 block and its sticky bit. -/
theorem test_reference_order_window :
    (blockResult .bf16 .bf16 .unit .unit (codes32 [0x3F80, 0x3380, 0x2180] 0) (codes32 [0x3F80, 0x3F80, 0x2180] 0)).code
        = 0x3F800001 ∧
      (blockResult .bf16 .bf16 .unit .unit (codes32 [0x3F80, 0x3380] 0) (codes32 [0x3F80, 0x3F80] 0)).code = 0x3F800000 := by
  decide +kernel

/-- 03, Example 3: an INT8 block. -/
theorem test_reference_order_integer :
    (blockResult .int8 .int8 (.asym 0x3C00 128) (.asym 0x3B80 120) (codes32 [228, 8, 135] 128)
      (codes32 [117, 122, 127] 200)).code = 0xBC758000 := by decide +kernel

/-- 03, Example 4: a NaN and an overflow fall into one dot product. -/
theorem test_reference_order_nan_and_overflow :
    blockResult .e4m3 .e4m3 (.e8m0 0x7F) (.e8m0 0x7F) (codes32 [0x38, 0x38, 0x38, 0x38, 0x38, 0x7F] 0) (codes32 [] 0x38)
        = { code := 0x7FC00000, nonfinite := true, overflow := false } ∧
      blockResult .e4m3 .e4m3 (.e8m0 0xC0) (.e8m0 0xC0) (codes32 [0x3C] 0) (codes32 [0x3A] 0)
        = { code := 0x7F800000, nonfinite := false, overflow := true } ∧
      chainOf none [0x7FC00000, 0x7F800000, 0x40000000] none = { c := 0x7FC00000, overflows := 0 } := by decide +kernel

/-- The D34 feed-forward weight image of 04, Example 1, with its rotation code and a base. -/
def d34image (rot base : Nat) : Tensor :=
  { emptyTensor 0 0x7 with
    d0 := 6656, d1 := 26624
    scale := { rotId := 0, rot, track := false, intErr := 0, fmt := 0x7, axis := 0, reserved := 0, base } }

/-- Row 1,000 and column 4,170. -/
def spot : Coord := { c0 := 4170, c1 := 1000, c2 := 0, c3 := 0 }

/-- 04, Example 1: the scale line, the entry and the header words without and with a rotation of order 128. -/
theorem test_scale_line :
    (d34image 0 0).elem = .e2m1 ∧ blockIndex (d34image 0 0) spot = 208130 ∧
      lineOffset (d34image 0 0) spot = 0x3E880 ∧ entryIndex (d34image 0 0) spot = 10 ∧
      lineHeader (d34image 0 0) spot = 0x032CF827 ∧ lineHeader (d34image 2 0) spot = 0x032CF8A7 := by decide +kernel

/-- 06, Example 2: the storage index of the same element. -/
theorem test_storage_index : storageIndex (d34image 0 0) spot = 6502666 := by decide +kernel

/-- 04, Example 3: streaming scales and the codes written for the largest element. -/
theorem test_streaming_scales :
    streamScale .e5m2 [val fp32 0x3E99999A, val fp32 0x3C23D70A] = .e8m0 110 ∧
      streamScale .e4m3 [val fp32 0x3E99999A, val fp32 0x3C23D70A] = .e8m0 117 ∧
      streamScale .e2m1 [val fp32 0x3E99999A, val fp32 0x3C23D70A] = .e8m0 123 ∧
      (convNarrow .fp32 .e5m2 .rne false 110 0 (val fp32 0x3E99999A)).code = 0x79 ∧
      (convNarrow .fp32 .e4m3 .rne false 117 0 (val fp32 0x3E99999A)).code = 0x7A ∧
      (convNarrow .fp32 .e2m1 .rne false 123 0 (val fp32 0x3E99999A)).code = 0x6 ∧
      (convNarrow .fp32 .e2m1 .rne false 123 0 (val fp32 0x3C23D70A)).code = 0 := by decide +kernel

/-- 04, Example 4: the integer scale and zero point of −0.73 to 0.51, and what both ends are then written as. -/
theorem test_derive_asym :
    deriveAsym (val fp32 0xBF3AE148) (val fp32 0x3F028F5C) 255 = (0x3BA0, 150) ∧
      (convInt .fp32 .int8 .rne 0x3BA0 150 0 (val fp32 0xBF3AE148)).code = 0 ∧
      (convInt .fp32 .int8 .rne 0x3BA0 150 0 (val fp32 0x3F028F5C)).code = 254 := by decide +kernel

/-- A floating block record of window 16 with scale `e`, flags `fl` and ring slots given by position. -/
def ringRec (e fl : Nat) (slots : List (Nat × Nat)) : List Byte :=
  leBytes 1 e ++ leBytes 1 fl ++ (List.range 16).flatMap (fun i => leBytes 1 (getKey 0xFF slots i)) ++ leBytes 2 0

/-- 05, Example 1: epochs 201 (a saturation), 204 (the window holds the larger fit) and 205 (a leach). -/
theorem test_scale_history :
    leAt (commitFloat 16 9 (ringRec 110 0xA0 [(8, 110)])).bytes 0 1 = 111 ∧
      (commitFloat 16 9 (ringRec 110 0xA0 [(8, 110)])).saturated = true ∧
      leAt (commitFloat 16 12 (ringRec 113 0x80 [(8, 110), (11, 113), (12, 111)])).bytes 0 1 = 113 ∧
      leAt (commitFloat 16 13 (ringRec 113 0x90 [(8, 110), (11, 113), (12, 111), (13, 81)])).bytes 0 1 = 81 ∧
      (commitFloat 16 13 (ringRec 113 0x90 [(8, 110), (11, 113), (12, 111), (13, 81)])).leached = true ∧
      ringSlots (commitFloat 16 13 (ringRec 113 0x90 [(8, 110), (11, 113), (12, 111), (13, 81)])).bytes 16
        = (List.replicate 16 0xFF).set 13 81 := by decide +kernel

/-- 07, Example 2: the clip factor of S = 6.25, max_norm 1.0 and eps 10^−6. -/
theorem test_clip_factor :
    clipFactor (fp64.sqrt .rne 0x4019000000000000).1
        { maxNorm := 0x3FF0000000000000, eps := 0x3EB0C6F7A0B5ED8D, f := 0, enable := true, nonfinite := false } = 0x3ECCCCC7 ∧
      div32 0x41700000 0x41700000 = 0x3F800000 := by decide +kernel

/-- 08, Example 1: the counter of a draw and the last four words of the block's input. -/
theorem test_draw_counter :
    drawCounter 5000 0 0x00068C (7684170 / 16) = 0x000000001388000000068C0000075404 ∧ 7684170 % 16 = 10 ∧
      (chachaInput (List.replicate 32 0) (drawCounter 5000 0 0x00068C (7684170 / 16))).drop 12
        = [0x00075404, 0x00068C00, 0x13880000, 0x00000000] := by decide +kernel

/-- 09, Example 1: the page of a subsoil address. -/
theorem test_subsoil_page :
    (pageOf? 0x005012345800).map (fun p => (pageStack p, pageDie p, (p - 16384) % 24576)) = some (5, 1, 8337) := by
  decide +kernel

/-- The state after reset with one grain retired. -/
def without (g : Nat) : State :=
  { State.reset with caps := { State.reset.caps with grains := State.reset.caps.grains &&& ~~~(BitVec.ofNat 256 (2 ^ g)) } }

/-- 00, Example 1: the capability words before and after grain 137 is retired. -/
theorem test_retired_grain_words :
    State.reset.capGrains = 0x04400100 ∧ State.reset.capTopsoil = 0x00808000 ∧
      (without 137).capGrains = 0x044002FF ∧ (without 137).capTopsoil = 0x00807F80 := by decide +kernel

/-- 10, Example 2: 144 panels among die 1's grains with grain 70 retired. -/
theorem test_division_among_grains :
    (splitRange ((without 70).children 0x340) 0 144 63 0).map (fun p => p.2.2 - p.2.1) = [34, 36, 37, 37] ∧
      (splitRange ((without 70).children 0x240) 0 34 15 0).map (fun p => p.2.2 - p.2.1) = [9, 6, 9, 10] ∧
      ((without 70).divide 0x340 144).filter (fun p => p.1 / 4 == 17) = [(68, 9, 11), (69, 11, 13), (71, 13, 15)] := by
  decide +kernel

/-- 10, Example 2: I1's wait value at step n_first + 10. -/
theorem test_wait_value :
    waitValue [0x00020010, 0x00248041, 0x00000003, 0x00068042, 0x00310012, 0xFFFF0013, 0xFFFFFFFF, 0x00028050] 3 15 5 = 43 := by
  decide +kernel

/-- 10, Example 1: a token drawn by top-k and top-p, and the greedy token. -/
theorem test_token_choice :
    (pickToken [0x3E800000, 0x3F000000, 0x3F800000] 3 0x3F4CCCCD 0x3FE6666666666666).1 = 1 ∧
      greedyToken [0x3E800000, 0x3F000000, 0x3F800000] = 2 := by decide +kernel

/-- 11, Example 1: sixteen ranks, four of which contribute, with and without rank 5. -/
def ranks (five : Option (List Nat)) : List (Option (List Nat)) :=
  List.replicate 4 (some [0]) ++ [some [0x33800000], five, some [0x33800000], some [0xBF800000]] ++ List.replicate 8 (some [0])

theorem test_reduction_tree :
    treeCombine add32 16 (ranks (some [0x3F800000])) = [0x33800000] ∧ treeCombine add32 16 (ranks none) = [0xBF7FFFFE] := by
  decide +kernel

/-- 16: the unit states of Example 1's idle times: Retain for 1.5 ms. -/
theorem test_idle_depth : deepest 15000 = 2 ∧ deepest 20000 = 3 := by decide +kernel

/-- 13, Example 2: the snapshot interval for C = 18 s. -/
theorem test_snapshot_interval :
    let c := { fresh with rst := { fresh.rst with costs := [18000], faultTimes := [2592000000] } }
    let s := { State.reset with now := 0, sed := { State.reset.sed with opMs := 2592000000, onAt := 0 } }
    s.ckptInterval c = 9659 ∧ s.ckptInterval { c with rst := { c.rst with mtbfMin := 120 } } = 509 ∧
      floor64 c.ckptCost = 18 := by decide +kernel


end Sys2Proof.Tests
end

section
/-! PROOFS. The grain's status register: the masked write of its fields and the sticky raising of its flags (R64, R65,
R278). -/

namespace Sys2Proof.Machine

/-! ## Bits of a field -/

theorem bitsOf_lt (n hi lo : Nat) : bitsOf n hi lo < 2 ^ (hi + 1 - lo) := Nat.mod_lt _ (by positivity)

theorem testBit_bitsOf (n hi lo j : Nat) :
    (bitsOf n hi lo).testBit j = (decide (j < hi + 1 - lo) && n.testBit (lo + j)) := by
  rw [bitsOf, Nat.testBit_mod_two_pow, Nat.testBit_shiftRight]

/-- The ones of `w` bits less those of `m` are the bits where `m` has a 0. -/
theorem testBit_ones_sub {w m j : Nat} (hm : m < 2 ^ w) (hj : j < w) : (2 ^ w - 1 - m).testBit j = !m.testBit j := by
  rw [Nat.sub_sub, Nat.add_comm, Nat.testBit_two_pow_sub_succ hm, decide_eq_true hj, Bool.true_and]

/-- A masked write takes the value's bit where the mask has a 1 and keeps the old one elsewhere (R278). -/
theorem testBit_rwField (old value mask : Nat) {hi lo j : Nat} (hj : j < hi + 1 - lo) :
    (rwField old value mask hi lo).testBit j = if mask.testBit (lo + j) then value.testBit (lo + j) else old.testBit j := by
  simp only [rwField, Nat.testBit_or, Nat.testBit_and, testBit_ones_sub (bitsOf_lt ..) hj, testBit_bitsOf, decide_eq_true hj,
    Bool.true_and]
  cases mask.testBit (lo + j) <;> simp

theorem rwField_lt {old hi lo : Nat} (value mask : Nat) (h : old < 2 ^ (hi + 1 - lo)) :
    rwField old value mask hi lo < 2 ^ (hi + 1 - lo) :=
  Nat.or_lt_two_pow (Nat.lt_of_le_of_lt Nat.and_le_left h)
    (Nat.lt_of_le_of_lt Nat.and_le_left (bitsOf_lt ..))

/-! ## GRN_FPCSR -/

/-- A flag is cleared by a 1 of the masked value and stays as it is otherwise (R65). -/
theorem testBit_clearFlags (flags value mask : Nat) {j : Nat} (hj : j < 5) :
    (flags &&& (31 - bitsOf (value &&& mask) 4 0)).testBit j =
      (flags.testBit j && !(value.testBit j && mask.testBit j)) := by
  rw [Nat.testBit_and, show 31 = 2 ^ (4 + 1 - 0) - 1 from rfl, testBit_ones_sub (bitsOf_lt ..) hj, testBit_bitsOf,
    decide_eq_true (show j < 4 + 1 - 0 from hj), Bool.true_and, Nat.zero_add, Nat.testBit_and]

theorem writeGrain_fpcsr (r : GrainRegs) (value mask : Nat) :
    writeGrain r 0x040 value mask =
      { r with rdir := rwField r.rdir value mask 10 8, flags := r.flags &&& (31 - bitsOf (value &&& mask) 4 0) } := rfl

/-- What raising flags leaves in the context: its grain's flags with the raised ones added (R64). -/
theorem State.ctx?_raiseFlags {s : State} {id : Nat} {c : Ctx} (h : s.ctx? id = some c) (g fl : Nat) :
    (s.raiseFlags id g fl).ctx? id =
      some (if fl = 0 then c else c.setGrain g { c.grain g with flags := (c.grain g).flags ||| fl }) := by
  unfold State.raiseFlags
  split
  · exact h
  · exact State.ctx?_mapCtx_self h fun _ => rfl

/-- Settles O9: bit by bit for the write, and for the raising by the one grain that `setGrain` replaces. -/
theorem grainStatusIsMaskedAndSticky : Obligations.GrainStatusIsMaskedAndSticky := by
  unfold Obligations.GrainStatusIsMaskedAndSticky
  refine ⟨fun r v m hr hf => ?_, fun s id g fl c h => ⟨_, State.ctx?_raiseFlags h g fl, ?_⟩⟩
  · rw [writeGrain_fpcsr]
    exact ⟨fun j hj => testBit_rwField _ v m hj, fun j hj => testBit_clearFlags _ v m hj, rwField_lt v m hr,
      Nat.lt_of_le_of_lt Nat.and_le_left hf, rfl, rfl, rfl, rfl⟩
  · split
    · next h0 => exact ⟨by rw [h0, Nat.or_zero], rfl, rfl, fun _ _ => rfl, rfl, rfl⟩
    · refine ⟨?_, ?_, ?_, fun k hk => ?_, rfl, rfl⟩ <;> simp only [Ctx.grain_setGrain, if_true]
      exact if_neg hk

end Sys2Proof.Machine
end

section
/-! PROOFS. What the unit's own writes to flash leave as it was: the records it signs for itself (R8, R381, R400, R406),
the boot control record, and the repairs that record a retirement. -/

namespace Sys2Proof.Machine

/-! ## Which record applies -/

theorem State.holdsUnder_congr {s t : State} (h : t.boot.ident = s.boot.ident) : t.holdsUnder = s.holdsUnder := by
  funext r key
  simp only [State.holdsUnder, State.bindingOk, h]

theorem filter_kind_and (l : List FlashRec) (kind : Nat) (p : FlashRec → Bool) :
    (l.filter fun r => r.kind == kind && p r) = (l.filter fun r => r.kind == kind).filter p := by
  simp only [List.filter_filter, Bool.and_comm]

theorem State.ownerKey_congr {s t : State} (hi : t.boot.ident = s.boot.ident)
    (h1 : (t.flash.records.filter fun r => r.kind == 1) = s.flash.records.filter fun r => r.kind == 1) :
    t.ownerKey = s.ownerKey := by
  simp only [State.ownerKey, filter_kind_and, h1, State.holdsUnder_congr hi]

theorem State.recordOk_congr {s t : State} (hi : t.boot.ident = s.boot.ident)
    (h1 : (t.flash.records.filter fun r => r.kind == 1) = s.flash.records.filter fun r => r.kind == 1) :
    t.recordOk = s.recordOk := by
  funext r
  simp only [State.recordOk, State.holdsUnder_congr hi, State.ownerKey_congr hi h1, hi]

/-- The record of a kind that applies depends on the identity, the records of that kind and the owner assignments. -/
theorem State.applying_congr {s t : State} {kind : Nat} (hi : t.boot.ident = s.boot.ident)
    (h1 : (t.flash.records.filter fun r => r.kind == 1) = s.flash.records.filter fun r => r.kind == 1)
    (hk : (t.flash.records.filter fun r => r.kind == kind) = s.flash.records.filter fun r => r.kind == kind) :
    t.applying kind = s.applying kind := by
  simp only [State.applying, filter_kind_and, hk, State.recordOk_congr hi h1]

/-! ## What every own write keeps -/

/-- What no write of the unit to its own records touches: boot state, banks, settings, both RPMC counters, and the
records of the kinds below 0x10, which others sign. -/
structure KeepsSigned (s t : State) : Prop where
  boot : t.boot = s.boot
  bank : t.flash.bank = s.flash.bank
  settings : t.flash.settings = s.flash.settings
  rollback : t.flash.rollback = s.flash.rollback
  fleetSeq : t.flash.fleetSeq = s.flash.fleetSeq
  kinds : ∀ k < 0x10, (t.flash.records.filter fun r => r.kind == k) = s.flash.records.filter fun r => r.kind == k

namespace KeepsSigned

theorem refl (s : State) : KeepsSigned s s := ⟨rfl, rfl, rfl, rfl, rfl, fun _ _ => rfl⟩

theorem trans {s t u : State} (h : KeepsSigned s t) (k : KeepsSigned t u) : KeepsSigned s u :=
  ⟨k.boot.trans h.boot, k.bank.trans h.bank, k.settings.trans h.settings, k.rollback.trans h.rollback,
   k.fleetSeq.trans h.fleetSeq, fun j hj => (k.kinds j hj).trans (h.kinds j hj)⟩

theorem of_eq {s t : State} (hb : t.boot = s.boot) (hf : t.flash = s.flash) : KeepsSigned s t :=
  ⟨hb, by rw [hf], by rw [hf], by rw [hf], by rw [hf], fun _ _ => by rw [hf]⟩

theorem foldl {α : Type} {f : State → α → State} (h : ∀ s a, KeepsSigned s (f s a)) :
    ∀ (l : List α) (s : State), KeepsSigned s (l.foldl f s)
  | [], s => .refl s
  | a :: l, s => (h s a).trans (foldl h l (f s a))

theorem applying {s t : State} (h : KeepsSigned s t) {kind : Nat} (hk : kind < 0x10) : t.applying kind = s.applying kind :=
  State.applying_congr (by rw [h.boot]) (h.kinds 1 (by decide)) (h.kinds kind hk)

theorem fleetMode {s t : State} (h : KeepsSigned s t) : t.fleetMode = s.fleetMode := by
  simp only [State.fleetMode, h.applying (show 5 < 0x10 by decide), h.fleetSeq]

theorem bankDigest {s t : State} (h : KeepsSigned s t) (b : Nat) : t.bankDigest b = s.bankDigest b := by
  simp only [State.bankDigest, h.bank]

end KeepsSigned

/-- Beside `KeepsSigned`: memory, the power-cycle count, the boot control and the grains' retirements, which a record
written to flash repeats and does not change. -/
structure KeepsTaken (s t : State) : Prop extends KeepsSigned s t where
  mem : t.mem = s.mem
  pcc : t.flash.pcc = s.flash.pcc
  control : t.flash.control = s.flash.control
  retiredGrains : t.flash.retiredGrains = s.flash.retiredGrains

namespace KeepsTaken

theorem refl (s : State) : KeepsTaken s s := ⟨.refl s, rfl, rfl, rfl, rfl⟩

theorem trans {s t u : State} (h : KeepsTaken s t) (k : KeepsTaken t u) : KeepsTaken s u :=
  ⟨h.toKeepsSigned.trans k.toKeepsSigned, k.mem.trans h.mem, k.pcc.trans h.pcc, k.control.trans h.control,
   k.retiredGrains.trans h.retiredGrains⟩

theorem settingsOnly (s : State) (b : Bool) : KeepsTaken s { s with flash := { s.flash with settingsOnly := b } } :=
  ⟨⟨rfl, rfl, rfl, rfl, rfl, fun _ _ => rfl⟩, rfl, rfl, rfl, rfl⟩

theorem ite {s t u : State} {p : Prop} [Decidable p] (h : KeepsTaken s t) (k : KeepsTaken s u) :
    KeepsTaken s (if p then t else u) := by
  split
  · exact h
  · exact k

end KeepsTaken

/-! ## The records that the unit writes -/

/-- The records of one kind signed so far, and the state that has drawn their nonces. -/
def SignedOf (s : State) (kind : Nat) (q : List FlashRec × State) : Prop :=
  (∃ n, q.2 = { s with free := n }) ∧ ∀ r ∈ q.1, r.kind = kind

/-- A unit-key record is not written, or new records of its kind take the place of the older ones on both copies. -/
theorem State.writeUnitRec_cases (s : State) (kind : Nat) (body : List Byte) :
    s.writeUnitRec kind body = s ∨ ∃ recs n, (∀ r ∈ recs, r.kind = kind) ∧
      s.writeUnitRec kind body = { s with free := n, flash := { s.flash with
        records0 := (s.flash.records0.filter fun q => q.kind != kind) ++ recs
        records1 := (s.flash.records1.filter fun q => q.kind != kind) ++ recs } } := by
  unfold State.writeUnitRec
  split
  · dsimp only
    generalize hq : s.recFormats.foldl _ ([], s) = q
    have signed : SignedOf s kind q := by
      rw [← hq]
      refine List.foldlRecOn (motive := SignedOf s kind) _ _ ⟨⟨s.free, rfl⟩, by simp⟩ ?_
      rintro ⟨recs, u⟩ ⟨⟨n, hn⟩, hk⟩ fmt -
      refine ⟨⟨n + 1, ?_⟩, fun r hr => ?_⟩
      · cases hn
        rfl
      · obtain h | h := List.mem_append.mp hr
        · exact hk r h
        · exact (List.mem_singleton.mp h) ▸ rfl
    obtain ⟨recs, u⟩ := q
    obtain ⟨⟨n, rfl⟩, hk⟩ := signed
    exact .inr ⟨recs, n, hk, rfl⟩
  · exact .inl rfl

/-- Records of one kind that replace those of that kind leave the records of every other kind. -/
theorem filter_kind_replaced {l recs : List FlashRec} {kind k : Nat} (hr : ∀ r ∈ recs, r.kind = kind) (hk : k ≠ kind) :
    (((l.filter fun q => q.kind != kind) ++ recs).filter fun r => r.kind == k) = l.filter fun r => r.kind == k := by
  have none_new : (recs.filter fun r => r.kind == k) = [] :=
    List.filter_eq_nil_iff.mpr fun r h => by simp [hr r h, Ne.symm hk]
  rw [List.filter_append, none_new, List.append_nil, List.filter_filter]
  refine List.filter_congr fun r _ => ?_
  by_cases h : r.kind = k <;> simp [h, hk]

theorem KeepsTaken.writeUnitRec (s : State) {kind : Nat} (hk : 0x10 ≤ kind) (body : List Byte) :
    KeepsTaken s (s.writeUnitRec kind body) := by
  obtain h | ⟨recs, n, hr, h⟩ := s.writeUnitRec_cases kind body <;> rw [h]
  · exact .refl s
  · refine ⟨⟨rfl, rfl, rfl, rfl, rfl, fun k hlt => ?_⟩, rfl, rfl, rfl, rfl⟩
    have hne : k ≠ kind := by omega
    simp only [Flash.records, List.filter_append (l₁ := _ ++ recs), filter_kind_replaced hr hne]
    rw [List.filter_append]

theorem KeepsTaken.saveRetired (s : State) : KeepsTaken s s.saveRetired :=
  .ite (.writeUnitRec s (by decide) _) (.settingsOnly s true)

theorem KeepsTaken.savePcc (s : State) : KeepsTaken s s.savePcc :=
  .ite (.writeUnitRec s (by decide) _) (.settingsOnly s true)

theorem KeepsSigned.writeCtl (s : State) (c : BootCtl) : KeepsSigned s (s.writeCtl c) := by
  unfold State.writeCtl
  split
  · have h := (KeepsTaken.writeUnitRec s (kind := 0x10) (by decide) c.body).toKeepsSigned
    exact ⟨h.boot, h.bank, h.settings, h.rollback, h.fleetSeq, h.kinds⟩
  · exact .refl s

/-! ## Repairs -/

theorem KeepsSigned.retirePage (s : State) (p : Nat) : KeepsSigned s (s.retirePage p) := by
  have h := (KeepsTaken.saveRetired { s with
    bg := { s.bg with retired := insertNew s.bg.retired p }
    flash := { s.flash with retiredPages := insertNew s.flash.retiredPages p } }).toKeepsSigned
  exact ⟨h.boot, h.bank, h.settings, h.rollback, h.fleetSeq, h.kinds⟩

theorem KeepsSigned.spareRow (s : State) (p row : Nat) : KeepsSigned s (s.spareRow p row) := by
  unfold State.spareRow
  dsimp only
  split
  · exact .of_eq rfl rfl
  · refine KeepsSigned.trans ?_ (.retirePage _ p)
    exact .of_eq rfl rfl

theorem KeepsSigned.repairPage (s : State) (p : Nat) : KeepsSigned s (s.repairPage p) := by
  unfold State.repairPage
  split
  · exact .refl s
  · exact .foldl (fun s r => .spareRow s p r) _ s

/-- A die whose memory is zeroed may retire pages first, and flash keeps the rest. -/
theorem KeepsSigned.zeroDie (s : State) (d : Nat) : KeepsSigned s (s.zeroDie d) :=
  .trans (.foldl (fun s p => .repairPage s p) _ s) (.of_eq rfl rfl)

/-! ## What the records say -/

theorem KeepsSigned.takeRecords (s : State) : KeepsSigned s s.takeRecords := by
  unfold State.takeRecords
  dsimp only
  split
  · cases s.applying 0x11 <;> cases s.applying 0x12 <;> exact ⟨rfl, rfl, rfl, rfl, rfl, fun _ _ => rfl⟩
  · exact ⟨rfl, rfl, rfl, rfl, rfl, fun _ _ => rfl⟩

theorem State.takeRecords_mem (s : State) : s.takeRecords.mem = s.mem := by
  unfold State.takeRecords
  dsimp only
  split <;> rfl

theorem State.takeRecords_settingsOnly (s : State) : s.takeRecords.flash.settingsOnly = s.flash.settingsOnly := by
  unfold State.takeRecords
  dsimp only
  split
  · cases s.applying 0x11 <;> cases s.applying 0x12 <;> rfl
  · rfl

/-- What the records say depends on flash and on whether the package has its identity. -/
theorem State.takeRecords_flash_congr {s t : State} (hb : t.boot = s.boot) (hf : t.flash = s.flash) :
    t.takeRecords.flash = s.takeRecords.flash := by
  have ha (kind : Nat) : t.applying kind = s.applying kind :=
    State.applying_congr (by rw [hb]) (by rw [hf]) (by rw [hf])
  simp only [State.takeRecords, hb, hf, ha]
  split <;> rfl

end Sys2Proof.Machine
end

section
/-! PROOFS. The phases of a boot, one lemma for each (R403 to R408), and that they follow each other. -/

namespace Sys2Proof.Machine

/-! ## ROM start, identity, records -/

theorem exec_romStartDone {s : State} (hp : s.boot.phase = .romStart) (hh : s.boot.thermHold = false) :
    exec .romStartDone s = .next { s with boot := { s.boot with phase := .identity } } :=
  if_pos ⟨hp, by simp [hh]⟩

theorem exec_identityDone {s : State} (hp : s.boot.phase = .identity) (ups : List (List Byte)) :
    ∃ t, exec (.identityDone ups) s = .next t ∧ t.flash = s.flash ∧ t.mem = s.mem ∧
      t.boot = { s.boot with
        phase := .records
        ident := (s.applying 0x13).any fun r => (ups.take 4).any (reproduces r.body)
        prot := if s.boot.lockOpen then s.boot.prot ||| 1 else s.boot.prot } := by
  refine ⟨_, if_pos hp, ?_⟩
  split <;> exact ⟨rfl, rfl, rfl⟩

/-- A state with an event for each of its invalid records (R396). -/
def State.invalidLogged (s : State) : State :=
  (s.flash.records.filter fun r => !(s.recordOk r)).foldl (fun s r => s.raise 0x600B r.kind pkgPath noCtx) s

theorem exists_raiseEach_eq (l : List FlashRec) (s : State) :
    ∃ sed, l.foldl (fun s r => s.raise 0x600B r.kind pkgPath noCtx) s = { s with sed } := by
  induction l generalizing s with
  | nil => exact ⟨s.sed, rfl⟩
  | cons r l ih => exact ih (s.raise 0x600B r.kind pkgPath noCtx)

theorem State.invalidLogged_keeps (s : State) :
    s.invalidLogged.boot = s.boot ∧ s.invalidLogged.flash = s.flash ∧ s.invalidLogged.mem = s.mem := by
  obtain ⟨sed, h⟩ : ∃ sed, s.invalidLogged = { s with sed } := exists_raiseEach_eq _ s
  rw [h]
  exact ⟨rfl, rfl, rfl⟩

/-- A state with the boot after a power cycle counted in it (R381). -/
def State.bootCounted (s : State) : State :=
  if s.boot.cold then { s with flash := { s.flash with pcc := s.flash.pcc + 1 } } else s

/-- A state with its unit-key records written where settings alone held them, or where the count rose (R381, R400). -/
def State.takenSaved (s : State) : State :=
  if s.boot.ident && s.flash.settingsOnly then
    ({ s with flash := { s.flash with settingsOnly := false } } : State).saveRetired.savePcc
  else if s.boot.cold then s.savePcc else s

theorem exec_recordsDone {s : State} (hp : s.boot.phase = .records) :
    ∃ u, KeepsSigned s u ∧ u.flash = s.takeRecords.flash ∧ u.mem = s.mem ∧
      exec .recordsDone s = .next { u.bootCounted.takenSaved with boot := { u.bootCounted.takenSaved.boot with
        phase := .bankLoad, fleet := u.bootCounted.takenSaved.fleetMode, cold := false } } := by
  obtain ⟨hb, hf, hm⟩ := s.invalidLogged_keeps
  exact ⟨s.invalidLogged.takeRecords, (KeepsSigned.of_eq hb hf).trans (.takeRecords _), State.takeRecords_flash_congr hb hf,
    (State.takeRecords_mem _).trans hm, if_pos hp⟩

theorem KeepsSigned.bootCounted (s : State) : KeepsSigned s s.bootCounted := by
  unfold State.bootCounted
  split
  · exact ⟨rfl, rfl, rfl, rfl, rfl, fun _ _ => rfl⟩
  · exact .refl s

theorem State.bootCounted_pcc (s : State) : s.bootCounted.flash.pcc = s.flash.pcc + if s.boot.cold then 1 else 0 := by
  unfold State.bootCounted
  split <;> rfl

theorem State.bootCounted_others (s : State) :
    s.bootCounted.mem = s.mem ∧ s.bootCounted.flash.control = s.flash.control ∧
      s.bootCounted.flash.retiredGrains = s.flash.retiredGrains := by
  unfold State.bootCounted
  split <;> exact ⟨rfl, rfl, rfl⟩

theorem KeepsTaken.takenSaved (s : State) : KeepsTaken s s.takenSaved :=
  .ite (((KeepsTaken.settingsOnly s false).trans (.saveRetired _)).trans (.savePcc _)) (.ite (.savePcc s) (.refl s))

theorem State.takenSaved_bootCounted_of_warm {s : State} (hc : s.boot.cold = false)
    (hs : (s.boot.ident && s.flash.settingsOnly) = false) : s.bootCounted.takenSaved = s := by
  simp [State.bootCounted, State.takenSaved, hc, hs]

/-! ## The bank choice -/

/-- A state in which bank `b` of `s` is handed over to. -/
structure Boots (s : State) (b : Nat) (t : State) : Prop where
  phase : t.boot.phase = .handover
  bank : t.boot.bank = b
  digest : t.boot.digest = s.bankDigest b

theorem Boots.bootBank {s u : State} {b : Nat} (h : u.flash.bank = s.flash.bank) (upd : UpdPhase) :
    Boots s b (u.bootBank b upd) := ⟨rfl, rfl, congrArg (fun f => (f b).digest) h⟩

@[simp] theorem State.writeCtl_bank (s : State) (c : BootCtl) : (s.writeCtl c).flash.bank = s.flash.bank :=
  (KeepsSigned.writeCtl s c).bank

@[simp] theorem State.writeCtl_rollback (s : State) (c : BootCtl) : (s.writeCtl c).flash.rollback = s.flash.rollback :=
  (KeepsSigned.writeCtl s c).rollback

@[simp] theorem State.fallback_flash (s : State) (detail : Nat) : (s.fallback detail).flash = s.flash := rfl

@[simp] theorem State.raiseRollback_bank (s : State) (v : Nat) : (s.raiseRollback v).flash.bank = s.flash.bank := rfl

@[simp] theorem State.bootBank_flash (s : State) (b : Nat) (upd : UpdPhase) : (s.bootBank b upd).flash = s.flash := rfl

@[simp] theorem Flash.setSettings_bank (f : Flash) (b : Nat) (x : Settings) : (f.setSettings b x).bank = f.bank := by
  unfold Flash.setSettings
  split <;> rfl

@[simp] theorem Flash.setSettings_rollback (f : Flash) (b : Nat) (x : Settings) :
    (f.setSettings b x).rollback = f.rollback := by
  unfold Flash.setSettings
  split <;> rfl

theorem State.bootFirst_boots (s : State) (c : BootCtl) (first : Bool) (b : Nat) :
    Boots s b (s.bootFirst c first b) ∧ (s.bootFirst c first b).flash.rollback = s.flash.rollback := by
  unfold State.bootFirst
  split
  · exact ⟨.bootBank (by simp) _, by simp [State.beginTrial]⟩
  · split
    · exact ⟨.bootBank (by simp) _, by simp⟩
    · exact ⟨.bootBank rfl _, rfl⟩

theorem State.bootSecond_boots (s : State) (c : BootCtl) (first : Bool) (b : Nat) : Boots s b (s.bootSecond c first b) := by
  unfold State.bootSecond
  split
  · exact .bootBank (by simp) _
  · split <;> exact .bootBank (by simp) _

/-- Whether R405 tries the bank that is not active first: it is armed, or in a trial not yet tried. -/
def State.triesOther (s : State) : Bool := s.boot.ident && (s.bootCtl.armed || (s.bootCtl.trial && !s.bootCtl.tried))

/-- The bank that R405 tries first. -/
def State.firstBank (s : State) : Nat := if s.triesOther then 1 - s.bootCtl.active else s.bootCtl.active

theorem State.bankFails_bankFailed (s : State) (a o b : Nat) : (s.bankFailed a o).bankFails b = s.bankFails b := rfl

theorem exec_bankLoadDone_first {s : State} (hp : s.boot.phase = .bankLoad) (ha : s.bankFails s.firstBank = none) :
    exec .bankLoadDone s = .next (s.bootFirst s.bootCtl s.triesOther s.firstBank) := by
  refine (if_neg (not_not.mpr hp)).trans ?_
  dsimp only
  split
  · rfl
  · next h => cases ha.symm.trans h

theorem exec_bankLoadDone_second {s : State} {o : Nat} (hp : s.boot.phase = .bankLoad)
    (ha : s.bankFails s.firstBank = some o) (hb : s.bankFails (1 - s.firstBank) = none) :
    exec .bankLoadDone s =
      .next ((s.bankFailed s.firstBank o).bootSecond s.bootCtl s.triesOther (1 - s.firstBank)) := by
  refine (if_neg (not_not.mpr hp)).trans ?_
  dsimp only
  split
  · next h => cases ha.symm.trans h
  · next h =>
    cases ha.symm.trans h
    split
    · rfl
    · next h' => cases hb.symm.trans h'

theorem exec_bankLoadDone_neither {s : State} {o o' : Nat} (hp : s.boot.phase = .bankLoad)
    (ha : s.bankFails s.firstBank = some o) (hb : s.bankFails (1 - s.firstBank) = some o') :
    exec .bankLoadDone s = .next ((s.bankFailed s.firstBank o).bankFailed (1 - s.firstBank) o').recover := by
  refine (if_neg (not_not.mpr hp)).trans ?_
  dsimp only
  split
  · next h => cases ha.symm.trans h
  · next h =>
    cases ha.symm.trans h
    split
    · next h' => cases hb.symm.trans h'
    · next h' =>
      cases hb.symm.trans h'
      rfl

/-! ## Handover and firmware start -/

theorem exec_handoverDone {s : State} (hp : s.boot.phase = .handover) :
    exec .handoverDone s = .next { s with
      boot := { s.boot with
        phase := .firmware, lockOpen := false, handoverAt := s.now, jtagRecord := (s.applying 6).isSome
        prot := if s.boot.lockOpen then s.protCfg else s.boot.prot }
      resets := { s.resets with chip := none } } := if_pos hp

/-- Port `p` as the firmware starts it: configured by the record of kind 0x0004, and in PROBE unless it is retired (R8,
R300). -/
def Port.started (body : List Byte) (p : Nat) (q : Port) : Port :=
  let configured : Port := { q with cfg := PortCfg.loaded body p }
  if configured.phase = .retired then configured else { configured with phase := .probe, returning := false }

theorem Port.started_phase_cfg (body : List Byte) (p : Nat) (q : Port) :
    ((q.started body p).phase = .probe ∨ (q.started body p).phase = .retired) ∧
      (q.started body p).cfg = PortCfg.loaded body p := by
  unfold Port.started
  dsimp only
  split
  · next hr => exact ⟨.inr hr, rfl⟩
  · exact ⟨.inl rfl, rfl⟩

/-- An element of a list mapped with its positions is the image of one at its position. -/
theorem exists_of_getElem?_map_zipIdx {α β : Type} {l : List α} {f : α × Nat → β} {i : Nat} {b : β}
    (h : (l.zipIdx.map f)[i]? = some b) : ∃ a, b = f (a, i) := by
  rw [List.getElem?_map, List.getElem?_zipIdx, Option.map_map, Option.map_eq_some_iff] at h
  obtain ⟨a, -, rfl⟩ := h
  exact ⟨a, by simp⟩

/-- The state that FIRMWARE_READY works on: every die's memory zeroed (R380). -/
def State.diesZeroed (s : State) : State := (List.range 4).foldl (fun s d => s.zeroDie d) s

theorem KeepsSigned.diesZeroed (s : State) : KeepsSigned s s.diesZeroed := .foldl KeepsSigned.zeroDie _ s

/-- What the firmware finds when it is ready, in terms of the state with its dies zeroed (R403, R459). -/
theorem exec_firmwareReady {s : State} (hp : s.boot.phase = .firmware) :
    ∃ t, exec .firmwareReady s = .next t ∧ t.boot.phase = .running ∧ t.mem = [] ∧
      t.ports = (s.diesZeroed.ports.zipIdx.map fun q =>
        q.1.started (((s.diesZeroed.applying 4).map FlashRec.body).getD []) q.2) ∧
      t.power.limitW = (s.diesZeroed.flash.settings s.diesZeroed.boot.bank).limitW ∧
      t.power.capMhz = (s.diesZeroed.flash.settings s.diesZeroed.boot.bank).capMhz ∧
      t.sed.cfgs = (s.diesZeroed.flash.settings s.diesZeroed.boot.bank).cfgs := by
  have run : exec .firmwareReady s = _ := if_pos hp
  dsimp only at run
  rw [← State.diesZeroed] at run
  generalize s.diesZeroed = z at run ⊢
  exact ⟨_, run, rfl, rfl, rfl, rfl, rfl, rfl⟩

/-- Settles O42: one phase after another, each by its own lemma. -/
theorem bootPhasesFollow : Obligations.BootPhasesFollow := by
  unfold Obligations.BootPhasesFollow
  intro s
  refine ⟨exec_romStartDone, fun ups hp => ?_, fun hp => ?_, fun a hp ha => ?_, fun hp => ?_, fun hp => ?_, rfl⟩
  · obtain ⟨t, run, hf, hm, hb⟩ := exec_identityDone hp ups
    refine ⟨t, run, by rw [hb], by rw [hb], fun hl => ?_, hf, hm⟩
    rw [hb]
    simp [hl]
  · obtain ⟨u, taken, hf, hm, run⟩ := exec_recordsDone hp
    have hb := taken.boot
    have saved := KeepsTaken.takenSaved u.bootCounted
    have counted := KeepsSigned.bootCounted u
    obtain ⟨cm, cc, cg⟩ := u.bootCounted_others
    refine ⟨_, run, rfl, rfl, ?_, ?_, ?_, ?_, fun hc hs => ?_, saved.mem.trans (cm.trans hm)⟩
    · rw [← hf, ← hb, ← State.bootCounted_pcc]
      exact saved.pcc
    · exact ((taken.trans counted).trans saved.toKeepsSigned).fleetMode
    · rw [← hf]
      exact saved.control.trans cc
    · rw [← hf]
      exact saved.retiredGrains.trans cg
    · rw [← hf, State.takenSaved_bootCounted_of_warm (s := u)]
      · rw [hb, hc]
      · rw [hb, hf, State.takeRecords_settingsOnly, hs]
  · change a = s.firstBank at ha
    subst ha
    refine ⟨fun h => ?_, fun h h' => ?_, fun h h' => ?_⟩
    · obtain ⟨boots, hr⟩ := s.bootFirst_boots s.bootCtl s.triesOther s.firstBank
      exact ⟨_, exec_bankLoadDone_first hp h, boots.phase, boots.bank, boots.digest, hr⟩
    · obtain ⟨o, ho⟩ := Option.isSome_iff_exists.mp h
      have boots := (s.bankFailed s.firstBank o).bootSecond_boots s.bootCtl s.triesOther (1 - s.firstBank)
      exact ⟨_, exec_bankLoadDone_second hp ho h', boots.phase, boots.bank, boots.digest⟩
    · obtain ⟨o, ho⟩ := Option.isSome_iff_exists.mp h
      obtain ⟨o', ho'⟩ := Option.isSome_iff_exists.mp h'
      exact ⟨_, exec_bankLoadDone_neither hp ho ho', rfl, rfl, rfl, rfl⟩
  · exact ⟨_, exec_handoverDone hp, rfl, rfl, rfl, rfl, rfl, rfl⟩
  · obtain ⟨t, run, hphase, hmem, hports, hset⟩ := exec_firmwareReady hp
    have kept := KeepsSigned.diesZeroed s
    rw [kept.applying (by decide)] at hports
    rw [kept.settings, kept.boot] at hset
    refine ⟨t, run, hphase, fun a => by rw [hmem, memRead_nil], fun p q hq => ?_, hset⟩
    rw [State.port?, hports] at hq
    obtain ⟨x, rfl⟩ := exists_of_getElem?_map_zipIdx hq
    exact x.started_phase_cfg _ p

end Sys2Proof.Machine
end

section
/-! PROOFS. Partition resets (R376, R379): what the log's writer, a port's end and the retirements leave as they were. -/

namespace Sys2Proof.Machine

/-! ## The log's writer -/

/-- The states differ in the log alone. -/
def SameButLog (s t : State) : Prop := ∃ sed, t = { s with sed }

namespace SameButLog

theorem refl (s : State) : SameButLog s s := ⟨s.sed, rfl⟩

theorem of_sed (s : State) (sed : Sed) : SameButLog s { s with sed } := ⟨sed, rfl⟩

theorem trans {s t u : State} (h : SameButLog s t) (k : SameButLog t u) : SameButLog s u := by
  obtain ⟨a, rfl⟩ := h
  obtain ⟨b, rfl⟩ := k
  exact ⟨b, rfl⟩

theorem writeLost (s : State) : SameButLog s s.writeLost := by
  unfold State.writeLost
  split
  · exact .refl s
  · split
    · exact .of_sed s _
    · exact .refl s

theorem writeRec {s t : State} {ev : Event} {supp : Nat} (h : s.writeRec ev supp = some t) : SameButLog s t := by
  unfold State.writeRec at h
  dsimp only at h
  split at h
  · cases h
    exact (writeLost s).trans (.of_sed _ _)
  · split at h
    · cases h
      exact (writeLost s).trans (.of_sed _ _)
    · cases h

theorem writeRepeat {s t : State} {ev : Event} (h : s.writeRepeat ev = some t) : SameButLog s t := by
  unfold State.writeRepeat at h
  dsimp only at h
  split at h
  · exact writeRec h
  · exact SameButLog.trans (.of_sed s _) (writeRec h)

theorem writeEvent {s t : State} {ev : Event} (h : s.writeEvent ev = some t) : SameButLog s t := by
  unfold State.writeEvent at h
  dsimp only at h
  split at h
  · exact writeRec h
  · split at h
    · split at h
      · cases h
        exact .of_sed s _
      · exact SameButLog.trans (.of_sed s _) (writeRec h)
    · split at h
      · split at h
        · cases h
          exact .of_sed s _
        · exact writeRepeat h
      · exact writeRepeat h

theorem writeFirst (s : State) (ev : Event) : SameButLog s (s.writeFirst ev) := by
  unfold State.writeFirst
  split
  · next h => exact writeRec h
  · exact .of_sed s _

theorem writeWaiting (s : State) : SameButLog s s.writeWaiting := by
  unfold State.writeWaiting
  refine List.foldlRecOn (motive := SameButLog s) _ _ (.of_sed s _) fun t ht ev _ => ht.trans ?_
  split
  · next h => exact writeEvent h
  · exact .of_sed t _

theorem writeNow (s : State) (code detail src ctx : Nat) : SameButLog s (s.writeNow code detail src ctx) :=
  (writeWaiting s).trans (writeFirst _ _)

end SameButLog

/-! ## What the phases keep -/

/-- Memory, the partition resets under way, and every retirement of a grain are kept. -/
structure KeepsParts (s t : State) : Prop where
  mem : t.mem = s.mem
  parts : t.resets.parts = s.resets.parts
  retired : ∀ g, s.grainOk g = false → t.grainOk g = false

namespace KeepsParts

theorem refl (s : State) : KeepsParts s s := ⟨rfl, rfl, fun _ h => h⟩

theorem trans {s t u : State} (h : KeepsParts s t) (k : KeepsParts t u) : KeepsParts s u :=
  ⟨k.mem.trans h.mem, k.parts.trans h.parts, fun g r => k.retired g (h.retired g r)⟩

theorem foldl {α : Type} {f : State → α → State} (h : ∀ s a, KeepsParts s (f s a)) (l : List α) (s : State) :
    KeepsParts s (l.foldl f s) :=
  List.foldlRecOn (motive := KeepsParts s) l f (.refl s) fun t ht a _ => ht.trans (h t a)

theorem of_eq {s t : State} (hm : t.mem = s.mem) (hp : t.resets.parts = s.resets.parts)
    (hc : t.caps.grains = s.caps.grains) : KeepsParts s t :=
  ⟨hm, hp, fun g h => by rw [State.grainOk, hc]; exact h⟩

end KeepsParts

/-- Beside `KeepsParts`: flash and the time. -/
structure KeepsStored (s t : State) : Prop extends KeepsParts s t where
  flash : t.flash = s.flash
  now : t.now = s.now

namespace KeepsStored

theorem refl (s : State) : KeepsStored s s := ⟨.refl s, rfl, rfl⟩

theorem trans {s t u : State} (h : KeepsStored s t) (k : KeepsStored t u) : KeepsStored s u :=
  ⟨h.toKeepsParts.trans k.toKeepsParts, k.flash.trans h.flash, k.now.trans h.now⟩

theorem foldl {α : Type} {f : State → α → State} (h : ∀ s a, KeepsStored s (f s a)) (l : List α) (s : State) :
    KeepsStored s (l.foldl f s) :=
  List.foldlRecOn (motive := KeepsStored s) l f (.refl s) fun t ht a _ => ht.trans (h t a)

theorem of_log {s t : State} (h : SameButLog s t) : KeepsStored s t := by
  obtain ⟨sed, rfl⟩ := h
  exact ⟨.of_eq rfl rfl rfl, rfl, rfl⟩

theorem mapCtx (s : State) (id : Nat) (f : Ctx → Ctx) : KeepsStored s (s.mapCtx id f) := ⟨.of_eq rfl rfl rfl, rfl, rfl⟩

theorem mapPort (s : State) (p : Nat) (f : Port → Port) : KeepsStored s (s.mapPort p f) := ⟨.of_eq rfl rfl rfl, rfl, rfl⟩

theorem raise (s : State) (code detail src ctx : Nat) : KeepsStored s (s.raise code detail src ctx) :=
  ⟨.of_eq rfl rfl rfl, rfl, rfl⟩

theorem notifyOps (s : State) (code detail : Nat) : KeepsStored s (s.notifyOps code detail) :=
  .foldl (f := fun (s : State) (se : Session) => s.notifySession se.id _) (fun _ _ => ⟨.of_eq rfl rfl rfl, rfl, rfl⟩) _ s

theorem copyEnded (s : State) (r : InstrRef) (p : Nat) : KeepsStored s (s.copyEnded r p) := ⟨.of_eq rfl rfl rfl, rfl, rfl⟩

theorem portLeave (s : State) (p : Nat) (dst : PortPhase) : KeepsStored s (s.portLeave p dst) :=
  (mapPort s p _).trans (.foldl (fun s r => copyEnded s r p) _ _)

theorem portDown (s : State) (p : Nat) : KeepsStored s (s.portDown p) := by
  unfold State.portDown
  split
  · exact .refl s
  · dsimp only
    split
    · exact (raise s ..).trans (portLeave ..)
    · exact portLeave ..

theorem dropItems (s : State) (id : Nat) : KeepsStored s (s.dropItems id) := ⟨.of_eq rfl rfl rfl, rfl, rfl⟩

theorem beginCtxReset (s : State) (id cause : Nat) : KeepsStored s (s.beginCtxReset id cause) := by
  unfold State.beginCtxReset
  split
  · exact .refl s
  · split
    · exact .refl s
    · exact ((of_log (.writeNow s ..)).trans (dropItems ..)).trans (mapCtx ..)

end KeepsStored

/-! ## Ports -/

/-- The ports of a die. -/
def diePorts (d : Nat) : List Nat := (List.range 8).map fun i => 8 * d + i

theorem mem_diePorts {d p : Nat} : p ∈ diePorts d ↔ p / 8 = d := by
  simp only [diePorts, List.mem_map, List.mem_range]
  exact ⟨fun ⟨i, hi, e⟩ => by omega, fun h => ⟨p % 8, by omega, by omega⟩⟩

theorem nodup_diePorts (d : Nat) : (diePorts d).Nodup := List.nodup_range.map fun _ _ h => Nat.add_left_cancel h

/-- Steps over distinct ports, each of which changes its own port alone, change each port once. -/
theorem port?_foldl {f : State → Nat → State} {g : Nat → Port → Port}
    (h : ∀ s p q, (f s p).port? q = if q = p then (s.port? q).map (g p) else s.port? q) {l : List Nat} (hl : l.Nodup)
    (s : State) (q : Nat) : (l.foldl f s).port? q = if q ∈ l then (s.port? q).map (g q) else s.port? q := by
  induction l generalizing s with
  | nil => simp
  | cons p l ih =>
    obtain ⟨hp, hl⟩ := List.nodup_cons.mp hl
    rw [List.foldl_cons, ih hl, h]
    by_cases e : q = p
    · subst e
      simp [hp]
    · simp [e]

theorem State.endCopies_ports (s : State) (p : Nat) : (s.endCopies p).ports = s.ports :=
  List.foldlRecOn (motive := fun t : State => t.ports = s.ports) _ _ rfl fun _ ht _ _ => ht

/-- A port that has left service (R302, R303). -/
def Port.left (dst : PortPhase) (q : Port) : Port :=
  { q with
    phase := dst, lanes := 0, crypt := false, starved := [false, false, false, false], recal := none, widthChange := false,
    partner := [], link := q.link.restart }

theorem State.port?_portLeave (s : State) (p q : Nat) (dst : PortPhase) :
    (s.portLeave p dst).port? q = if q = p then (s.port? q).map (Port.left dst) else s.port? q := by
  rw [← State.port?_mapPort, State.portLeave, State.port?, State.endCopies_ports]
  rfl

theorem State.port?_portDown (s : State) (p q : Nat) :
    (s.portDown p).port? q = if q = p then (s.port? q).map (Port.left .probe) else s.port? q := by
  unfold State.portDown
  split
  · next h =>
    split
    · next e => rw [e, h]; rfl
    · rfl
  · dsimp only
    split <;> exact State.port?_portLeave ..

theorem State.notifyOps_ports (s : State) (code detail : Nat) : (s.notifyOps code detail).ports = s.ports :=
  List.foldlRecOn (motive := fun t : State => t.ports = s.ports) _ _ rfl fun _ ht _ _ => ht

theorem State.notifyOps_ctxs (s : State) (code detail : Nat) : (s.notifyOps code detail).ctxs = s.ctxs :=
  List.foldlRecOn (motive := fun t : State => t.ctxs = s.ctxs) _ _ rfl fun _ ht _ _ => ht

/-- A record written for a retirement changes flash alone, and draws what its signature takes. -/
theorem State.saveRetired_eq (s : State) : ∃ free flash, s.saveRetired = { s with free, flash } := by
  unfold State.saveRetired
  split
  · obtain h | ⟨_, _, -, h⟩ := s.writeUnitRec_cases 0x11 s.flash.retiredBody <;> rw [h]
    · exact ⟨_, _, rfl⟩
    · exact ⟨_, _, rfl⟩
  · exact ⟨_, _, rfl⟩

theorem KeepsParts.saveRetired (s : State) : KeepsParts s s.saveRetired := by
  obtain ⟨_, _, h⟩ := s.saveRetired_eq
  rw [h]
  exact .of_eq rfl rfl rfl

theorem KeepsParts.retirePort (s : State) (p : Nat) : KeepsParts s (s.retirePort p) := by
  refine (KeepsStored.portLeave s p .retired).toKeepsParts.trans ?_
  refine KeepsParts.trans ?_ (KeepsStored.notifyOps ..).toKeepsParts
  refine KeepsParts.trans ?_ (KeepsStored.raise ..).toKeepsParts
  refine KeepsParts.trans ?_ (.saveRetired _)
  exact .of_eq rfl rfl rfl

theorem State.port?_retirePort (s : State) (p q : Nat) :
    (s.retirePort p).port? q = if q = p then (s.port? q).map (Port.left .retired) else s.port? q := by
  rw [← State.port?_portLeave, State.retirePort, State.port?, State.notifyOps_ports]
  dsimp only
  obtain ⟨_, _, h⟩ := State.saveRetired_eq { s.portLeave p .retired with
    caps := { (s.portLeave p .retired).caps with
      ports := (s.portLeave p .retired).caps.ports &&& ~~~(BitVec.ofNat 32 (2 ^ p)) }
    flash := { (s.portLeave p .retired).flash with
      retiredPorts := (s.portLeave p .retired).flash.retiredPorts ||| BitVec.ofNat 32 (2 ^ p) } }
  rw [h]
  rfl

end Sys2Proof.Machine
end

section
/-! PROOFS. A partition reset begins (R302, R376, R379): the die's ports fall silent, and every context that uses the die
goes into a reset. -/

namespace Sys2Proof.Machine

/-! ## The ports fall silent -/

/-- A port once its die has fallen silent (R302, R375). -/
def Port.silenced (q : Port) : Port := if q.phase == .retired || q.phase == .off then q else q.left .probe

theorem Port.silenced_phase (q : Port) :
    q.silenced.phase = .probe ∨ q.silenced.phase = .off ∨ q.silenced.phase = .retired := by
  unfold Port.silenced
  split
  · next h =>
    rw [Bool.or_eq_true, beq_iff_eq, beq_iff_eq] at h
    exact .inr h.symm
  · exact .inl rfl

/-- What `State.silenceDie` does to one port. -/
def State.silencePort (s : State) (p : Nat) : State :=
  if (s.port? p).any fun q => q.phase == .retired || q.phase == .off then s
  else (s.portDown p).mapPort p fun q => { q with phase := .probe }

theorem State.silenceDie_eq (s : State) (d : Nat) : s.silenceDie d = (diePorts d).foldl State.silencePort s := rfl

theorem State.port?_silencePort (s : State) (p q : Nat) :
    (s.silencePort p).port? q = if q = p then (s.port? q).map Port.silenced else s.port? q := by
  unfold State.silencePort
  by_cases e : q = p
  · subst e
    cases h : s.port? q with
    | none => simp [State.port?_mapPort, State.port?_portDown, h]
    | some x => by_cases hx : (x.phase == .retired || x.phase == .off) = true <;>
        simp [State.port?_mapPort, State.port?_portDown, h, Port.silenced, hx, Port.left]
  · split <;> simp [State.port?_mapPort, State.port?_portDown, e]

theorem State.port?_silenceDie (s : State) (d p : Nat) :
    (s.silenceDie d).port? p = if p ∈ diePorts d then (s.port? p).map Port.silenced else s.port? p := by
  rw [State.silenceDie_eq, port?_foldl State.port?_silencePort (nodup_diePorts d)]

theorem KeepsStored.silenceDie (s : State) (d : Nat) : KeepsStored s (s.silenceDie d) := by
  rw [State.silenceDie_eq]
  refine .foldl (fun t p => ?_) _ s
  unfold State.silencePort
  split
  · exact .refl t
  · exact (portDown t p).trans (mapPort ..)

/-! ## Which contexts are in a reset -/

/-- Every context has the phase and the reset in progress that it had. -/
def SameStanding (s t : State) : Prop :=
  ∀ id, (t.ctx? id).map (fun c => (c.phase, c.reset)) = (s.ctx? id).map fun c => (c.phase, c.reset)

namespace SameStanding

theorem refl (s : State) : SameStanding s s := fun _ => rfl

theorem trans {s t u : State} (h : SameStanding s t) (k : SameStanding t u) : SameStanding s u :=
  fun id => (k id).trans (h id)

theorem of_ctxs {s t : State} (h : t.ctxs = s.ctxs) : SameStanding s t := fun id => by rw [State.ctx?, h, ← State.ctx?]

theorem mapCtx (s : State) (j : Nat) {f : Ctx → Ctx} (hi : ∀ c, (f c).id = c.id) (hp : ∀ c, (f c).phase = c.phase)
    (hr : ∀ c, (f c).reset = c.reset) : SameStanding s (s.mapCtx j f) := fun id => by
  rw [State.ctx?_mapCtx s j id hi]
  split
  · simp [Option.map_map, Function.comp_def, hp, hr]
  · rfl

theorem foldl {α : Type} {f : State → α → State} (h : ∀ s a, SameStanding s (f s a)) (l : List α) (s : State) :
    SameStanding s (l.foldl f s) :=
  List.foldlRecOn (motive := SameStanding s) l f (.refl s) fun t ht a _ => ht.trans (h t a)

theorem retire (s : State) (r : InstrRef) : SameStanding s (s.retire r) := by
  unfold State.retire State.setPhase State.mapPlaced
  refine SameStanding.trans (mapCtx s r.ctx ?_ ?_ ?_) (mapCtx _ r.ctx ?_ ?_ ?_) <;> exact fun _ => rfl

theorem portLeave (s : State) (p : Nat) (dst : PortPhase) : SameStanding s (s.portLeave p dst) :=
  (of_ctxs rfl).trans (.foldl (fun s r => SameStanding.trans (t := s.raise ..) (.of_ctxs rfl) (retire _ r)) _ _)

theorem portDown (s : State) (p : Nat) : SameStanding s (s.portDown p) := by
  unfold State.portDown
  split
  · exact .refl s
  · dsimp only
    split
    · exact SameStanding.trans (.of_ctxs rfl) (portLeave _ p _)
    · exact portLeave s p _

theorem silenceDie (s : State) (d : Nat) : SameStanding s (s.silenceDie d) := by
  rw [State.silenceDie_eq]
  refine .foldl (fun t p => ?_) _ s
  unfold State.silencePort
  split
  · exact .refl t
  · exact (portDown t p).trans (.of_ctxs rfl)

end SameStanding

/-- A context that stands in no reset, or in one as it should: RESETTING. -/
def State.resettable (s : State) (id : Nat) : Prop := ∃ c, s.ctx? id = some c ∧ (c.reset = none ∨ c.phase = .resetting)

/-- A context that is RESETTING. -/
def State.inReset (s : State) (id : Nat) : Prop := ∃ c, s.ctx? id = some c ∧ c.phase = .resetting

theorem State.inReset.resettable {s : State} {id : Nat} (h : s.inReset id) : s.resettable id := by
  obtain ⟨c, hc, hp⟩ := h
  exact ⟨c, hc, .inr hp⟩

theorem SameStanding.resettable {s t : State} (h : SameStanding s t) {id : Nat} (k : s.resettable id) : t.resettable id := by
  obtain ⟨c, hc, hr⟩ := k
  have ht := h id
  rw [hc, Option.map_some, Option.map_eq_some_iff] at ht
  obtain ⟨e, he, same⟩ := ht
  obtain ⟨hphase, hreset⟩ := Prod.mk.inj same
  exact ⟨e, he, by rwa [hphase, hreset]⟩

/-! ## The contexts of the die are included -/

theorem SameOthers.beginCtxReset (s : State) (id cause : Nat) : SameOthers id s (s.beginCtxReset id cause) := by
  unfold State.beginCtxReset
  split
  · exact .refl id s
  · split
    · exact .refl id s
    · obtain ⟨sed, hs⟩ := SameButLog.writeNow s 0x5002 cause pkgPath id
      rw [hs]
      exact .mapCtx _ id fun _ => rfl

theorem State.beginCtxReset_inReset {s : State} {id : Nat} {c : Ctx} (h : s.ctx? id = some c) (cause : Nat) :
    (s.beginCtxReset id cause).inReset id := by
  unfold State.beginCtxReset
  rw [h]
  dsimp only
  split
  · next hp => exact ⟨c, h, hp⟩
  · obtain ⟨sed, hs⟩ := SameButLog.writeNow s 0x5002 cause pkgPath id
    rw [hs]
    exact ⟨c.enterReset cause s.now s.opMs, State.ctx?_mapCtx_self h fun _ => rfl, rfl⟩

theorem State.inReset.mapReset {s : State} {id : Nat} (h : s.inReset id) (f : CtxReset → CtxReset) :
    (s.mapReset id f).inReset id := by
  obtain ⟨c, hc, hp⟩ := h
  exact ⟨{ c with reset := c.reset.map f }, State.ctx?_mapCtx_self hc fun _ => rfl, hp⟩

theorem SameOthers.includeCtx (s : State) (d id : Nat) : SameOthers id s (s.includeCtx d id) := by
  unfold State.includeCtx
  split
  · exact .refl id s
  · refine SameOthers.trans ?_ (.mapCtx _ id fun _ => rfl)
    split
    · exact .mapCtx s id fun _ => rfl
    · split
      · exact .mapCtx s id fun _ => rfl
      · exact .beginCtxReset s id 5

theorem State.resettable.includeCtx {s : State} {id : Nat} (h : s.resettable id) (d : Nat) :
    (s.includeCtx d id).inReset id := by
  obtain ⟨c, hc, hr⟩ := h
  unfold State.includeCtx
  rw [hc]
  dsimp only
  refine State.inReset.mapReset ?_ _
  split
  · next r hs =>
    have hp := hr.resolve_left (by rw [hs]; exact Option.some_ne_none r)
    exact ⟨_, State.ctx?_mapCtx_self hc fun _ => rfl, hp⟩
  · split
    · exact ⟨_, State.ctx?_mapCtx_self hc fun _ => rfl, rfl⟩
    · exact State.beginCtxReset_inReset hc 5

theorem State.inReset.includeAll {s : State} {id : Nat} (h : s.inReset id) (d : Nat) (l : List Nat) :
    (l.foldl (fun s id => s.includeCtx d id) s).inReset id := by
  refine List.foldlRecOn (motive := fun t : State => t.inReset id) _ _ h fun t ht j _ => ?_
  by_cases e : id = j
  · subst e
    exact ht.resettable.includeCtx d
  · obtain ⟨c, hc, hp⟩ := ht
    exact ⟨c, (SameOthers.includeCtx t d j id e).trans hc, hp⟩

theorem State.resettable.includeAll {s : State} {id : Nat} (h : s.resettable id) (d : Nat) {l : List Nat} (hl : id ∈ l) :
    (l.foldl (fun s id => s.includeCtx d id) s).inReset id := by
  induction l generalizing s with
  | nil => cases hl
  | cons j l ih =>
    by_cases e : id = j
    · subst e
      exact (h.includeCtx d).includeAll d l
    · obtain ⟨c, hc, hr⟩ := h
      exact ih ⟨c, (SameOthers.includeCtx s d j id e).trans hc, hr⟩ ((List.mem_cons.mp hl).resolve_left e)

theorem KeepsStored.includeCtx (s : State) (d id : Nat) : KeepsStored s (s.includeCtx d id) := by
  unfold State.includeCtx
  split
  · exact .refl s
  · refine KeepsStored.trans ?_ (mapCtx ..)
    split
    · exact mapCtx ..
    · split
      · exact mapCtx ..
      · exact beginCtxReset ..

theorem State.beginCtxReset_ports (s : State) (id cause : Nat) : (s.beginCtxReset id cause).ports = s.ports := by
  unfold State.beginCtxReset
  split
  · rfl
  · split
    · rfl
    · obtain ⟨sed, hs⟩ := SameButLog.writeNow s 0x5002 cause pkgPath id
      rw [hs]
      rfl

theorem State.includeCtx_ports (s : State) (d id : Nat) : (s.includeCtx d id).ports = s.ports := by
  unfold State.includeCtx
  split
  · rfl
  · rw [State.mapReset_ports]
    split
    · rfl
    · split
      · rfl
      · exact State.beginCtxReset_ports ..

/-! ## The reset begins -/

/-- The contexts that a partition reset of a die includes (R376). -/
def State.includedIn (s : State) (d : Nat) : List Nat := (s.ctxs.filter fun c => c.usesDie d || s.readsDie c d).map Ctx.id

theorem State.mem_includedIn {s : State} {d id : Nat} {c : Ctx} (h : s.ctx? id = some c) (hu : c.usesDie d = true) :
    id ∈ s.includedIn d := by
  refine List.mem_map.mpr ⟨c, List.mem_filter.mpr ⟨List.mem_of_find?_eq_some h, ?_⟩, State.ctx?_id h⟩
  rw [hu, Bool.true_or]

/-- The state once the die's ports are silent and its contexts in their resets. -/
def State.emptied (s : State) (d : Nat) : State :=
  (s.includedIn d).foldl (fun s id => s.includeCtx d id) (s.countFailure.silenceDie d)

theorem KeepsStored.emptied (s : State) (d : Nat) : KeepsStored s (s.emptied d) :=
  have counted : KeepsStored s s.countFailure := ⟨.of_eq rfl rfl rfl, rfl, rfl⟩
  (counted.trans (silenceDie _ d)).trans (.foldl (fun t id => includeCtx t d id) _ _)

theorem State.emptied_silent {s : State} {d p : Nat} {q : Port} (hp : p / 8 = d) (hq : (s.emptied d).port? p = some q) :
    q.phase = .probe ∨ q.phase = .off ∨ q.phase = .retired := by
  have ports : (s.emptied d).ports = (s.countFailure.silenceDie d).ports :=
    List.foldlRecOn (motive := fun t : State => t.ports = (s.countFailure.silenceDie d).ports) _ _ rfl
      fun t ht id _ => (t.includeCtx_ports d id).trans ht
  rw [State.port?, ports, ← State.port?, State.port?_silenceDie, if_pos (mem_diePorts.mpr hp), Option.map_eq_some_iff] at hq
  obtain ⟨x, -, rfl⟩ := hq
  exact x.silenced_phase

theorem State.emptied_inReset {s : State} {d id : Nat} {c : Ctx} (hc : s.ctx? id = some c) (hu : c.usesDie d = true)
    (hr : c.reset = none) : (s.emptied d).inReset id :=
  have start : s.countFailure.resettable id := ⟨c, hc, .inl hr⟩
  ((SameStanding.silenceDie _ d).resettable start).includeAll d (State.mem_includedIn hc hu)

/-- A partition reset is announced, the die is emptied, and the reset takes its place among those under way (R379). -/
theorem State.partitionReset_eq {s : State} {d : Nat} (cause : Nat) (hd : d < 4) (hb : s.boot.phase = .running)
    (hok : s.dieOk d = true) (hr : s.dieResetting d = false) :
    ∃ v engines power resets, KeepsStored s v ∧ v.ctxs = s.ctxs ∧
      s.partitionReset d cause = { v.emptied d with engines := engines, power := power, resets := resets } ∧
      ∃ seq, { die := d, cause, phase := .stop, start := (v.emptied d).now, seq, included := v.includedIn d } ∈
        resets.parts := by
  have announced : KeepsStored s ((s.writeNow 0x5004 cause (diePath d) noCtx).notifyOps 0x5004 cause) :=
    (KeepsStored.of_log (.writeNow s ..)).trans (.notifyOps ..)
  have ctxs : ((s.writeNow 0x5004 cause (diePath d) noCtx).notifyOps 0x5004 cause).ctxs = s.ctxs := by
    obtain ⟨sed, hs⟩ := SameButLog.writeNow s 0x5004 cause (diePath d) noCtx
    rw [State.notifyOps_ctxs, hs]
  unfold State.partitionReset
  rw [if_neg (by simp [hd, hb, hok, hr])]
  dsimp only
  generalize (s.writeNow 0x5004 cause (diePath d) noCtx).notifyOps 0x5004 cause = v at announced ctxs ⊢
  exact ⟨v, _, _, _, announced, ctxs, rfl, _, List.mem_append_right _ (List.mem_singleton_self _)⟩

/-- PARTITION_RESET begins the reset of a die in service that is in none (R302, R376, R379). -/
theorem exec_partitionReset {s : State} {d : Nat} (cause : Nat) (hd : d < 4) (hb : s.boot.phase = .running)
    (hok : s.dieOk d = true) (hr : s.dieResetting d = false) :
    ∃ t y, exec (.partitionReset d cause) s = .next t ∧ y ∈ t.resets.parts ∧ y.die = d ∧ y.cause = cause ∧ y.phase = .stop ∧
      y.start = s.now ∧
      (∀ id c, s.ctx? id = some c → c.usesDie d = true → c.reset = none → ∃ e, t.ctx? id = some e ∧ e.phase = .resetting) ∧
      (∀ p q, p / 8 = d → t.port? p = some q → q.phase = .probe ∨ q.phase = .off ∨ q.phase = .retired) ∧ t.mem = s.mem ∧
      t.flash = s.flash := by
  obtain ⟨v, engines, power, resets, announced, ctxs, reset, seq, added⟩ := State.partitionReset_eq cause hd hb hok hr
  have kept := announced.trans (KeepsStored.emptied v d)
  refine ⟨_, _, congrArg Host.Outcome.next reset, added, rfl, rfl, rfl, kept.now,
    fun id c hc hu hn => ?_, fun p q hp hq => State.emptied_silent hp hq, kept.mem, kept.flash⟩
  have known : v.ctx? id = some c := by rw [State.ctx?, ctxs]; exact hc
  exact State.emptied_inReset known hu hn

end Sys2Proof.Machine
end

section
/-! PROOFS. The phases of a partition reset from its stop to its training (R34, R37, R241, R307, R379). -/

namespace Sys2Proof.Machine

/-! ## From one phase to the next -/

/-- The partition reset of a die stands in a phase. -/
def State.partMoved (s : State) (d : Nat) (b : PartPhase) : State :=
  { s with resets := { s.resets with parts := s.resets.parts.map fun x => if x.die = d then { x with phase := b } else x } }

theorem State.partPhase_eq {s : State} {d : Nat} {r : PartReset} {a : PartPhase}
    (h : s.resets.parts.find? (fun x => x.die == d) = some r) (ha : r.phase = a) (b : PartPhase)
    (act : PartReset → State → State) : s.partPhase d a b act = act r (s.partMoved d b) := by
  unfold State.partPhase
  rw [h]
  exact if_pos ha

theorem State.partMoved_find {s : State} {d : Nat} {r : PartReset}
    (h : s.resets.parts.find? (fun x => x.die == d) = some r) (b : PartPhase) :
    (s.partMoved d b).resets.parts.find? (fun x => x.die == d) = some { r with phase := b } := by
  refine (find?_map_number PartReset.die (fun x => { x with phase := b }) (fun _ => rfl) s.resets.parts d d).trans ?_
  rw [if_pos rfl, h]
  rfl

theorem KeepsParts.find {s t : State} (k : KeepsParts s t) {d : Nat} {r : PartReset}
    (h : s.resets.parts.find? (fun x => x.die == d) = some r) : t.resets.parts.find? (fun x => x.die == d) = some r := by
  rw [k.parts, h]

/-- A command that moves the reset of a die from phase `a` to phase `b` by an effect that keeps what all of them keep. -/
theorem KeepsParts.phaseDone {s : State} {d : Nat} {r : PartReset} {a : PartPhase}
    (h : s.resets.parts.find? (fun x => x.die == d) = some r) (ha : r.phase = a) (b : PartPhase)
    {act : PartReset → State → State} (k : KeepsParts (s.partMoved d b) (act r (s.partMoved d b))) :
    (s.partPhase d a b act).resets.parts.find? (fun x => x.die == d) = some { r with phase := b } ∧
      (s.partPhase d a b act).mem = s.mem := by
  rw [State.partPhase_eq h ha]
  exact ⟨k.find (State.partMoved_find h b), k.mem⟩

section
variable {s : State} {d : Nat} {r : PartReset}

/-- PARTITION_STOP_DONE: the reset goes on to its dump once every context it includes is stopped (R379). -/
theorem exec_partitionStopDone (h : s.resets.parts.find? (fun x => x.die == d) = some r) (hp : r.phase = .stop)
    (stopped : ∀ id ∈ r.included, ∀ c, s.ctx? id = some c → ∃ x, c.reset = some x ∧ x.stopped = true) :
    ∃ t, exec (.partitionStopDone d) s = .next t ∧
      t.resets.parts.find? (fun x => x.die == d) = some { r with phase := .dump } ∧ t.ctxs = s.ctxs ∧ t.mem = s.mem := by
  have run : exec (.partitionStopDone d) s = _ := if_pos (by
    rw [h, Option.any_some, List.all_eq_true]
    intro id hid
    split
    · next c hc =>
      obtain ⟨x, hx, hs⟩ := stopped id hid c hc
      rw [hx, Option.any_some, hs]
    · rfl)
  obtain ⟨moved, hm⟩ := KeepsParts.phaseDone h hp .dump (act := fun _ s => s) (.refl _)
  exact ⟨_, run, moved, by rw [State.partPhase_eq h hp]; rfl, hm⟩

theorem KeepsParts.writeDump (s : State) (seq : Nat) : KeepsParts s (s.writeDump seq) := by
  unfold State.writeDump
  split
  · exact .refl s
  · exact .of_eq rfl rfl rfl

theorem State.writeDump_ctxs (s : State) (seq : Nat) : (s.writeDump seq).ctxs = s.ctxs := by
  unfold State.writeDump
  split <;> rfl

theorem State.writeDump_sed {s : State} (h : s.sed.dumpCopying = false) (seq : Nat) :
    (s.writeDump seq).sed.dump.map Dump.seq = some seq ∧ (s.writeDump seq).sed.dumpCopying = true := by
  unfold State.writeDump
  rw [if_neg (by simp [h])]
  exact ⟨rfl, rfl⟩

/-- PARTITION_DUMP_DONE: the dump names the reset's record, unless the buffer still holds another (R379, R442). -/
theorem exec_partitionDumpDone (h : s.resets.parts.find? (fun x => x.die == d) = some r) (hp : r.phase = .dump) :
    ∃ t, exec (.partitionDumpDone d) s = .next t ∧
      t.resets.parts.find? (fun x => x.die == d) = some { r with phase := .retire } ∧
      (s.sed.dumpCopying = false → t.sed.dump.map Dump.seq = some r.seq ∧ t.sed.dumpCopying = true) ∧
      t.ctxs = s.ctxs ∧ t.mem = s.mem := by
  obtain ⟨moved, hm⟩ := KeepsParts.phaseDone h hp .retire (act := fun r s => s.writeDump r.seq) (.writeDump ..)
  refine ⟨_, rfl, moved, fun hc => ?_, ?_, hm⟩ <;> rw [State.partPhase_eq h hp]
  · exact State.writeDump_sed (s := s.partMoved d .retire) hc r.seq
  · exact State.writeDump_ctxs ..

end

/-! ## Retirement -/

theorem mem_insertNew_of_mem {α : Type} [BEq α] {l : List α} {a : α} (b : α) (h : a ∈ l) : a ∈ insertNew l b := by
  unfold insertNew
  split
  · exact h
  · exact List.mem_append_left _ h

theorem KeepsParts.repairTop (s : State) (d : Nat) : KeepsParts s (s.repairTop d) := by
  refine .foldl (fun t p => ?_) _ s
  dsimp only
  split <;> exact .of_eq rfl rfl rfl

theorem State.judged_repairTop {s : State} {g : Nat} (h : g ∈ s.resets.judged) (d : Nat) :
    g ∈ (s.repairTop d).resets.judged := by
  refine List.foldlRecOn (motive := fun t : State => g ∈ t.resets.judged) _ _ h fun t ht p _ => ?_
  dsimp only
  split
  · exact ht
  · exact mem_insertNew_of_mem _ ht

/-- The grains in service without one of them. -/
theorem getLsbD_retire (x : BitVec 256) (g h : Nat) :
    (x &&& ~~~(BitVec.ofNat 256 (2 ^ g))).getLsbD h = (x.getLsbD h && !decide (g = h)) := by
  rw [BitVec.getLsbD_and, BitVec.getLsbD_not, BitVec.getLsbD_ofNat, Nat.testBit_two_pow]
  by_cases hh : h < 256
  · simp only [hh, decide_true, Bool.true_and]
  · simp only [BitVec.getLsbD_of_ge x h (by omega), Bool.false_and]

/-- What a grain's retirement changes before it is recorded and announced (R8, R34). -/
def State.withoutGrain (s : State) (g : Nat) : State :=
  { s with
    caps := { s.caps with grains := s.caps.grains &&& ~~~(BitVec.ofNat 256 (2 ^ g)) }
    flash := { s.flash with retiredGrains := s.flash.retiredGrains ||| BitVec.ofNat 256 (2 ^ g) }
    resets := { s.resets with judged := s.resets.judged.filter (· != g) } }

theorem State.grainOk_withoutGrain (s : State) (g h : Nat) :
    (s.withoutGrain g).grainOk h = (s.grainOk h && !decide (g = h)) := getLsbD_retire ..

theorem KeepsParts.announceGrain (s : State) (g : Nat) :
    KeepsParts s ((s.saveRetired.raise 0x5010 0 g noCtx).notifyOps 0x5010 0) :=
  ((KeepsParts.saveRetired s).trans (KeepsStored.raise ..).toKeepsParts).trans (KeepsStored.notifyOps ..).toKeepsParts

theorem KeepsParts.retireGrain (s : State) (g : Nat) : KeepsParts s (s.retireGrain g) :=
  have without : KeepsParts s (s.withoutGrain g) :=
    ⟨rfl, rfl, fun h out => by rw [State.grainOk_withoutGrain, out, Bool.false_and]⟩
  without.trans (.announceGrain (s.withoutGrain g) g)

theorem State.retireGrain_retires (s : State) (g : Nat) : (s.retireGrain g).grainOk g = false :=
  (KeepsParts.announceGrain (s.withoutGrain g) g).retired g (by simp [State.grainOk_withoutGrain])

theorem State.retireGrains_retire {l : List Nat} {g : Nat} (h : g ∈ l) (s : State) :
    (l.foldl (fun s g => s.retireGrain g) s).grainOk g = false := by
  induction l generalizing s with
  | nil => cases h
  | cons j l ih =>
    obtain rfl | h := List.mem_cons.mp h
    · exact (KeepsParts.foldl KeepsParts.retireGrain l _).retired g (s.retireGrain_retires g)
    · exact ih h _

theorem KeepsParts.retireCopyEngine (s : State) (e : Nat) : KeepsParts s (s.retireCopyEngine e) := by
  refine KeepsParts.trans ?_ (KeepsStored.raise ..).toKeepsParts
  refine KeepsParts.trans ?_ (.saveRetired _)
  exact .of_eq rfl rfl rfl

theorem KeepsParts.retireDie (s : State) (d : Nat) : KeepsParts s (s.retireDie d) := by
  unfold State.retireDie
  split
  · exact .refl s
  · exact .foldl KeepsParts.retirePort _ s

/-- What the retire phase does after it has retired the die's judged grains. -/
def State.retireRest (s : State) (d : Nat) : State :=
  ((s.resets.judgedCopy.filter fun e => e / 16 == d).foldl (fun s e => s.retireCopyEngine e) s).retireDie d

theorem State.retireOn_eq (s : State) (d : Nat) :
    s.retireOn d = (((s.repairTop d).resets.judged.filter fun g => g / 64 == d).foldl (fun s g => s.retireGrain g)
      (s.repairTop d)).retireRest d := rfl

theorem KeepsParts.retireRest (s : State) (d : Nat) : KeepsParts s (s.retireRest d) :=
  (KeepsParts.foldl KeepsParts.retireCopyEngine _ s).trans (.retireDie ..)

theorem KeepsParts.retireOn (s : State) (d : Nat) : KeepsParts s (s.retireOn d) := by
  rw [State.retireOn_eq]
  exact ((KeepsParts.repairTop s d).trans (.foldl KeepsParts.retireGrain _ _)).trans (.retireRest ..)

theorem State.retireOn_retires {s : State} {d g : Nat} (h : g ∈ s.resets.judged) (hg : g / 64 = d) :
    (s.retireOn d).grainOk g = false := by
  rw [State.retireOn_eq]
  refine (KeepsParts.retireRest _ d).retired g (State.retireGrains_retire (List.mem_filter.mpr ⟨?_, by simp [hg]⟩) _)
  exact State.judged_repairTop h d

/-- PARTITION_RETIRE_DONE: the die's judged grains leave service (R34, R379). -/
theorem exec_partitionRetireDone {s : State} {d : Nat} {r : PartReset}
    (h : s.resets.parts.find? (fun x => x.die == d) = some r) (hp : r.phase = .retire) :
    ∃ t, exec (.partitionRetireDone d) s = .next t ∧
      t.resets.parts.find? (fun x => x.die == d) = some { r with phase := .train } ∧
      (∀ g ∈ s.resets.judged, g / 64 = d → t.caps.grains.getLsbD g = false) ∧ t.mem = s.mem := by
  obtain ⟨moved, hm⟩ := KeepsParts.phaseDone h hp .train (act := fun _ s => s.retireOn d) (.retireOn ..)
  refine ⟨_, rfl, moved, fun g hg hd => ?_, hm⟩
  rw [State.partPhase_eq h hp]
  exact State.retireOn_retires (s := s.partMoved d .train) hg hd

/-! ## Training -/

/-- A port after its loopback test (R307). -/
def Port.tested (passed : Bool) (q : Port) : Port :=
  if q.phase == .retired then q
  else if passed then { q with selfTestFails := 0 }
  else if 1 ≤ q.selfTestFails then q.left .retired
  else { q with selfTestFails := 1 }

/-- What the end of a training does to one port of the die. -/
def State.trainPort (fails : Nat) (s : State) (p : Nat) : State :=
  if (s.port? p).any fun q => q.phase == .retired then s else s.selfTested p (!(bitOf fails (p % 8)))

/-- What the end of a training does to a die. -/
def State.trainDie (fails d : Nat) (s : State) : State := (diePorts d).foldl (State.trainPort fails) s

theorem exec_partitionTrainDone_eq (s : State) (d fails : Nat) :
    exec (.partitionTrainDone ⟨d, fails⟩) s = .next (s.partPhase d .train .zero fun _ s => s.trainDie fails d) := by
  have fold (s : State) : s.trainDie fails d = (List.range 8).foldl (fun s i =>
      if (s.port? (8 * d + i)).any fun q => q.phase == .retired then s
      else s.selfTested (8 * d + i) (!(bitOf fails i))) s := by
    rw [State.trainDie, diePorts, List.foldl_map]
    refine List.foldl_ext _ _ _ fun t i hi => ?_
    rw [State.trainPort, show (8 * d + i) % 8 = i by have := List.mem_range.mp hi; omega]
  simp only [fold]
  rfl

theorem KeepsParts.trainPort (fails : Nat) (s : State) (p : Nat) : KeepsParts s (s.trainPort fails p) := by
  unfold State.trainPort State.selfTested
  split
  · exact .refl s
  · split
    · exact .refl s
    · split
      · exact (KeepsStored.mapPort ..).toKeepsParts
      · split
        · exact .retirePort ..
        · exact (KeepsStored.mapPort ..).toKeepsParts

theorem State.port?_trainPort (fails : Nat) (s : State) (p q : Nat) :
    (s.trainPort fails p).port? q =
      if q = p then (s.port? q).map (Port.tested (!(bitOf fails (p % 8)))) else s.port? q := by
  unfold State.trainPort State.selfTested
  by_cases e : q = p
  · subst e
    cases h : s.port? q with
    | none => simp [h]
    | some x =>
      by_cases hr : x.phase = .retired
      · simp [h, hr, Port.tested]
      · cases hb : bitOf fails (q % 8)
        · simp [h, hr, Port.tested, State.port?_mapPort]
        · by_cases hf : 1 ≤ x.selfTestFails <;>
            simp [h, hr, hf, Port.tested, State.port?_mapPort, State.port?_retirePort]
  · repeat' split
    all_goals simp [State.port?_mapPort, State.port?_retirePort, e]

/-- PARTITION_TRAIN_DONE: a port whose test fails in two trainings is retired (R307, R379). -/
theorem exec_partitionTrainDone {s : State} {d : Nat} {r : PartReset}
    (h : s.resets.parts.find? (fun x => x.die == d) = some r) (hp : r.phase = .train) (fails : Nat) :
    ∃ t, exec (.partitionTrainDone ⟨d, fails⟩) s = .next t ∧
      t.resets.parts.find? (fun x => x.die == d) = some { r with phase := .zero } ∧
      (∀ i q, i < 8 → s.port? (8 * d + i) = some q → q.phase ≠ .retired → ∃ x, t.port? (8 * d + i) = some x ∧
        (bitOf fails i = false → x = { q with selfTestFails := 0 }) ∧
        (bitOf fails i = true → q.selfTestFails = 0 → x = { q with selfTestFails := 1 }) ∧
        (bitOf fails i = true → 1 ≤ q.selfTestFails → x.phase = .retired)) ∧ t.mem = s.mem := by
  obtain ⟨moved, hm⟩ := KeepsParts.phaseDone h hp .zero (act := fun _ s => s.trainDie fails d)
    (.foldl (KeepsParts.trainPort fails) _ _)
  refine ⟨_, exec_partitionTrainDone_eq s d fails, moved,
    fun i q hi hq hr => ⟨q.tested (!(bitOf fails i)), ?_, fun hb => ?_, fun hb hf => ?_, fun hb hf => ?_⟩, hm⟩
  · have own : (s.partMoved d .zero).port? (8 * d + i) = some q := hq
    rw [State.partPhase_eq h hp, State.trainDie, port?_foldl (State.port?_trainPort fails) (nodup_diePorts d),
      if_pos (mem_diePorts.mpr (by omega)), own, Nat.mul_add_mod, Nat.mod_eq_of_lt hi, Option.map_some]
  · simp [Port.tested, hr, hb]
  · simp [Port.tested, hr, hb, hf]
  · simp [Port.tested, hr, hb, hf, Port.left]

end Sys2Proof.Machine
end

section
/-! PROOFS. The loss of a context (R376): what the end of a reset that ends in it leaves as it was, where no bulk handle is
open. -/

namespace Sys2Proof.Machine

/-- No bulk handle is open. -/
def State.noHandles (s : State) : Prop := ∀ se ∈ s.ligil.sessions, se.handles = []

/-- A reset of the context, if it is in one, ends in its loss. -/
def State.endsLost (s : State) (id : Nat) : Prop := ∀ r, (s.ctx? id).bind Ctx.reset = some r → r.lost = true

/-- What the loss of a context without open handles leaves as it was: memory, the resets under way, the ports' phases, and
which contexts' resets end in their loss. -/
structure LosesOnly (s t : State) : Prop where
  mem : t.mem = s.mem
  parts : t.resets.parts = s.resets.parts
  phases : ∀ p, (t.port? p).map Port.phase = (s.port? p).map Port.phase
  noHandles : t.noHandles
  endsLost : ∀ id, s.endsLost id → t.endsLost id

namespace LosesOnly

theorem refl {s : State} (h : s.noHandles) : LosesOnly s s := ⟨rfl, rfl, fun _ => rfl, h, fun _ k => k⟩

/-- One operation after another. -/
theorem andThen {s t u : State} (h : LosesOnly s t) (k : t.noHandles → LosesOnly t u) : LosesOnly s u :=
  have k := k h.noHandles
  ⟨k.mem.trans h.mem, k.parts.trans h.parts, fun p => (k.phases p).trans (h.phases p), k.noHandles,
   fun id e => k.endsLost id (h.endsLost id e)⟩

theorem foldl {α : Type} {f : State → α → State} (k : ∀ s a, s.noHandles → LosesOnly s (f s a)) (l : List α) {s : State}
    (h : s.noHandles) : LosesOnly s (l.foldl f s) :=
  List.foldlRecOn (motive := LosesOnly s) l f (.refl h) fun t ht a _ => ht.andThen (k t a)

/-- One operation, and after it another where a condition holds. -/
theorem andIf {s t u : State} {p : Prop} [Decidable p] (h : LosesOnly s t) (k : t.noHandles → LosesOnly t u) :
    LosesOnly s (if p then u else t) := by
  split
  · exact h.andThen k
  · exact h

/-- An operation that touches none of it. -/
theorem of_eq {s t : State} (h : s.noHandles) (hm : t.mem = s.mem) (hr : t.resets = s.resets) (hp : t.ports = s.ports)
    (hl : t.ligil = s.ligil) (hc : t.ctxs = s.ctxs) : LosesOnly s t :=
  ⟨hm, by rw [hr], fun p => by rw [State.port?, State.port?, hp], by rw [State.noHandles, hl]; exact h,
   fun id e => by rw [State.endsLost, State.ctx?, hc]; exact e⟩

variable {s : State} (h : s.noHandles)
include h

theorem mapCtx (id : Nat) {f : Ctx → Ctx} (hi : ∀ c, (f c).id = c.id)
    (hr : ∀ c r, (f c).reset = some r → ∃ x, c.reset = some x ∧ r.lost = x.lost) : LosesOnly s (s.mapCtx id f) := by
  refine ⟨rfl, rfl, fun _ => rfl, h, fun j e r hj => ?_⟩
  rw [State.ctx?_mapCtx s id j hi] at hj
  split at hj
  · obtain ⟨c, hc, hf⟩ := Option.bind_eq_some_iff.mp hj
    obtain ⟨c', hc', rfl⟩ := Option.map_eq_some_iff.mp hc
    obtain ⟨x, hx, same⟩ := hr c' r hf
    rw [same]
    exact e x (Option.bind_eq_some_iff.mpr ⟨c', hc', hx⟩)
  · exact e r hj

/-- An update of a context that does not touch its reset. -/
theorem mapCtx_rest (id : Nat) {f : Ctx → Ctx} (hi : ∀ c, (f c).id = c.id) (hr : ∀ c, (f c).reset = c.reset) :
    LosesOnly s (s.mapCtx id f) :=
  mapCtx h id hi fun c r e => ⟨r, (hr c).symm.trans e, rfl⟩

theorem mapReset (id : Nat) {f : CtxReset → CtxReset} (hf : ∀ r, (f r).lost = r.lost) : LosesOnly s (s.mapReset id f) :=
  mapCtx h id (fun _ => rfl) fun c r e => by
    obtain ⟨x, hx, rfl⟩ := Option.map_eq_some_iff.mp e
    exact ⟨x, hx, hf x⟩

theorem mapPort (p : Nat) {f : Port → Port} (hf : ∀ q, (f q).phase = q.phase) : LosesOnly s (s.mapPort p f) := by
  refine ⟨rfl, rfl, fun q => ?_, h, fun _ e => e⟩
  rw [State.port?_mapPort]
  split
  · rw [Option.map_map]
    exact congrArg (fun g => (s.port? q).map g) (funext hf)
  · rfl

theorem mapSession (id : Nat) {f : Session → Session} (hf : ∀ se, (f se).handles = se.handles) :
    LosesOnly s (s.mapSession id f) := by
  refine ⟨rfl, rfl, fun _ => rfl, fun se hse => ?_, fun _ e => e⟩
  obtain ⟨x, hx, rfl⟩ := List.mem_map.mp hse
  split
  · rw [hf, h x hx]
  · exact h x hx

/-! ### The operations of a loss -/

theorem raise (code detail src ctx : Nat) : LosesOnly s (s.raise code detail src ctx) := of_eq h rfl rfl rfl rfl rfl

theorem notify (id code detail step : Nat) (data : List Nat) : LosesOnly s (s.notify id code detail step data) := by
  unfold State.notify
  split
  · exact .refl h
  · dsimp only
    split
    · exact mapSession h _ fun _ => rfl
    · exact mapCtx_rest h id (fun _ => rfl) fun _ => rfl

theorem answer (id : Nat) (sl : Slot) (status detail : Nat) (words : List (Nat × Nat)) (payload : List Byte) :
    LosesOnly s (s.answer id sl status detail words payload) := by
  unfold State.answer
  split
  · exact .refl h
  · exact andIf (mapSession h id fun _ => rfl) fun k => of_eq k rfl rfl rfl rfl rfl

theorem answerBusy (p : Busy → Option (Nat × Nat × List (Nat × Nat))) : LosesOnly s (s.answerBusy p) := by
  refine foldl (fun t se k => foldl (fun u b k => ?_) _ k) _ h
  split
  · exact (answer k ..).andThen fun k => mapSession k _ fun _ => rfl
  · exact .refl k

theorem dropResidency (id obj : Nat) : LosesOnly s (s.dropResidency id obj) :=
  (of_eq h rfl rfl rfl rfl rfl : LosesOnly s (s.mapObject obj _)).andThen
    fun k => mapCtx_rest k id (fun _ => rfl) fun _ => rfl

theorem dropAllResidency (id : Nat) : LosesOnly s (s.bringResidency id []) := by
  unfold State.bringResidency
  split
  · exact .refl h
  · dsimp only [List.foldl_nil]
    refine LosesOnly.andThen ?_ fun k => mapCtx_rest k id (fun _ => rfl) fun _ => rfl
    refine LosesOnly.andThen ?_ fun k => foldl (fun t o k => dropResidency k id o) _ k
    exact mapCtx_rest h id (fun _ => rfl) fun _ => rfl

theorem discardWork (id : Nat) : LosesOnly s (s.discardWork id) := of_eq h rfl rfl rfl rfl rfl

theorem cancelHandles (id : Nat) : LosesOnly s (s.cancelHandles id) := by
  have none_open : s.ligil.sessions.flatMap Session.handles = [] := List.flatMap_eq_nil_iff.mpr h
  unfold State.cancelHandles State.cancelWhere
  rw [none_open]
  refine ⟨rfl, rfl, fun _ => rfl, fun se hse => ?_, fun _ e => e⟩
  obtain ⟨x, hx, rfl⟩ := List.mem_map.mp hse
  simp [h x hx]

theorem loseContext (id detail : Nat) : LosesOnly s (s.loseContext id detail) := by
  unfold State.loseContext
  refine LosesOnly.andThen ?_ fun k => mapCtx k id (fun _ => rfl) fun c r e => nomatch e
  refine LosesOnly.andThen (LosesOnly.andThen ?_ fun k => notify k ..) fun k => raise k ..
  exact (discardWork h id).andThen fun k => (cancelHandles k id).andThen fun k => dropAllResidency k id

theorem unsend (c : Ctx) : LosesOnly s (s.unsend c) := by
  refine foldl (fun t b k => ?_) _ h
  exact mapPort k b.port fun _ => rfl

theorem unbind (c : Ctx) : LosesOnly s (s.unbind c) := by
  refine (unsend h c).andThen fun k => foldl (fun t b k => ?_) _ k
  exact mapPort k b.port fun _ => rfl

theorem sendTables (l : List Nat) : LosesOnly s (s.sendTables l) := by
  refine foldl (fun t p k => ?_) _ h
  unfold State.sendTable
  split
  · exact mapPort k p fun _ => rfl
  · exact .refl k

theorem dropCtx (id : Nat) (arbiter : Arbiter) (bg : Background) :
    LosesOnly s { s with ctxs := s.ctxs.filter fun x => x.id != id, arbiter := arbiter, bg := bg } := by
  refine ⟨rfl, rfl, fun _ => rfl, h, fun j e r hj => e r ?_⟩
  obtain ⟨c, hc, hr⟩ := Option.bind_eq_some_iff.mp hj
  refine Option.bind_eq_some_iff.mpr ⟨c, ?_, hr⟩
  have hc : (s.ctxs.filter fun x => x.id != id).find? (fun c => c.id == j) = some c := hc
  have other : j ≠ id := by
    have hid : c.id = j := by simpa using List.find?_some hc
    have kept := (List.mem_filter.mp (List.mem_of_find?_eq_some hc)).2
    rw [hid] at kept
    simpa using kept
  rw [List.find?_filter] at hc
  rw [State.ctx?, ← hc]
  refine congrArg (fun p => s.ctxs.find? p) (funext fun x => ?_)
  by_cases hx : x.id = j <;> simp [hx, other]

theorem finishRelease (id : Nat) : LosesOnly s (s.finishRelease id) := by
  unfold State.finishRelease
  split
  · exact .refl h
  · dsimp only
    refine LosesOnly.andThen (LosesOnly.andThen (andIf ?_ fun k => raise k ..) fun k => sendTables k _)
      fun k => answerBusy k _
    refine LosesOnly.andThen (LosesOnly.andThen ?_ fun k => unbind k _) fun k => dropCtx k id _ _
    exact (discardWork h id).andThen fun k => (cancelHandles k id).andThen fun k => dropAllResidency k id

/-- The end of a reset that ends in the loss of its context. -/
theorem endCtxReset {id : Nat} (lost : s.endsLost id) : LosesOnly s (s.endCtxReset id) := by
  unfold State.endCtxReset
  split
  · exact .refl h
  · next c hc =>
    split
    · exact .refl h
    · next r hr =>
      have hl : r.lost = true := lost r (Option.bind_eq_some_iff.mpr ⟨c, hc, hr⟩)
      rw [if_pos hl]
      dsimp only
      have ended : LosesOnly s ((s.loseContext id 1).mapCtx id fun c => { c with reset := none, holdAsked := false }) :=
        (loseContext h id 1).andThen fun k => mapCtx k id (fun _ => rfl) fun c r e => nomatch e
      generalize (s.loseContext id 1).mapCtx id (fun c => { c with reset := none, holdAsked := false }) = t at ended ⊢
      refine ended.andThen fun k => andIf (LosesOnly.andThen ?_ fun k => answerBusy k _) fun k => finishRelease k id
      split
      · split
        · exact .refl k
        · exact (raise k ..).andThen fun k => notify k ..
      · exact .refl k

end LosesOnly

end Sys2Proof.Machine
end

section
/-! PROOFS. The end of a partition reset (R376, R379): the die's memory is zeroed, the die returns, and the contexts whose
resets end with it are lost. -/

namespace Sys2Proof.Machine

/-! ## The die is zeroed -/

/-- The states differ in the log, the background work, flash and the free values drawn. -/
def SameButRepairs (s t : State) : Prop :=
  ∃ free flash sed bg, t = { s with free := free, flash := flash, sed := sed, bg := bg }

theorem SameButRepairs.trans {s t u : State} (h : SameButRepairs s t) (k : SameButRepairs t u) : SameButRepairs s u := by
  obtain ⟨_, _, _, _, rfl⟩ := h
  obtain ⟨_, _, _, _, rfl⟩ := k
  exact ⟨_, _, _, _, rfl⟩

theorem SameButRepairs.foldl {α : Type} {f : State → α → State} (h : ∀ s a, SameButRepairs s (f s a)) (l : List α)
    (s : State) : SameButRepairs s (l.foldl f s) :=
  List.foldlRecOn (motive := SameButRepairs s) l f ⟨_, _, _, _, rfl⟩ fun t ht a _ => ht.trans (h t a)

theorem SameButRepairs.retirePage (s : State) (p : Nat) : SameButRepairs s (s.retirePage p) := by
  unfold State.retirePage State.raisePage
  obtain ⟨_, _, h⟩ := State.saveRetired_eq { s with
    bg := { s.bg with retired := insertNew s.bg.retired p }
    flash := { s.flash with retiredPages := insertNew s.flash.retiredPages p } }
  rw [h]
  exact ⟨_, _, _, _, rfl⟩

theorem SameButRepairs.repairPage (s : State) (p : Nat) : SameButRepairs s (s.repairPage p) := by
  unfold State.repairPage
  split
  · exact ⟨_, _, _, _, rfl⟩
  · refine .foldl (fun t row => ?_) _ s
    unfold State.spareRow
    dsimp only
    split
    · exact ⟨_, _, _, _, rfl⟩
    · exact SameButRepairs.trans ⟨_, _, _, _, rfl⟩ (retirePage _ p)

/-- The memory without a die's topsoil and subsoil. -/
def zeroedMem (m : List Host.Cell) (d : Nat) : List Host.Cell :=
  memZero (memZero m (pageAddr (4096 * d)) (4096 * pageSize)) (pageAddr (16384 + 73728 * d)) (73728 * pageSize)

theorem State.zeroDie_eq (s : State) (d : Nat) :
    ∃ free flash sed bg arbiter, s.zeroDie d =
      { s with free := free, flash := flash, sed := sed, bg := bg, arbiter := arbiter, mem := zeroedMem s.mem d } := by
  unfold State.zeroDie
  obtain ⟨_, _, _, _, h⟩ := SameButRepairs.foldl SameButRepairs.repairPage
    ((s.bg.subUe.filterMap pageOf?).eraseDups.filter fun p => pageDie p == d) s
  rw [h]
  exact ⟨_, _, _, _, _, rfl⟩

/-- An address of a die lies in one of its two ranges (R17, R218). -/
theorem die_range {a w d : Nat} (hw : pageOf? a = some w) (hd : pageDie w = d) :
    (pageAddr (4096 * d) ≤ a ∧ a < pageAddr (4096 * d) + 4096 * pageSize) ∨
      (pageAddr (16384 + 73728 * d) ≤ a ∧ a < pageAddr (16384 + 73728 * d) + 73728 * pageSize) := by
  unfold pageOf? at hw
  split at hw
  · next h =>
    have e : a / 2097152 = w := Option.some.inj hw
    rw [pageDie, if_pos (by omega)] at hd
    rw [pageAddr, if_pos (by omega)]
    simp only [pageSize]
    omega
  · split at hw
    · next h =>
      have e : 16384 + (a - 0x1000000000) / 2097152 = w := Option.some.inj hw
      simp only [Bool.and_eq_true, decide_eq_true_eq] at h
      rw [pageDie, if_neg (by omega)] at hd
      right
      rw [pageAddr, if_neg (by omega)]
      simp only [pageSize]
      omega
    · cases hw

theorem memRead_zeroedMem {m : List Host.Cell} {a w d : Nat} (hw : pageOf? a = some w) (hd : pageDie w = d) :
    memRead (zeroedMem m d) a = 0 := by
  rw [zeroedMem, memRead_memZero, memRead_memZero]
  obtain h | h := die_range hw hd
  · rw [if_pos h, ite_self]
  · rw [if_pos h]

/-! ## The die returns -/

/-- The die is out of its reset and its ports are in PROBE (R302, R379). -/
def State.portsReturned (s : State) (d : Nat) : State :=
  (diePorts d).foldl (fun s p => s.mapPort p fun q => if q.phase = .retired then q else { q with phase := .probe })
    { s with resets := { s.resets with parts := s.resets.parts.filter fun x => x.die != d } }

theorem State.partMoved_others (s : State) (d : Nat) (b : PartPhase) :
    ((s.partMoved d b).resets.parts.filter fun x => x.die != d) = s.resets.parts.filter fun x => x.die != d := by
  unfold State.partMoved
  dsimp only
  induction s.resets.parts with
  | nil => rfl
  | cons x l ih => by_cases hx : x.die = d <;> simp [hx, ih]

theorem State.portsReturned_eq (s : State) (d : Nat) :
    ∃ ports, s.portsReturned d =
      { s with ports := ports, resets := { s.resets with parts := s.resets.parts.filter fun x => x.die != d } } :=
  List.foldlRecOn (motive := fun t : State => ∃ ports, t =
      { s with ports := ports, resets := { s.resets with parts := s.resets.parts.filter fun x => x.die != d } }) _ _
    ⟨s.ports, rfl⟩ fun t ht p _ => by obtain ⟨_, rfl⟩ := ht; exact ⟨_, rfl⟩

theorem State.port?_portsReturned {s : State} {d p : Nat} {q : Port} (hp : p / 8 = d) (hq : s.port? p = some q)
    (hr : q.phase ≠ .retired) : (s.portsReturned d).port? p = some { q with phase := .probe } := by
  rw [State.portsReturned, port?_foldl (g := fun _ q => if q.phase = .retired then q else { q with phase := .probe })
    (fun s p j => State.port?_mapPort s p j _) (nodup_diePorts d), if_pos (mem_diePorts.mpr hp)]
  have hq' : (s.ports)[p]? = some q := hq
  simp [State.port?, hq', hr]

/-- What the return of a die does for one context that its reset included (R376, R383). -/
def State.returnCtx (d : Nat) (s : State) (c : Ctx) : State :=
  if c.reset.any fun x => x.lost && x.dies.all (· == d) then
    (s.mapReset c.id fun x => { x with dies := x.dies.filter (· != d) }).endCtxReset c.id
  else s.mapReset c.id fun x => { x with dies := x.dies.filter (· != d) }

theorem State.returnDie_eq (s : State) (r : PartReset) :
    s.returnDie r = ((((s.portsReturned r.die).ctxs.foldl (State.returnCtx r.die)
      ((s.portsReturned r.die).raise 0x5004 r.cause (diePath r.die) noCtx)).answerPartition r.die).answerReserves) := rfl

theorem LosesOnly.returnCtx {s : State} (h : s.noHandles) (d : Nat) {c : Ctx}
    (lost : c.reset.any CtxReset.lost = true → s.endsLost c.id) : LosesOnly s (s.returnCtx d c) := by
  have freed := mapReset h c.id (f := fun x => { x with dies := x.dies.filter (· != d) }) fun _ => rfl
  unfold State.returnCtx
  split
  · next hc =>
    refine freed.andThen fun k => endCtxReset k (freed.endsLost c.id (lost ?_))
    obtain ⟨x, hx, both⟩ := (Option.any_eq_true ..).mp hc
    exact (Option.any_eq_true ..).mpr ⟨x, hx, (Bool.and_eq_true_iff.mp both).1⟩
  · exact freed

theorem LosesOnly.returnCtxs {l : List Ctx} {s : State} (h : s.noHandles) (d : Nat)
    (lost : ∀ c ∈ l, c.reset.any CtxReset.lost = true → s.endsLost c.id) : LosesOnly s (l.foldl (State.returnCtx d) s) := by
  induction l generalizing s with
  | nil => exact .refl h
  | cons c l ih =>
    have first := returnCtx h d (lost c List.mem_cons_self)
    exact first.andThen fun k => ih k fun c' hc' hl => first.endsLost c'.id (lost c' (List.mem_cons_of_mem c hc') hl)

/-- Contexts of distinct ids are each the one that its id names. -/
theorem State.ctx?_of_distinct {s : State} (h : (s.ctxs.map Ctx.id).Nodup) {c : Ctx} (hc : c ∈ s.ctxs) :
    s.ctx? c.id = some c := by
  unfold State.ctx?
  generalize s.ctxs = l at h hc ⊢
  induction l with
  | nil => cases hc
  | cons x l ih =>
    obtain ⟨hx, hl⟩ := List.nodup_cons.mp h
    obtain rfl | hc := List.mem_cons.mp hc
    · simp
    · have other : x.id ≠ c.id := fun e => hx (e ▸ List.mem_map_of_mem hc)
      rw [List.find?_cons_of_neg (by simpa using other)]
      exact ih hl hc

theorem State.endsLost_of_named {s : State} {c : Ctx} (named : s.ctx? c.id = some c)
    (hl : c.reset.any CtxReset.lost = true) : s.endsLost c.id := by
  intro r hr
  rw [named, Option.bind_some] at hr
  rwa [hr, Option.any_some] at hl

theorem LosesOnly.returnDie {s : State} (h : s.noHandles) (distinct : (s.ctxs.map Ctx.id).Nodup) (r : PartReset) :
    LosesOnly (s.portsReturned r.die) (s.returnDie r) := by
  rw [State.returnDie_eq]
  obtain ⟨ports, hs⟩ := s.portsReturned_eq r.die
  rw [hs]
  refine (raise ?_ ..).andThen fun k => ((returnCtxs k r.die fun c hc hl => ?_).andThen fun k => answerBusy k _).andThen
    fun k => answerBusy k _
  · exact h
  · exact State.endsLost_of_named (State.ctx?_of_distinct distinct hc) hl

/-- PARTITION_ZERO_DONE (R376, R379), where the contexts have distinct ids: `twoRecords` below, where two have one id, shows
that without this the memory of the die need not read 0. -/
theorem exec_partitionZeroDone {s : State} {d : Nat} {r : PartReset}
    (h : s.resets.parts.find? (fun x => x.die == d) = some r) (hp : r.phase = .zero) (closed : s.noHandles)
    (distinct : (s.ctxs.map Ctx.id).Nodup) :
    ∃ t, exec (.partitionZeroDone d) s = .next t ∧ t.resets.parts = s.resets.parts.filter (fun x => x.die != d) ∧
      (∀ a w, pageOf? a = some w → pageDie w = d → memRead t.mem a = 0) ∧
      (∀ p q, p / 8 = d → s.port? p = some q → q.phase ≠ .retired → ∃ x, t.port? p = some x ∧ x.phase = .probe) := by
  have hd : r.die = d := by simpa using List.find?_some h
  obtain ⟨free, flash, sed, bg, arbiter, zeroed⟩ := (s.partMoved d .zero).zeroDie_eq d
  have loses : LosesOnly (((s.partMoved d .zero).zeroDie d).portsReturned d) (s.partPhase d .zero .zero fun r s =>
      (s.zeroDie d).returnDie r) := by
    rw [State.partPhase_eq h hp]
    subst hd
    exact .returnDie (by rw [zeroed]; exact closed) (by rw [zeroed]; exact distinct) r
  obtain ⟨ports, returned⟩ := ((s.partMoved d .zero).zeroDie d).portsReturned_eq d
  refine ⟨_, rfl, loses.parts.trans ?_, fun a w hw hd => ?_, fun p q hpd hq hr => ?_⟩
  · rw [returned, zeroed]
    exact s.partMoved_others d .zero
  · rw [loses.mem, returned, zeroed]
    exact memRead_zeroedMem hw hd
  · have here : ((s.partMoved d .zero).zeroDie d).port? p = some q := by rw [zeroed]; exact hq
    have phase := loses.phases p
    rw [State.port?_portsReturned hpd here hr, Option.map_some, Option.map_eq_some_iff] at phase
    exact phase

/-! ## What brings a partition reset about -/

/-- A heartbeat that a die's controller misses (R369). -/
theorem exec_controllerHeartbeatExpiry {s : State} {path : Nat} (hp : pathKnown path = true)
    (hc : (1 ≤ path / 256 ∧ path / 256 ≤ 3) ∨ path / 256 = 7) :
    exec (.controllerHeartbeatExpiry path) s = exec (.partitionReset (pathDie path) 9) s := if_pos ⟨hp, hc⟩

/-- An uncorrectable error in the state of a die's controller, and in that of one which only a chip reset resets (R375). -/
theorem exec_controlStateUe {s : State} {path : Nat} (hp : pathKnown path = true) :
    (chipDomain path = false → exec (.controlStateUe path) s = exec (.partitionReset (pathDie path) 0xD) s) ∧
      (chipDomain path = true → s.powered = true → exec (.controlStateUe path) s = .next (s.chipReset 0xD)) := by
  have known : exec (.controlStateUe path) s = _ := if_neg (by simp [hp])
  refine ⟨fun hc => known.trans (if_neg (by simp [hc])), fun hc hs => known.trans ?_⟩
  exact (if_pos hc).trans (if_pos hs)

end Sys2Proof.Machine
end

section
/-! PROOFS. That a partition reset runs through its phases fails where two context records carry one id: each row has its
lemma above (`exec_partitionReset` to `exec_controlStateUe`), and `exec_partitionZeroDone` alone asks for distinct ids. The
statement speaks of every state, also of those that ADMIT, which gives an id that no context has, does not make (R343). -/

namespace Sys2Proof.Machine

/-- A reset of a context that waits for die 0 only. -/
def waitsForDie0 (lost : Bool) : CtxReset :=
  { cause := 5, start := 0, stopped := true, release := false, dies := [0], lost }

/-- A record of context 0 that is to be restored: its window page lies on die 0, and the snapshot slot of that page on
die 1. -/
def restoredRecord : Ctx :=
  { Ctx.admitted 0 { reference := false, policy := .cont, commonsOwner := false, hangMs := 250, seed := [], owner := 9 }
      1 with
    phase := .resetting
    reset := some (waitsForDie0 false)
    pages := { CtxPages.empty with window := [⟨16384, 16384⟩], area := [90112, 90113] }
    snap := some { slots := [16384], area := 1, pending := [], dirty := [], step := 0, at_ := 0, complete := true,
                   announce := none, ofPlan := false } }

/-- A second record of context 0, which counts as lost. -/
def lostRecord : Ctx := { restoredRecord with reset := some (waitsForDie0 true) }

/-- Die 0 at the end of its partition reset, with both records and one byte in the snapshot slot on die 1. -/
def twoRecords : State :=
  { State.reset with
    ctxs := [restoredRecord, lostRecord], mem := [(pageAddr 90112, 1)]
    resets := { State.reset.resets with
      parts := [{ die := 0, cause := 1, phase := .zero, start := 0, seq := 1, included := [0] }] } }

/-- The state in which die 0 has returned. -/
def twoRecordsReturned : State :=
  twoRecords.partPhase 0 .zero .zero fun r s => (s.zeroDie 0).returnDie r

theorem exec_partitionZeroDone_twoRecords : exec (.partitionZeroDone 0) twoRecords = .next twoRecordsReturned := rfl

/-- The byte of the slot stands on die 0. -/
theorem memRead_twoRecordsReturned : memRead twoRecordsReturned.mem (pageAddr 16384) = 1 := by decide +kernel

/-- Refutes O57: when die 0 of `twoRecords` returns, the second record calls for the end of context 0's reset because it
is lost; the reset that then ends is that of the first record of that id, which is not lost, and its restore copies the
snapshot slot back onto the zeroed die. -/
theorem not_partitionResetsRunThroughTheirPhases : ¬ Obligations.PartitionResetsRunThroughTheirPhases := by
  unfold Obligations.PartitionResetsRunThroughTheirPhases
  intro h
  obtain ⟨-, phases, -⟩ := h twoRecords 0
  obtain ⟨-, -, -, -, zero⟩ := phases { die := 0, cause := 1, phase := .zero, start := 0, seq := 1, included := [0] } rfl
  obtain ⟨t, run, -, zeroed, -⟩ := zero rfl (by decide)
  have reads : memRead t.mem (pageAddr 16384) = 0 := zeroed (pageAddr 16384) 16384 (by decide) (by decide)
  have same : twoRecordsReturned = t := Host.Outcome.next.inj (exec_partitionZeroDone_twoRecords.symm.trans run)
  rw [← same, memRead_twoRecordsReturned] at reads
  exact absurd reads (by decide)

end Sys2Proof.Machine
end

section
/-! PROOFS. What the rows of the vector, conversion, copy, product and update instructions come to, executed or faulted
(R68, R98, R157, R180). -/

namespace Sys2Proof.Machine

/-! ## Issued instructions -/

/-- An issued instruction of a loaded plan, outside a context reset and an engine reset: one that its row runs. -/
structure RunsIssued (s : State) (r : InstrRef) (f : Found) (p : Plan) : Prop where
  found : s.found? r = some f
  issued : f.p.phase = .issued
  notResetting : f.ctx.phase ≠ .resetting
  engine : s.engineStopped f = false
  plan : f.ctx.plan = some p

namespace RunsIssued

variable {s : State} {r : InstrRef} {f : Found} {p : Plan} {op : Nat} {undo : Found → Plan → State → State}
  {act : Found → Plan → State → Except Fail State} {i : Instr} {u : State} {e : Fail}

/-- The row of an instruction's opcode, where its effect succeeds. -/
theorem executes (h : RunsIssued s r f p)
    (row : exec i s = .next (s.runIssuedWith r (fun f => wOp f.words == op) undo act)) (hop : wOp f.words = op)
    (ha : act f p s = .ok u) : exec i s = .next (u.setPhase r .executed) := by
  obtain ⟨found, issued, notResetting, engine, plan⟩ := h
  simp [row, State.runIssuedWith, found, hop, issued, notResetting, engine, plan, ha]

/-- The row of an instruction's opcode, where its effect fails (R98). -/
theorem faults (h : RunsIssued s r f p)
    (row : exec i s = .next (s.runIssuedWith r (fun f => wOp f.words == op) undo act)) (hop : wOp f.words = op)
    (ha : act f p s = .error e) : exec i s = .next (((undo f p s).setPhase r .retired).fault r.ctx f.path e) := by
  obtain ⟨found, issued, notResetting, engine, plan⟩ := h
  simp [row, State.runIssuedWith, found, hop, issued, notResetting, engine, plan, ha]

end RunsIssued

/-! ## The rows of the issued instructions: what each runs, and what it undoes when it fails (R98) -/

section
variable (r : InstrRef) (s : State)

theorem exec_vecElt : exec (.vecElt r) s =
    .next (s.runIssued r (fun f => wOp f.words == 0x20) (fun f _ => [wHi f.words 5])
      fun f p s => s.vecElt f p) := rfl

theorem exec_vecRowred : exec (.vecRowred r) s =
    .next (s.runIssued r (fun f => wOp f.words == 0x21) (fun f _ => [wLo f.words 5])
      fun f p s => s.vecRowred f p) := rfl

theorem exec_rowstatFwd : exec (.rowstatFwd r) s =
    .next (s.runIssued r (fun f => wOp f.words == 0x22) (fun f _ => [wHi f.words 5])
      fun f p s => s.rowStatistic f p (wHi f.words 5) 0xFFFF (wLo f.words 5) false) := rfl

theorem exec_rowstatBwd : exec (.rowstatBwd r) s =
    .next (s.runIssued r (fun f => wOp f.words == 0x23) (fun f _ => [wHi f.words 5])
      fun f p s => s.rowStatistic f p (wHi f.words 5) (wLo f.words 5) 0xFFFF true) := rfl

theorem exec_dropout : exec (.dropout r) s =
    .next (s.runIssued r (fun f => wOp f.words == 0x24) (fun f _ => [wHi f.words 4])
      fun f p s => s.dropout f p) := rfl

theorem exec_initTensor : exec (.initTensor r) s =
    .next (s.runIssued r (fun f => wOp f.words == 0x25) (fun f _ => [wLo f.words 4])
      fun f p s => s.initialise f p) := rfl

theorem exec_sample : exec (.sample r) s =
    .next (s.runIssuedWith r (fun f => wOp f.words == 0x26)
      (fun f p s => ((p.tensors[wHi f.words 4]?).toList).foldl (fun s t => s.undefView r.ctx (tokenRow t f.run.iter)) s)
      fun f p s => s.sample f p) := rfl

theorem exec_clipSum : exec (.clipSum r) s =
    .next (s.runIssuedWith r (fun f => wOp f.words == 0x27)
      (fun f p s => s.undefRange r.ctx (leAt (p.arg (wHi f.words 4)) 0 6) 8)
      fun f p s => s.clipSum f p) := rfl

theorem exec_clipFinish : exec (.clipFinish r) s =
    .next (s.runIssuedWith r (fun f => wOp f.words == 0x28)
      (fun f p s => s.undefRange r.ctx (leAt (p.arg (wLo f.words 4)) 8 6 + 16) 16)
      fun f p s => s.clipFinish f p) := rfl

theorem exec_convert : exec (.convert r) s =
    .next (s.runIssued r (fun f => wOp f.words == 0x30) (fun f _ => [wHi f.words 4])
      fun f p s => s.convert f p) := rfl

theorem exec_copy : exec (.copy r) s =
    .next (s.runIssuedWith r (fun f => wOp f.words == 0x40)
      (fun f _ s => s.undefRange r.ctx (copyDst f.words) (copyLen f.words))
      fun f _ s => s.moveCopy f.ctx f.words) := rfl

end

/-! ## Array products -/

/-- A placed product of a loaded plan, outside a context reset, that its grains have accepted, whose waits hold and of
which no item is left (R157, R161): one that its row runs. -/
structure RunsProduct (s : State) (r : InstrRef) (f : Found) (p : Plan) (out : Tensor) : Prop where
  found : s.found? r = some f
  placed : f.p.phase = .placed
  notResetting : f.ctx.phase ≠ .resetting
  accepted : s.allAccepted f = true
  noItems : s.itemsLeft r = false
  waits : s.waitHolds f = true
  plan : f.ctx.plan = some p
  output : p.tensors[(productOf f.words).output]? = some out

namespace RunsProduct

variable {s : State} {r : InstrRef} {f : Found} {p : Plan} {out : Tensor} {op : Nat} {i : Instr} {u : State} {e : Fail}

/-- The row of a product's opcode, where its effect succeeds. -/
theorem executes (h : RunsProduct s r f p out) (row : exec i s = .next (s.runProduct r op)) (hop : wOp f.words = op)
    (hu : s.product f p out (productOf f.words).output = .ok u) : exec i s = .next (u.setPhase r .executed) := by
  obtain ⟨found, placed, notResetting, accepted, noItems, waits, plan, output⟩ := h
  simp [row, State.runProduct, found, hop, placed, notResetting, accepted, noItems, waits, plan, output, hu]

/-- The row of a product's opcode, where its effect fails (R98). -/
theorem faults (h : RunsProduct s r f p out) (row : exec i s = .next (s.runProduct r op)) (hop : wOp f.words = op)
    (he : s.product f p out (productOf f.words).output = .error e) :
    exec i s = .next ((s.undefView r.ctx (out.view f.run.iter)).fault r.ctx f.path e) := by
  obtain ⟨found, placed, notResetting, accepted, noItems, waits, plan, output⟩ := h
  simp [row, State.runProduct, found, hop, placed, notResetting, accepted, noItems, waits, plan, output, he]

end RunsProduct

/-! ## OPTIMISE -/

section
variable {s : State} {r : InstrRef} {f : Found} {p : Plan} (found : s.found? r = some f) (hop : wOp f.words = 0x32)
  (issued : f.p.phase = .issued) (placing : f.ctx.placing = true) (plan : f.ctx.plan = some p)
include found hop issued placing plan

/-- An update whose gate has no read missing and whose effect succeeds (R180). -/
theorem exec_optimise_ok (gate : s.gateMissing f = .ok 0) {u : State} {rep : Option (Nat × Nat)}
    (hu : s.optimise f p = .ok (u, rep)) :
    exec (.optimise r) s = .next (u.mapPlaced r fun q => { q with phase := .executed, upd := rep, gateDue := none }) := by
  simp [exec, execOptimise, found, hop, issued, placing, plan, gate, hu]

/-- An update whose gate cannot be read, or whose effect fails (R98). -/
theorem exec_optimise_error {e : Fail}
    (fails : (s.gateMissing f = .ok 0 ∧ s.optimise f p = .error e) ∨ s.gateMissing f = .error e) :
    exec (.optimise r) s = .next ((s.optimiseFailed f p).fault r.ctx f.path e) := by
  rcases fails with ⟨gate, he⟩ | gate
  · simp [exec, execOptimise, found, hop, issued, placing, plan, gate, he]
  · simp [exec, execOptimise, found, hop, issued, placing, plan, gate]

end

/-! ## Every lane instruction -/

/-- Settles O11: each row runs its instruction by `runIssuedWith`, `runProduct` or `execOptimise`, and the lemmas above say
what each of the three comes to. -/
theorem laneInstructionsExecute : Obligations.LaneInstructionsExecute := by
  unfold Obligations.LaneInstructionsExecute
  refine ⟨fun s u r f p found issued notResetting engine plan => ?_, fun s u r f p out found plan => ⟨?_, ?_⟩,
    fun s r f p e found issued notResetting engine plan => ?_, fun s r f p e found plan => ⟨?_, ?_⟩⟩
  · have h : RunsIssued s r f p := ⟨found, issued, notResetting, engine, plan⟩
    exact ⟨h.executes (exec_vecElt r s), h.executes (exec_vecRowred r s), h.executes (exec_rowstatFwd r s),
      h.executes (exec_rowstatBwd r s), h.executes (exec_dropout r s), h.executes (exec_initTensor r s),
      h.executes (exec_sample r s), h.executes (exec_clipSum r s), h.executes (exec_clipFinish r s),
      h.executes (exec_convert r s)⟩
  · intro placed notResetting accepted noItems waits output hu
    have h : RunsProduct s r f p out := ⟨found, placed, notResetting, accepted, noItems, waits, plan, output⟩
    exact ⟨fun op => h.executes rfl op hu, fun op => h.executes rfl op hu⟩
  · intro rep op issued placing gate hu
    exact exec_optimise_ok found op issued placing plan gate hu
  · have h : RunsIssued s r f p := ⟨found, issued, notResetting, engine, plan⟩
    refine ⟨h.faults (exec_vecElt r s), h.faults (exec_convert r s), h.faults (exec_vecRowred r s),
      h.faults (exec_rowstatFwd r s), h.faults (exec_rowstatBwd r s), h.faults (exec_dropout r s),
      h.faults (exec_initTensor r s), fun op ha d hd => ?_, h.faults (exec_clipSum r s),
      h.faults (exec_clipFinish r s), h.faults (exec_copy r s)⟩
    simpa only [hd, Option.toList_some, List.foldl_cons, List.foldl_nil] using h.faults (exec_sample r s) op ha
  · intro out placed notResetting accepted noItems waits output fails
    have h : RunsProduct s r f p out := ⟨found, placed, notResetting, accepted, noItems, waits, plan, output⟩
    exact ⟨fun op => h.faults rfl op fails, fun op => h.faults rfl op fails⟩
  · intro op issued placing fails
    exact exec_optimise_error found op issued placing plan fails

end Sys2Proof.Machine
end

section
/-! PROOFS. What a control instruction comes to that its lane issues on active units (R268, R464), and the register writes
and the commit among them (R65, R128, R278, R279, R478). -/

namespace Sys2Proof.Machine

/-! ## The decision of R268 -/

/-- What the decision can do: nothing, or an update of the context the operand names. -/
theorem State.decideEntry_cases (s : State) (r : InstrRef) :
    s.decideEntry r = s ∨ ∃ f : Ctx → Ctx, (∀ c, (f c).id = c.id) ∧ s.decideEntry r = s.mapCtx r.ctx f := by
  unfold State.decideEntry
  split
  · exact .inl rfl
  · next c hc =>
    split
    · split
      · rw [State.ctx?_id hc]
        refine .inr ⟨_, fun _ => ?_, rfl⟩
        rfl
      · exact .inl rfl
    · exact .inl rfl

theorem State.decideEntry_mem (s : State) (r : InstrRef) : (s.decideEntry r).mem = s.mem := by
  rcases s.decideEntry_cases r with e | ⟨f, -, e⟩ <;> simp [e]

theorem SameDevice.decideEntry (s : State) (r : InstrRef) : SameDevice s (s.decideEntry r) := by
  rcases s.decideEntry_cases r with e | ⟨f, -, e⟩ <;> rw [e]
  · exact .refl s
  · exact .mapCtx ..

theorem SameOthers.decideEntry (s : State) (r : InstrRef) : SameOthers r.ctx s (s.decideEntry r) := by
  rcases s.decideEntry_cases r with e | ⟨f, hf, e⟩ <;> rw [e]
  · exact SameOthers.refl r.ctx s
  · exact SameOthers.mapCtx s r.ctx hf

/-! ## Work for active units -/

theorem State.enable_of_active {s : State} {p : Nat} (h : s.active p = true) : s.enable p = s := by
  simp only [State.active, Bool.and_eq_true, beq_iff_eq, Option.isNone_iff_eq_none] at h
  obtain ⟨⟨state, entering⟩, -⟩ := h
  simp [State.enable, state, entering]

theorem State.wake_of_active {s : State} {l : List Nat} (h : l.all s.active = true) : s.wake l = s := by
  induction l with
  | nil => rfl
  | cons p l ih =>
    rw [List.all_cons, Bool.and_eq_true] at h
    obtain ⟨hp, hl⟩ := h
    rw [State.wake, List.foldl_cons, State.enable_of_active hp]
    exact ih hl

/-! ## Control instructions -/

/-- What an operand names is found in the context it names. -/
theorem State.ctx?_of_found {s : State} {r : InstrRef} {f : Found} (h : s.found? r = some f) : s.ctx? r.ctx = some f.ctx := by
  unfold State.found? at h
  split at h
  · cases h
  · next c hc =>
    split at h
    · cases h
    · split at h
      · cases h
      · cases h
        exact hc

section
variable {s : State} {r : InstrRef} {f : Found} {ok : Found → Bool} {act : Found → State → Except Fail State} {i : Instr}
  (found : (s.decideEntry r).found? r = some f) (issuable : (s.decideEntry r).issuable f = true)
  (active : ((s.decideEntry r).workUnits f).all (s.decideEntry r).active = true)
include found issuable active

/-- The row of a control instruction whose effect succeeds: the instruction completes. -/
theorem exec_control_ok (row : exec i s = .next (s.control r ok act)) (hok : ok f = true) {v : State}
    (ha : act f (s.decideEntry r) = .ok v) : exec i s = .next (v.completeInstr r f) := by
  simp [row, State.control, found, hok, issuable, State.wake_of_active active, active, ha]

/-- The row of a control instruction whose effect fails: the context faults. -/
theorem exec_control_error (row : exec i s = .next (s.control r ok act)) (hok : ok f = true) {e : Fail}
    (ha : act f (s.decideEntry r) = .error e) : exec i s = .next ((s.decideEntry r).fault r.ctx f.path e) := by
  simp [row, State.control, found, hok, issuable, State.wake_of_active active, active, ha]

end

/-! ## Register writes -/

theorem writePed4_id (c : Ctx) (off value mask : Nat) : (writePed4 c off value mask).id = c.id := by
  unfold writePed4
  split <;> rfl

theorem writeBlock_id (c : Ctx) (now path off value mask : Nat) : (writeBlock c now path off value mask).id = c.id := by
  unfold writeBlock
  split
  · exact writePed4_id ..
  · split
    · rfl
    · split <;> rfl

theorem State.regWrite_id (s : State) (c : Ctx) (path : Nat) (grains : Bool) (off value mask : Nat) :
    (s.regWrite c path grains off value mask).id = c.id := by
  unfold State.regWrite
  split
  · exact List.foldlRecOn (motive := fun d : Ctx => d.id = c.id) _ _ rfl
      fun d hd g _ => (writeBlock_id d ..).trans hd
  · exact writeBlock_id ..

theorem SameDevice.doRegWrite (s : State) (f : Found) : SameDevice s (s.doRegWrite f) := .mapCtx ..

theorem SameOthers.doRegWrite (s : State) (f : Found) : SameOthers f.ctx.id s (s.doRegWrite f) :=
  SameOthers.mapCtx _ _ fun c => s.regWrite_id c ..

/-- Settles O8: the decision leaves the rest of the state as it was, and units that are active are not woken, so that each
row's effect is on `s.decideEntry r`. -/
theorem registerWritesComplete : Obligations.RegisterWritesComplete := by
  unfold Obligations.RegisterWritesComplete
  constructor
  · rintro s _ r f rfl found issuable active hop
    have hid : f.ctx.id = r.ctx := State.ctx?_id (State.ctx?_of_found found)
    refine ⟨fun hfpcsr hhint => ?_, fun hfpcsr => ?_, fun hhint => ?_, ?_, ?_, ?_⟩
    · exact exec_control_ok found issuable active rfl (by simp [hop, hfpcsr, hhint]) rfl
    · exact exec_control_ok found issuable active rfl hfpcsr rfl
    · exact exec_control_ok found issuable active rfl hhint rfl
    · exact s.decideEntry_mem r
    · exact (SameDevice.decideEntry s r).trans (.doRegWrite _ f)
    · exact SameOthers.trans (hid ▸ SameOthers.decideEntry s r) (.doRegWrite _ f)
  · rintro s _ v r f p e rfl found hop issuable active hp
    constructor <;> intro commits
    · refine exec_control_ok found issuable active rfl ?_ ?_
      · exact beq_iff_eq.mpr hop
      · simpa only [hp] using commits
    · refine exec_control_error found issuable active rfl ?_ ?_
      · exact beq_iff_eq.mpr hop
      · simpa only [hp] using commits

end Sys2Proof.Machine
end

section
/-! PROOFS. A context's fault (R98, R256, R377, R384): what the failure leaves noted in the context, the reset that it
starts, and what both leave as it was. -/

namespace Sys2Proof.Machine

/-! ## What a fault notes in the context -/

/-- A failure as its context shows it: the code on the ped, and each mismatch on its grain (R98, R100). -/
def Ctx.noteFail (path : Nat) (e : Fail) (c : Ctx) : Ctx :=
  (e.skew.toList ++ e.also).foldl Ctx.noteSkew (c.setPath path { c.path path with fault := e.code })

theorem Ctx.noteSkew_eq (c : Ctx) (k : Mismatch) : ∃ grains, c.noteSkew k = { c with grains } := by
  unfold Ctx.noteSkew
  split
  · exact ⟨_, rfl⟩
  · exact ⟨c.grains, rfl⟩

theorem Ctx.noteSkews_eq (l : List Mismatch) (c : Ctx) : ∃ grains, l.foldl Ctx.noteSkew c = { c with grains } := by
  refine List.foldlRecOn (motive := fun d : Ctx => ∃ grains, d = { c with grains }) l _ ⟨c.grains, rfl⟩ ?_
  rintro _ ⟨gs, rfl⟩ k _
  exact Ctx.noteSkew_eq _ k

/-- Beside the code on the ped, only the grains' registers change. -/
theorem Ctx.noteFail_eq (path : Nat) (e : Fail) (c : Ctx) :
    ∃ grains, c.noteFail path e = { c.setPath path { c.path path with fault := e.code } with grains } :=
  Ctx.noteSkews_eq ..

theorem Ctx.noteFail_id (path : Nat) (e : Fail) (c : Ctx) : (c.noteFail path e).id = c.id := by
  obtain ⟨gs, h⟩ := c.noteFail_eq path e
  rw [h]
  rfl

theorem Ctx.noteFail_phase (path : Nat) (e : Fail) (c : Ctx) : (c.noteFail path e).phase = c.phase := by
  obtain ⟨gs, h⟩ := c.noteFail_eq path e
  rw [h]
  rfl

/-! ## The reset begins -/

theorem SameDevice.of_log {s t : State} (h : SameButLog s t) : SameDevice s t := by
  obtain ⟨sed, rfl⟩ := h
  exact ⟨⟨rfl, rfl, rfl, rfl, rfl, rfl⟩, rfl, rfl, rfl⟩

theorem SameDevice.dropItems (s : State) (id : Nat) : SameDevice s (s.dropItems id) :=
  ⟨⟨rfl, rfl, rfl, rfl, rfl, rfl⟩, rfl, rfl, rfl⟩

theorem SameDevice.beginCtxReset (s : State) (id cause : Nat) : SameDevice s (s.beginCtxReset id cause) := by
  unfold State.beginCtxReset
  split
  · exact .refl s
  · split
    · exact .refl s
    · exact ((of_log (.writeNow s ..)).trans (.dropItems ..)).trans (.mapCtx ..)

/-- A context that is RESETTING starts no second reset (R377). -/
theorem State.beginCtxReset_of_resetting {s : State} {id : Nat} {c : Ctx} (h : s.ctx? id = some c)
    (hp : c.phase = .resetting) (cause : Nat) : s.beginCtxReset id cause = s := by
  simp only [State.beginCtxReset, h, if_pos hp]

theorem State.ctx?_beginCtxReset {s : State} {id : Nat} {c : Ctx} (h : s.ctx? id = some c) (hp : c.phase ≠ .resetting)
    (cause : Nat) : (s.beginCtxReset id cause).ctx? id = some (c.enterReset cause s.now s.opMs) := by
  simp only [State.beginCtxReset, h, if_neg hp]
  obtain ⟨sed, logged⟩ := SameButLog.writeNow s 0x5002 cause pkgPath id
  rw [logged]
  exact State.ctx?_mapCtx_self h fun _ => rfl

/-! ## The fault -/

/-- A fault is logged, noted, and noted again once the reset it starts has cleared what stood there (R98, R100). -/
theorem State.fault_eq (s : State) (id path : Nat) (e : Fail) :
    ∃ v, SameButLog s v ∧
      s.fault id path e = ((v.mapCtx id (Ctx.noteFail path e)).beginCtxReset id 2).mapCtx id (Ctx.noteFail path e) := by
  have raised (t : State) (code detail src : Nat) : SameButLog t (t.raise code detail src id) := .of_sed t _
  refine ⟨_, ?_, rfl⟩
  exact List.foldlRecOn (motive := SameButLog s) _ _ (raised ..) fun t ht k _ => ht.trans (raised ..)

theorem State.fault_mem (s : State) (id path : Nat) (e : Fail) : (s.fault id path e).mem = s.mem := by
  obtain ⟨v, logged, faulted⟩ := s.fault_eq id path e
  rw [faulted]
  exact (((KeepsStored.of_log logged).trans (.mapCtx ..)).trans (.beginCtxReset ..)).mem

theorem SameDevice.fault (s : State) (id path : Nat) (e : Fail) : SameDevice s (s.fault id path e) := by
  obtain ⟨v, logged, faulted⟩ := s.fault_eq id path e
  rw [faulted]
  exact (((SameDevice.of_log logged).trans (.mapCtx ..)).trans (.beginCtxReset ..)).trans (.mapCtx ..)

theorem SameOthers.fault (s : State) (id path : Nat) (e : Fail) : SameOthers id s (s.fault id path e) := by
  obtain ⟨_, ⟨sed, rfl⟩, faulted⟩ := s.fault_eq id path e
  rw [faulted]
  have noted (t : State) : SameOthers id t (t.mapCtx id (Ctx.noteFail path e)) := .mapCtx t id (Ctx.noteFail_id path e)
  have reset := (noted { s with sed }).trans (.beginCtxReset _ id 2)
  exact reset.trans (noted _)

/-- The context as a fault leaves it: RESETTING, with the failure noted anew. -/
theorem State.ctx?_fault {s : State} {id : Nat} {c : Ctx} (h : s.ctx? id = some c) (hp : c.phase ≠ .resetting)
    (path : Nat) (e : Fail) :
    ∃ opMs, (s.fault id path e).ctx? id = some (((c.noteFail path e).enterReset 2 s.now opMs).noteFail path e) := by
  obtain ⟨_, ⟨sed, rfl⟩, faulted⟩ := s.fault_eq id path e
  have noted : ({ s with sed }.mapCtx id (Ctx.noteFail path e)).ctx? id = some (c.noteFail path e) :=
    State.ctx?_mapCtx_self h (Ctx.noteFail_id path e)
  have reset := State.ctx?_beginCtxReset noted (by rwa [Ctx.noteFail_phase]) 2
  exact ⟨_, faulted ▸ State.ctx?_mapCtx_self reset (Ctx.noteFail_id path e)⟩

/-- Settles O12: the note that follows the reset puts the code on the ped, and neither the notes nor the reset's start
touches the context's steps, counters, plan or pages. -/
theorem faultStartsAContextReset : Obligations.FaultStartsAContextReset := by
  unfold Obligations.FaultStartsAContextReset
  refine ⟨fun s id path e c h hp => ?_, fun s id cause c h hp => State.beginCtxReset_of_resetting h hp cause⟩
  obtain ⟨opMs, shown⟩ := State.ctx?_fault h hp path e
  obtain ⟨before, hbefore⟩ := c.noteFail_eq path e
  obtain ⟨after, hafter⟩ := ((c.noteFail path e).enterReset 2 s.now opMs).noteFail_eq path e
  rw [hafter, hbefore] at shown
  refine ⟨_, _, shown, rfl, ?_, rfl, rfl, rfl, rfl, rfl, rfl, rfl, s.fault_mem id path e, .fault s id path e,
    .fault s id path e⟩
  exact congrArg PathRegs.fault ((Ctx.path_setPath _ path path _).trans (if_pos rfl))

end Sys2Proof.Machine
end

section
/-! PROOFS. The schedulers of the grains: the order of their items (R155, R158), and what a fault leaves of their windows
(R156, R160). -/

namespace Sys2Proof.Machine

/-! ## The oldest item (R155) -/

theorem firstItem_mem {l : List Item} {i : Item} (h : firstItem l = some i) : i ∈ l := by
  induction l generalizing i with
  | nil => cases h
  | cons k l ih =>
    simp only [firstItem] at h
    split at h
    · cases h
      exact List.mem_cons_self
    · next j hj =>
      split at h <;> cases h
      · exact List.mem_cons_of_mem _ (ih hj)
      · exact List.mem_cons_self

theorem Item.stamp_le_of_before {a b : Item} (h : a.before b = true) : a.stamp ≤ b.stamp := by
  unfold Item.before at h
  split at h
  · exact (of_decide_eq_true h).le
  · next equal => exact (not_not.mp equal).le

theorem Item.stamp_le_of_not_before {a b : Item} (h : ¬ a.before b = true) : b.stamp ≤ a.stamp := by
  unfold Item.before at h
  split at h
  · exact not_lt.mp fun lt => h (decide_eq_true lt)
  · next equal => exact (not_not.mp equal).ge

theorem firstItem_eq_none {l : List Item} (h : firstItem l = none) : l = [] := by
  cases l with
  | nil => rfl
  | cons k l =>
    simp only [firstItem] at h
    split at h
    · cases h
    · split at h <;> cases h

theorem firstItem_stamp_le {l : List Item} {i : Item} (h : firstItem l = some i) : ∀ j ∈ l, i.stamp ≤ j.stamp := by
  induction l generalizing i with
  | nil => cases h
  | cons k l ih =>
    simp only [firstItem] at h
    split at h
    · next hl =>
      cases h
      simp [firstItem_eq_none hl]
    · next m hm =>
      split at h <;> cases h
      · next before => exact List.forall_mem_cons.mpr ⟨Item.stamp_le_of_before before, ih hm⟩
      · next before =>
        exact List.forall_mem_cons.mpr ⟨le_rfl, fun j hj => (Item.stamp_le_of_not_before before).trans (ih hm j hj)⟩

theorem Item.follows_iff (i j : Item) : i.follows j = true ↔ j.ref = i.ref ∧ j.stamp = i.stamp ∧ j.number < i.number := by
  simp [Item.follows, and_assoc]

/-- Beneath every item of a list stands one of its instruction and stamp that follows no other. -/
theorem exists_unfollowing {l : List Item} {j : Item} (hj : j ∈ l) :
    ∃ k ∈ l.filter (fun i => !(l.any i.follows)), k.stamp = j.stamp := by
  induction hn : j.number using Nat.strong_induction_on generalizing j with
  | _ n ih =>
    by_cases follows : l.any j.follows = true
    · obtain ⟨m, hm, older⟩ := List.any_eq_true.mp follows
      obtain ⟨-, stamp, number⟩ := (Item.follows_iff j m).mp older
      obtain ⟨k, hk, same⟩ := ih m.number (hn ▸ number) hm rfl
      exact ⟨k, hk, same.trans stamp⟩
    · exact ⟨j, List.mem_filter.mpr ⟨hj, by simpa using follows⟩, rfl⟩

theorem oldestItem_mem {l : List Item} {i : Item} (h : oldestItem l = some i) : i ∈ l :=
  (List.mem_filter.mp (firstItem_mem h)).1

/-- No item of a list is older than its oldest, by the stamp and, within one instruction, the item number. -/
theorem oldestItem_le {l : List Item} {i j : Item} (h : oldestItem l = some i) (hj : j ∈ l) :
    i.stamp ≤ j.stamp ∧ (i.stamp = j.stamp → i.ref = j.ref → i.number ≤ j.number) := by
  constructor
  · obtain ⟨k, hk, stamp⟩ := exists_unfollowing hj
    exact (firstItem_stamp_le h k hk).trans stamp.le
  · intro stamp ref
    have unfollowing : ¬ l.any i.follows = true := by simpa using (List.mem_filter.mp (firstItem_mem h)).2
    refine not_lt.mp fun number => unfollowing (List.any_eq_true.mpr ⟨j, hj, ?_⟩)
    exact (Item.follows_iff i j).mpr ⟨ref.symm, stamp.symm, number⟩

/-! ## Schedulers after an operation -/

theorem State.sched_congr {s t : State} (h : t.scheds = s.scheds) (g : Nat) : t.sched g = s.sched g := by
  rw [State.sched, h, State.sched]

theorem State.sched_setSched_self (s : State) (g : Nat) (q : Sched) : (s.setSched g q).sched g = q :=
  (s.sched_setSched g g q).trans (if_pos rfl)

/-- A keyed value of a list whose values are all mapped by a function that keeps the default. -/
theorem getKey_map {α : Type} {d : α} {f : α → α} (hf : f d = d) (l : List (Nat × α)) (k : Nat) :
    getKey d (l.map fun p => (p.1, f p.2)) k = f (getKey d l k) := by
  simp only [getKey, List.find?_map, Function.comp_def]
  cases l.find? fun p => p.1 == k with
  | none => exact hf.symm
  | some p => rfl

/-- A scheduler without the items of a context (R160). -/
def Sched.dropCtx (id : Nat) (q : Sched) : Sched :=
  { q with
    queue := q.queue.filter fun i => i.ref.ctx != id
    fwd := q.fwd.filter fun i => i.ref.ctx != id
    bwd := q.bwd.filter fun i => i.ref.ctx != id
    running := q.running.filter fun r => r.2.1.ref.ctx != id }

theorem State.sched_dropItems (s : State) (id g : Nat) : (s.dropItems id).sched g = (s.sched g).dropCtx id :=
  getKey_map (f := Sched.dropCtx id) rfl s.scheds g

/-- What an enable can do: nothing, or an update of the unit's power record. -/
theorem State.enable_cases (s : State) (p : Nat) : s.enable p = s ∨ ∃ u, s.enable p = s.setUnit p u := by
  unfold State.enable
  dsimp only
  split
  · split <;> exact .inr ⟨_, rfl⟩
  · split
    · exact .inr ⟨_, rfl⟩
    · exact .inl rfl

theorem State.enable_scheds (s : State) (p : Nat) : (s.enable p).scheds = s.scheds := by
  rcases s.enable_cases p with e | ⟨u, e⟩ <;> simp [e]

theorem State.enable_now (s : State) (p : Nat) : (s.enable p).now = s.now := by
  rcases s.enable_cases p with e | ⟨u, e⟩ <;> simp [e]

theorem State.decideEntry_scheds (s : State) (r : InstrRef) : (s.decideEntry r).scheds = s.scheds := by
  rcases s.decideEntry_cases r with e | ⟨f, -, e⟩ <;> simp [e]

/-! ## The slots of the windows (R156) -/

/-- The windows hold no more items than they have slots. -/
structure Sched.WithinSlots (q : Sched) : Prop where
  fwd : q.fwd.length ≤ 8
  bwd : q.bwd.length ≤ 16

theorem Sched.WithinSlots.dropCtx {q : Sched} (h : q.WithinSlots) (id : Nat) : (q.dropCtx id).WithinSlots :=
  ⟨(List.length_filter_le ..).trans h.fwd, (List.length_filter_le ..).trans h.bwd⟩

/-- No scheduler passes its slots unless it did before. -/
structure KeepsSlots (s t : State) : Prop where
  within : ∀ g, (s.sched g).WithinSlots → (t.sched g).WithinSlots

namespace KeepsSlots

theorem trans {s t u : State} (h : KeepsSlots s t) (k : KeepsSlots t u) : KeepsSlots s u :=
  ⟨fun g w => k.within g (h.within g w)⟩

theorem of_scheds {s t : State} (h : t.scheds = s.scheds) : KeepsSlots s t :=
  ⟨fun g w => (State.sched_congr h g).symm ▸ w⟩

theorem mapCtx (s : State) (id : Nat) (f : Ctx → Ctx) : KeepsSlots s (s.mapCtx id f) := of_scheds rfl

theorem setSched {s : State} {g : Nat} {q : Sched} (h : (s.sched g).WithinSlots → q.WithinSlots) :
    KeepsSlots s (s.setSched g q) := by
  refine ⟨fun k within => ?_⟩
  rw [State.sched_setSched]
  split
  · next e => exact h (e ▸ within)
  · exact within

theorem dropItems (s : State) (id : Nat) : KeepsSlots s (s.dropItems id) :=
  ⟨fun g within => State.sched_dropItems s id g ▸ within.dropCtx id⟩

theorem of_log {s t : State} (h : SameButLog s t) : KeepsSlots s t := by
  obtain ⟨sed, rfl⟩ := h
  exact of_scheds rfl

theorem beginCtxReset (s : State) (id cause : Nat) : KeepsSlots s (s.beginCtxReset id cause) := by
  unfold State.beginCtxReset
  split
  · exact of_scheds rfl
  · split
    · exact of_scheds rfl
    · exact (of_log (.writeNow s ..)).trans ((dropItems ..).trans (mapCtx ..))

theorem fault (s : State) (id path : Nat) (e : Fail) : KeepsSlots s (s.fault id path e) := by
  obtain ⟨v, logged, faulted⟩ := s.fault_eq id path e
  rw [faulted]
  exact (of_log logged).trans ((mapCtx ..).trans ((beginCtxReset ..).trans (mapCtx ..)))

end KeepsSlots

end Sys2Proof.Machine
end

section
/-! PROOFS. INSTRUCTION_ACCEPT (R153, R155): the grain queues an item for each panel of its share. -/

namespace Sys2Proof.Machine

/-! ## What is found of a placed instruction after an update of its context -/

theorem State.found?_eq_some {s : State} {r : InstrRef} {f : Found} (h : s.found? r = some f) :
    s.ctx? r.ctx = some f.ctx ∧ f.ctx.steps.find? (fun run => run.step == r.step) = some f.run ∧
      f.run.placed.find? (fun p => p.stream == r.stream && p.index == r.index && p.phase != .retired) = some f.p := by
  unfold State.found? at h
  split at h
  · cases h
  · next hc =>
    split at h
    · cases h
    · next hrun =>
      split at h
      · cases h
      · next hp =>
        cases h
        exact ⟨hc, hrun, hp⟩

theorem State.found?_of {s : State} {r : InstrRef} {c : Ctx} {run : StepRun} {p : Placed} (hc : s.ctx? r.ctx = some c)
    (hrun : c.steps.find? (fun run => run.step == r.step) = some run)
    (hp : run.placed.find? (fun p => p.stream == r.stream && p.index == r.index && p.phase != .retired) = some p) :
    ∃ f, s.found? r = some f ∧ f.p = p := by
  simp [State.found?, hc, hrun, hp]

theorem State.found?_mapCtx {s : State} {r : InstrRef} {f : Found} (h : s.found? r = some f) {m : Ctx → Ctx}
    (hid : ∀ c, (m c).id = c.id) (hsteps : ∀ c, (m c).steps = c.steps) :
    ∃ f', (s.mapCtx r.ctx m).found? r = some f' ∧ f'.p = f.p := by
  obtain ⟨hc, hrun, hp⟩ := State.found?_eq_some h
  exact State.found?_of (State.ctx?_mapCtx_self hc hid) (by rwa [hsteps]) hp

/-- The first that a search finds, after an update that the search does not see. -/
theorem find?_map_if {α : Type} {q c : α → Bool} {m : α → α} (hq : ∀ a, q (m a) = q a) {l : List α} {a : α}
    (h : l.find? q = some a) :
    (l.map fun x => if c x then m x else x).find? q = some (if c a then m a else a) := by
  have unseen : (q ∘ fun x => if c x then m x else x) = q := by
    funext x
    dsimp only [Function.comp_apply]
    split
    · exact hq x
    · rfl
  rw [List.find?_map, unseen, h, Option.map_some]

/-- Replaces a placed instruction's record in a step. -/
def StepRun.mapPlaced (r : InstrRef) (m : Placed → Placed) (run : StepRun) : StepRun :=
  { run with placed := run.placed.map fun p => if p.stream = r.stream ∧ p.index = r.index then m p else p }

theorem Ctx.mapPlaced_steps (c : Ctx) (r : InstrRef) (m : Placed → Placed) :
    (c.mapPlaced r m).steps = c.steps.map fun run => if run.step = r.step then run.mapPlaced r m else run := rfl

theorem State.found?_mapPlaced {s : State} {r : InstrRef} {f : Found} (h : s.found? r = some f) {m : Placed → Placed}
    (hm : ∀ p, (m p).stream = p.stream ∧ (m p).index = p.index ∧ (m p).phase = p.phase) :
    ∃ f', (s.mapPlaced r m).found? r = some f' ∧ f'.p = m f.p := by
  obtain ⟨hc, hrun, hp⟩ := State.found?_eq_some h
  have runNamed : f.run.step = r.step := by simpa using List.find?_some hrun
  have named : f.p.stream = r.stream ∧ f.p.index = r.index := by
    have found := List.find?_some hp
    simp only [Bool.and_eq_true, beq_iff_eq] at found
    exact found.1
  refine State.found?_of (run := f.run.mapPlaced r m) (State.ctx?_mapCtx_self hc fun _ => rfl) ?_ ?_
  · have found := find?_map_if (c := fun run => decide (run.step = r.step)) (m := StepRun.mapPlaced r m)
      (fun _ => rfl) hrun
    simpa only [Ctx.mapPlaced_steps, decide_eq_true_eq, if_pos runNamed] using found
  · have found := find?_map_if (c := fun p => decide (p.stream = r.stream ∧ p.index = r.index)) (m := m)
      (fun p => by obtain ⟨stream, index, phase⟩ := hm p; rw [stream, index, phase]) hp
    simpa only [StepRun.mapPlaced, decide_eq_true_eq, if_pos named] using found

/-! ## The key stores (R202) -/

/-- What meeting the key stores can do: nothing, or to draw a verdict and note it in the context. -/
theorem State.meetKeys_cases (s : State) (id : Nat) (draws : Bool) :
    s.meetKeys id draws = s ∨ ∃ m : Ctx → Ctx, (∀ c, (m c).id = c.id) ∧ (∀ c, (m c).steps = c.steps) ∧
      s.meetKeys id draws = { s with free := s.free + 1 }.mapCtx id m := by
  cases draws with
  | false => exact .inl rfl
  | true =>
    refine .inr ⟨_, fun _ => ?_, fun _ => ?_, rfl⟩
    all_goals rfl

section
variable (s : State) (id : Nat) (draws : Bool)

theorem State.meetKeys_scheds : (s.meetKeys id draws).scheds = s.scheds := by
  rcases s.meetKeys_cases id draws with e | ⟨m, -, -, e⟩ <;> simp [e]

theorem State.meetKeys_mem : (s.meetKeys id draws).mem = s.mem := by
  rcases s.meetKeys_cases id draws with e | ⟨m, -, -, e⟩ <;> simp [e]

theorem SameDevice.meetKeys : SameDevice s (s.meetKeys id draws) := by
  rcases s.meetKeys_cases id draws with e | ⟨m, -, -, e⟩ <;> rw [e]
  · exact .refl s
  · exact ⟨⟨rfl, rfl, rfl, rfl, rfl, rfl⟩, rfl, rfl, rfl⟩

theorem SameOthers.meetKeys : SameOthers id s (s.meetKeys id draws) := by
  rcases s.meetKeys_cases id draws with e | ⟨m, hid, -, e⟩ <;> rw [e]
  · exact .refl id s
  · exact .mapCtx { s with free := s.free + 1 } id hid

theorem State.found?_meetKeys {s : State} {r : InstrRef} {f : Found} (h : s.found? r = some f) (draws : Bool) :
    ∃ f', (s.meetKeys r.ctx draws).found? r = some f' ∧ f'.p = f.p := by
  rcases s.meetKeys_cases r.ctx draws with e | ⟨m, hid, hsteps, e⟩ <;> rw [e]
  · exact ⟨f, h, rfl⟩
  · exact State.found?_mapCtx h hid hsteps

end

/-! ## The row -/

/-- The hypotheses under which a grain takes its share of a product (R155, R266, R268). -/
structure TakesShare (u : State) (g : Nat) (r : InstrRef) (f : Found) : Prop where
  found : u.found? r = some f
  product : isProduct f.words = true
  placed : f.p.phase = .placed
  placing : f.ctx.placing = true
  entered : f.ctx.entered f.run = true
  notHeld : f.ctx.eligibleHeld f.run f.words = false
  notJudged : (f.ctx.plan.any fun p => u.judgedHold p f.words f.path f.run.iter) = false
  grainOk : u.grainOk g = true
  share : u.hasShare f g = true
  fresh : f.p.accepted.contains g = false
  order : u.queueOrder f g = true

/-- The items of a grain's share of a product, one for each panel (R153). -/
def State.shareItems (s : State) (g : Nat) (r : InstrRef) (f : Found) (stamp : Nat) : List Item :=
  (List.range ((s.panelShare f g).2 - (s.panelShare f g).1)).map fun i =>
    { ref := r, number := (s.panelShare f g).1 + i, stamp, backward := wOp f.words == 0x11
      wide := !(wOp f.words == 0x11) && f.ctx.runsWide r.step r.stream r.index
      bsel := if wOp f.words == 0x11 then (productOf f.words).bsel else 0, preferFwd := false }

theorem State.shareItems_number (s : State) (g : Nat) (r : InstrRef) (f : Found) (stamp : Nat) :
    (s.shareItems g r f stamp).map Item.number =
      (List.range ((s.panelShare f g).2 - (s.panelShare f g).1)).map ((s.panelShare f g).1 + ·) := by
  rw [State.shareItems, List.map_map]
  rfl

theorem State.mem_shareItems {s : State} {g : Nat} {r : InstrRef} {f : Found} {stamp : Nat} {i : Item}
    (h : i ∈ s.shareItems g r f stamp) : i.ref = r ∧ i.stamp = stamp := by
  obtain ⟨_, -, rfl⟩ := List.mem_map.mp h
  exact ⟨rfl, rfl⟩

/-- What the acceptance leaves: the key stores are met, the scheduler is replaced, the hints on the way are cleared, and the
instruction notes the grain. -/
def State.noteAccept (v : State) (g : Nat) (r : InstrRef) (f : Found) (q : Sched) : State :=
  (((v.meetKeys r.ctx (f.ctx.plan.any fun p => p.drawsKey f.words)).setSched g q).mapCtx r.ctx
    fun c => c.workArrives f.path [g]).mapPlaced r fun p => { p with accepted := p.accepted ++ [g] }

/-- A grain that may take its share queues it under its next stamp (R153, R155). -/
theorem exec_instructionAccept {s u : State} {g : Nat} {r : InstrRef} {f : Found} (hu : u = s.decideEntry r)
    (h : TakesShare u g r f) (active : u.active g = true) :
    ∃ q, q.accepts = (u.sched g).accepts + 1 ∧ q.queue = (u.sched g).queue ++ u.shareItems g r f q.accepts ∧
      exec (.instructionAccept g r false) s = .next (u.noteAccept g r f q) := by
  subst hu
  obtain ⟨found, product, placed, placing, entered, notHeld, notJudged, grainOk, share, fresh, order⟩ := h
  have row : exec (.instructionAccept g r false) s = execInstructionAccept g r false s := rfl
  refine ⟨{ (s.decideEntry r).sched g with
    accepts := ((s.decideEntry r).sched g).accepts + 1
    cycle := [(r.ctx, wOp f.words == 0x11)]
    queue := ((s.decideEntry r).sched g).queue ++
      (s.decideEntry r).shareItems g r f (((s.decideEntry r).sched g).accepts + 1) }, rfl, rfl, ?_⟩
  simp only [row, execInstructionAccept, found, product, placed, placing, entered, notHeld, notJudged, grainOk, share,
    fresh, order, State.enable_of_active active, active, beq_self_eq_true, Bool.and_true, Bool.not_false, Bool.not_true,
    Bool.false_and, Bool.false_eq_true, if_true, if_false]
  rfl

section
variable (v : State) (g : Nat) (r : InstrRef) (f : Found) (q : Sched)

theorem State.noteAccept_scheds : (v.noteAccept g r f q).scheds = (v.setSched g q).scheds := by
  simp [State.noteAccept, State.meetKeys_scheds]

theorem State.sched_noteAccept (k : Nat) : (v.noteAccept g r f q).sched k = if k = g then q else v.sched k :=
  (State.sched_congr (v.noteAccept_scheds g r f q) k).trans (v.sched_setSched g k q)

theorem State.noteAccept_mem : (v.noteAccept g r f q).mem = v.mem := by
  simp [State.noteAccept, State.meetKeys_mem]

theorem SameDevice.noteAccept : SameDevice v (v.noteAccept g r f q) := by
  have queued (s : State) : SameDevice s (s.setSched g q) := ⟨⟨rfl, rfl, rfl, rfl, rfl, rfl⟩, rfl, rfl, rfl⟩
  exact (((SameDevice.meetKeys ..).trans (queued _)).trans (.mapCtx ..)).trans (.mapCtx ..)

theorem SameOthers.noteAccept : SameOthers r.ctx v (v.noteAccept g r f q) := by
  have arrived (s : State) : SameOthers r.ctx s (s.mapCtx r.ctx fun c => c.workArrives f.path [g]) :=
    .mapCtx s r.ctx fun _ => rfl
  have noted (s : State) : SameOthers r.ctx s (s.mapPlaced r fun p => { p with accepted := p.accepted ++ [g] }) :=
    .mapCtx s r.ctx fun _ => rfl
  exact (SameOthers.meetKeys v r.ctx _).trans (SameOthers.trans (arrived (State.setSched _ g q)) (noted _))

theorem State.found?_noteAccept {v : State} {r : InstrRef} {f : Found} (h : v.found? r = some f) :
    ∃ f', (v.noteAccept g r f q).found? r = some f' ∧ f'.p.accepted = f.p.accepted ++ [g] := by
  obtain ⟨f₁, found₁, same₁⟩ := State.found?_meetKeys h (f.ctx.plan.any fun p => p.drawsKey f.words)
  have queued : ((v.meetKeys r.ctx (f.ctx.plan.any fun p => p.drawsKey f.words)).setSched g q).found? r = some f₁ :=
    found₁
  obtain ⟨f₂, found₂, same₂⟩ := State.found?_mapCtx queued (m := fun c => c.workArrives f.path [g])
    (fun _ => rfl) fun _ => rfl
  obtain ⟨f₃, found₃, noted⟩ := State.found?_mapPlaced found₂ (m := fun p => { p with accepted := p.accepted ++ [g] })
    fun _ => ⟨rfl, rfl, rfl⟩
  exact ⟨f₃, found₃, by rw [noted, same₂, same₁]⟩

end

/-- Settles O18: what the acceptance notes leaves the instruction to be found, and the decision in front of it touches no
scheduler. -/
theorem acceptQueuesTheShare : Obligations.AcceptQueuesTheShare := by
  unfold Obligations.AcceptQueuesTheShare
  rintro s u g r f hu found product placed placing entered notHeld notJudged grainOk share fresh order active
  obtain ⟨q, accepts, queue, row⟩ := exec_instructionAccept hu
    ⟨found, product, placed, placing, entered, notHeld, notJudged, grainOk, share, fresh, order⟩ active
  have before (k : Nat) : u.sched k = s.sched k := State.sched_congr (hu ▸ s.decideEntry_scheds r) k
  have afterSelf : (u.noteAccept g r f q).sched g = q := (State.sched_noteAccept ..).trans (if_pos rfl)
  obtain ⟨h, hfound, accepted⟩ := State.found?_noteAccept g q found
  rw [before g] at accepts queue
  refine ⟨_, h, u.shareItems g r f q.accepts, row, hfound, ?_, ?_, ?_, u.shareItems_number .., fun i hi => ?_,
    fun k hk => ?_, ?_, ?_, ?_⟩
  · simp [accepted]
  · rw [afterSelf, queue]
  · rw [afterSelf, accepts]
  · exact accepts ▸ State.mem_shareItems hi
  · rw [State.sched_noteAccept, if_neg hk, before]
  · rw [State.noteAccept_mem, hu, State.decideEntry_mem]
  · exact SameOthers.trans (hu ▸ SameOthers.decideEntry s r) (.noteAccept u g r f q)
  · exact SameDevice.trans (hu ▸ SameDevice.decideEntry s r) (.noteAccept u g r f q)

end Sys2Proof.Machine
end

section
/-! PROOFS. ITEM_ENTER_WINDOW, ITEM_ISSUE and ITEM_COMPLETE (R156, R158, R161, R168): an item's way through the windows and
the arrays of a grain. -/

namespace Sys2Proof.Machine

/-! ## An item enters a window (R156, R168) -/

/-- A scheduler once an item of its queue has had its turn for a window: the item leaves the queue. -/
def Sched.turned (q : Sched) (b : Bool) (i : Item) : Sched :=
  { q with
    queue := q.queue.filter fun x => !(x.ref == i.ref && x.number == i.number)
    turnFwd := if b then q.turnFwd else i.ref.ctx
    turnBwd := if b then i.ref.ctx else q.turnBwd }

/-- A scheduler once an item of its queue has entered a window. -/
def Sched.entered (q : Sched) (b : Bool) (i : Item) : Sched :=
  if b then { q.turned b i with bwd := q.bwd ++ [i] } else { q.turned b i with fwd := q.fwd ++ [i] }

/-- A window has a free slot. -/
def Sched.hasRoom (q : Sched) (b : Bool) : Bool := if b then decide (q.bwd.length < 16) else decide (q.fwd.length < 8)

theorem Sched.hasRoom_iff (q : Sched) (b : Bool) :
    q.hasRoom b = true ↔ if b then q.bwd.length < 16 else q.fwd.length < 8 := by
  cases b <;> exact decide_eq_true_iff

theorem Sched.WithinSlots.entered {q : Sched} {b : Bool} (h : q.WithinSlots) (room : q.hasRoom b = true) (i : Item) :
    (q.entered b i).WithinSlots := by
  obtain ⟨fwd, bwd⟩ := h
  cases b with
  | false => exact ⟨by simpa [Sched.entered] using of_decide_eq_true room, bwd⟩
  | true => exact ⟨fwd, by simpa [Sched.entered] using of_decide_eq_true room⟩

/-- The instruction of an item notes the item's mask word (R168). -/
def State.noteMask (s : State) (i : Item) (w : Nat) : State :=
  s.mapPlaced i.ref fun p => { p with masks := setKey p.masks i.number w }

section
variable {s : State} {g : Nat} {b : Bool} {i : Item} {f : Found} (hnext : s.nextEntry g b = some i)
  (found : s.found? i.ref = some f)
include hnext found

theorem exec_itemEnterWindow_unmasked (mask : f.maskOff i.number = none) (room : (s.sched g).hasRoom b = true) :
    exec (.itemEnterWindow g b) s = .next (s.setSched g ((s.sched g).entered b i)) := by
  have row : exec (.itemEnterWindow g b) s = execItemEnterWindow g b s := rfl
  simp only [row, execItemEnterWindow, hnext, found, mask]
  refine (if_pos room).trans ?_
  cases b <;> rfl

theorem exec_itemEnterWindow_skipped {off : Nat} (mask : f.maskOff i.number = some off)
    (word : s.rdNat f.ctx off 2 = .ok 0) :
    exec (.itemEnterWindow g b) s = .next ((s.setSched g ((s.sched g).turned b i)).noteMask i 0) := by
  have row : exec (.itemEnterWindow g b) s = execItemEnterWindow g b s := rfl
  simp [row, execItemEnterWindow, hnext, found, mask, word, Sched.turned, State.noteMask]

end

theorem entered_of_room {s t v : State} {g : Nat} {b : Bool} {i : Item}
    (same : v.scheds = (s.setSched g ((s.sched g).entered b i)).scheds)
    (row : (if (s.sched g).hasRoom b then .next v else .next s : Out) = .next t) :
    t = s ∨ ∃ i, (s.sched g).hasRoom b = true ∧ t.scheds = (s.setSched g ((s.sched g).entered b i)).scheds := by
  split at row <;> cases row
  · next room => exact .inr ⟨i, room, same⟩
  · exact .inl rfl

/-- What the row can do to the schedulers: nothing; an item enters a window with a free slot; an item is skipped; or its
context faults over the mask word. -/
theorem itemEnterWindow_cases {s t : State} {g : Nat} {b : Bool} (h : exec (.itemEnterWindow g b) s = .next t) :
    t = s ∨ (∃ i, (s.sched g).hasRoom b = true ∧ t.scheds = (s.setSched g ((s.sched g).entered b i)).scheds) ∨
      (∃ i, t.scheds = (s.setSched g ((s.sched g).turned b i)).scheds) ∨ ∃ id path e, t = s.fault id path e := by
  have row : execItemEnterWindow g b s = .next t := h
  unfold execItemEnterWindow at row
  split at row
  · cases row
    exact .inl rfl
  · split at row
    · cases row
      exact .inl rfl
    · rename_i i _ _ f _
      dsimp only at row
      split at row
      · exact (entered_of_room (by cases b <;> rfl) row).imp_right .inl
      · split at row
        · cases row
          exact .inr (.inr (.inr ⟨_, _, _, rfl⟩))
        · cases row
          exact .inr (.inr (.inl ⟨i, rfl⟩))
        · exact (entered_of_room (by cases b <;> rfl) row).imp_right .inl

/-! ## An array issues an item (R157, R158) -/

/-- The items that an array of a grain may issue: satisfied items of its window that it may run, of contexts that place
instructions. -/
def State.issuableItems (s : State) (g a : Nat) : List Item :=
  ((s.sched g).window a).filter fun i => i.runsOn a && s.satisfied i && (s.ctx? i.ref.ctx).any Ctx.placing

theorem State.mem_issuableItems {s : State} {g a : Nat} {i : Item} :
    i ∈ s.issuableItems g a ↔ i ∈ (s.sched g).window a ∧ i.runsOn a = true ∧ s.satisfied i = true ∧
      (s.ctx? i.ref.ctx).any Ctx.placing = true := by
  simp only [State.issuableItems, List.mem_filter, Bool.and_eq_true, and_assoc]

theorem State.nextIssue_eq_some {s : State} {g a : Nat} {i : Item} (h : s.nextIssue g a = some i) :
    oldestItem (s.issuableItems g a) = some i := by
  unfold State.nextIssue at h
  dsimp only at h
  split at h
  · cases h
  · exact h

theorem Item.bsel_ne_two {i : Item} (h : i.runsOn 1 = true) : i.bsel ≠ 2 := by
  simp only [Item.runsOn, one_ne_zero, if_false, if_true, Bool.and_eq_true, bne_iff_ne] at h
  exact h.2

theorem Item.bsel_ne_one {i : Item} (h : i.runsOn 2 = true) : i.bsel ≠ 1 := by
  simp only [Item.runsOn, OfNat.ofNat_ne_zero, OfNat.ofNat_ne_one, if_false, Bool.and_eq_true, bne_iff_ne] at h
  exact h.2

/-- A scheduler once an array has taken an item out of its window. -/
def Sched.issued (q : Sched) (a : Nat) (i : Item) (now : Nat) : Sched :=
  { q with
    fwd := q.fwd.filter fun x => !(x.ref == i.ref && x.number == i.number)
    bwd := q.bwd.filter fun x => !(x.ref == i.ref && x.number == i.number)
    running := q.running ++ [(a, i, now)] }

theorem Sched.WithinSlots.issued {q : Sched} (h : q.WithinSlots) (a : Nat) (i : Item) (now : Nat) :
    (q.issued a i now).WithinSlots :=
  ⟨(List.length_filter_le ..).trans h.fwd, (List.length_filter_le ..).trans h.bwd⟩

theorem exec_itemIssue {s : State} {g a : Nat} {i : Item} (active : s.active g = true) (hnext : s.nextIssue g a = some i)
    (first : a = 2 → s.nextIssue g 1 = none) :
    exec (.itemIssue g a) s = .next (s.setSched g ((s.sched g).issued a i s.now)) := by
  have row : exec (.itemIssue g a) s = execItemIssue g a s := rfl
  have turn : ¬(a = 2 ∧ (s.nextIssue g 1).isSome = true) := fun ⟨ha, other⟩ => by simp [first ha] at other
  simp only [row, execItemIssue, if_neg turn, hnext, State.enable_of_active active, active, Bool.not_true,
    Bool.false_eq_true, if_false]
  rfl

/-- While backward array 0 has an item to issue, backward array 1 waits (R158). -/
theorem exec_itemIssue_of_first {s : State} {g : Nat} {i : Item} (h : s.nextIssue g 1 = some i) :
    exec (.itemIssue g 2) s = .next s := by
  have row : exec (.itemIssue g 2) s = execItemIssue g 2 s := rfl
  simp [row, execItemIssue, h]

/-- What the row can do to the schedulers: nothing, or an array takes an item. -/
theorem itemIssue_cases {s t : State} {g a : Nat} (h : exec (.itemIssue g a) s = .next t) :
    t.scheds = s.scheds ∨ ∃ i, t.scheds = (s.setSched g ((s.sched g).issued a i s.now)).scheds := by
  have row : execItemIssue g a s = .next t := h
  unfold execItemIssue at row
  split at row
  · cases row
    exact .inl rfl
  · split at row
    · cases row
      exact .inl rfl
    · next i _ =>
      dsimp only at row
      split at row <;> cases row
      · exact .inl (s.enable_scheds g)
      · refine .inr ⟨i, ?_⟩
        have enabled : (s.enable g).sched g = s.sched g := State.sched_congr (s.enable_scheds g) g
        have now : (s.enable g).now = s.now := s.enable_now g
        rw [State.setSched_scheds, State.setSched_scheds, s.enable_scheds g, enabled, now]
        rfl

/-! ## An array completes its item (R161) -/

/-- A scheduler once an array is free again. -/
def Sched.freed (q : Sched) (a : Nat) : Sched := { q with running := q.running.filter fun r => r.1 != a }

/-- The engine of an array of a grain. -/
def arrayEngine (g a : Nat) : Engine := if a = 0 then .forward g else if a = 1 then .backward0 g else .backward1 g

theorem exec_itemComplete {s : State} {g a : Nat} (busy : ((s.sched g).running.any fun r => r.1 == a) = true) :
    exec (.itemComplete g a) s = .next ((s.setSched g ((s.sched g).freed a)).engineRetires (arrayEngine g a)) :=
  if_pos busy

/-! ## The rows keep the slots (R156) -/

theorem KeepsSlots.itemEnterWindow {s t : State} {g : Nat} {b : Bool} (h : exec (.itemEnterWindow g b) s = .next t) :
    KeepsSlots s t := by
  rcases itemEnterWindow_cases h with rfl | ⟨i, room, e⟩ | ⟨i, e⟩ | ⟨id, path, e, rfl⟩
  · exact of_scheds rfl
  · exact (setSched fun within => within.entered room i).trans (of_scheds e)
  · exact (setSched (q := (s.sched g).turned b i) fun within => ⟨within.fwd, within.bwd⟩).trans (of_scheds e)
  · exact fault s id path e

theorem KeepsSlots.itemIssue {s t : State} {g a : Nat} (h : exec (.itemIssue g a) s = .next t) : KeepsSlots s t := by
  rcases itemIssue_cases h with e | ⟨i, e⟩
  · exact of_scheds e
  · exact (setSched fun within => within.issued a i s.now).trans (of_scheds e)

theorem KeepsSlots.itemComplete {s t : State} {g a : Nat} (h : exec (.itemComplete g a) s = .next t) : KeepsSlots s t := by
  by_cases busy : ((s.sched g).running.any fun r => r.1 == a) = true
  · rw [exec_itemComplete busy] at h
    cases h
    exact (setSched (q := (s.sched g).freed a) fun within => ⟨within.fwd, within.bwd⟩).trans (of_scheds rfl)
  · have row : exec (.itemComplete g a) s = .next s := if_neg busy
    rw [row] at h
    cases h
    exact of_scheds rfl

theorem KeepsSlots.instructionAccept {s t : State} {g : Nat} {r : InstrRef} {b : Bool}
    (h : exec (.instructionAccept g r b) s = .next t) : KeepsSlots s t := by
  have row : execInstructionAccept g r b s = .next t := h
  refine (of_scheds (s.decideEntry_scheds r)).trans ?_
  unfold execInstructionAccept at row
  dsimp only at row
  split at row
  · cases row
    exact of_scheds rfl
  · split at row
    · refine (of_scheds ((s.decideEntry r).enable_scheds g)).trans ?_
      split at row <;> cases row
      · exact of_scheds rfl
      · refine KeepsSlots.trans (setSched ?_) (of_scheds (State.noteAccept_scheds _ g r _ _))
        exact fun within => ⟨within.fwd, within.bwd⟩
    · cases row
      exact of_scheds rfl

/-! ## The obligations -/

theorem Item.not_same_of_mem_filter {l : List Item} {i j : Item}
    (h : j ∈ l.filter fun x => !(x.ref == i.ref && x.number == i.number)) : ¬(j.ref = i.ref ∧ j.number = i.number) := by
  simpa only [Bool.not_eq_true', Bool.and_eq_false_imp, beq_iff_eq, beq_eq_false_iff_ne, not_and]
    using (List.mem_filter.mp h).2

/-- Settles O19: each row's effect is on one scheduler, and the windows grow only into a free slot. -/
theorem itemsMoveThroughTheGrain : Obligations.ItemsMoveThroughTheGrain := by
  unfold Obligations.ItemsMoveThroughTheGrain
  refine ⟨fun s g i f => ⟨fun b hnext found mask room => ?_, fun b off hnext found mask word => ?_,
    fun a active hnext first => ?_, fun a busy => ?_⟩, fun s t g h a b r i mem run fwd bwd => ?_⟩
  · refine ⟨_, exec_itemEnterWindow_unmasked hnext found mask ((Sched.hasRoom_iff ..).mpr room), rfl, rfl, ?_⟩
    rw [State.sched_setSched_self]
    cases b <;> exact ⟨rfl, rfl⟩
  · have after : ((s.setSched g ((s.sched g).turned b i)).noteMask i 0).sched g = (s.sched g).turned b i :=
      s.sched_setSched_self g _
    refine ⟨_, exec_itemEnterWindow_skipped hnext found mask word, rfl, ?_⟩
    rw [after]
    exact ⟨rfl, rfl, fun j => Item.not_same_of_mem_filter⟩
  · refine ⟨_, exec_itemIssue active hnext first, rfl, rfl, ?_⟩
    rw [State.sched_setSched_self]
    exact ⟨rfl, fun j hj => (List.mem_append.mp hj).elim Item.not_same_of_mem_filter Item.not_same_of_mem_filter⟩
  · have after : ((s.setSched g ((s.sched g).freed a)).engineRetires (arrayEngine g a)).sched g = (s.sched g).freed a :=
      s.sched_setSched_self g _
    refine ⟨_, exec_itemComplete busy, rfl, rfl, ?_⟩
    rw [after]
    exact ⟨rfl, rfl, rfl⟩
  · have keeps : KeepsSlots s t := by
      simp only [List.mem_cons, List.not_mem_nil, or_false] at mem
      rcases mem with rfl | rfl | rfl | rfl
      · exact .itemEnterWindow run
      · exact .itemIssue run
      · exact .itemComplete run
      · exact .instructionAccept run
    exact ⟨(keeps.within h ⟨fwd, bwd⟩).fwd, (keeps.within h ⟨fwd, bwd⟩).bwd⟩

/-- Settles O20: what is issued is the oldest of the items that the array may issue. -/
theorem arraysIssueTheOldestItem : Obligations.ArraysIssueTheOldestItem := by
  unfold Obligations.ArraysIssueTheOldestItem
  intro s g a i hnext first
  have oldest := State.nextIssue_eq_some hnext
  obtain ⟨inWindow, runs, satisfied, -⟩ := State.mem_issuableItems.mp (oldestItem_mem oldest)
  refine ⟨fun active => ⟨_, exec_itemIssue active hnext first, ?_⟩, inWindow, runs, satisfied, ?_, ?_, ?_, ?_⟩
  · rw [State.sched_setSched_self]
    exact List.mem_append_right _ List.mem_cons_self
  · rintro rfl
    exact Item.bsel_ne_two runs
  · rintro rfl
    exact Item.bsel_ne_one runs
  · exact fun j hj hruns hsat hplacing =>
      oldestItem_le oldest (State.mem_issuableItems.mpr ⟨hj, hruns, hsat, hplacing⟩)
  · intro k u hk run
    rw [exec_itemIssue_of_first hk] at run
    cases run
    rfl

end Sys2Proof.Machine
end

section
/-! PROOFS. What the passing of time, a notice (R336) and a write through a window (R222, R244) leave of what every context
shows. -/

namespace Sys2Proof.Machine

/-! ## What the shared operations leave of a context -/

/-- The context still shows the phase, the cause of its hold, SYN_STATUS, PED_UPD_STATUS and the counters it showed. -/
structure Ctx.SameShown (c d : Ctx) : Prop where
  id : d.id = c.id
  phase : d.phase = c.phase
  syn : d.syn = c.syn
  heldCode : d.lgl.heldCode = c.lgl.heldCode
  heldDetail : d.lgl.heldDetail = c.lgl.heldDetail
  upd : d.upd = c.upd
  counters : d.counters = c.counters

namespace Ctx.SameShown

theorem refl (c : Ctx) : c.SameShown c := ⟨rfl, rfl, rfl, rfl, rfl, rfl, rfl⟩

theorem trans {c d e : Ctx} (h : c.SameShown d) (k : d.SameShown e) : c.SameShown e :=
  ⟨k.id.trans h.id, k.phase.trans h.phase, k.syn.trans h.syn, k.heldCode.trans h.heldCode, k.heldDetail.trans h.heldDetail,
   k.upd.trans h.upd, k.counters.trans h.counters⟩

end Ctx.SameShown

/-- Beside `SameBase`: every context is still there and shows what it showed. -/
structure KeepsShown (s t : State) : Prop extends SameBase s t where
  shown : ∀ id c, s.ctx? id = some c → ∃ d, t.ctx? id = some d ∧ c.SameShown d

namespace KeepsShown

theorem refl (s : State) : KeepsShown s s := ⟨.refl s, fun _ c h => ⟨c, h, .refl c⟩⟩

theorem trans {s t u : State} (h : KeepsShown s t) (k : KeepsShown t u) : KeepsShown s u := by
  refine ⟨h.toSameBase.trans k.toSameBase, fun id c hc => ?_⟩
  obtain ⟨d, hd, same⟩ := h.shown id c hc
  obtain ⟨e, he, same'⟩ := k.shown id d hd
  exact ⟨e, he, same.trans same'⟩

theorem foldl {α : Type} {f : State → α → State} (h : ∀ s a, KeepsShown s (f s a)) (l : List α) (s : State) :
    KeepsShown s (l.foldl f s) :=
  List.foldlRecOn (motive := KeepsShown s) l f (.refl s) fun t ht a _ => ht.trans (h t a)

/-- An operation that updates no context. -/
theorem of_ctxs {s t : State} (base : SameBase s t) (hc : t.ctxs = s.ctxs) : KeepsShown s t :=
  ⟨base, fun id c h => ⟨c, by rwa [State.ctx?, hc], .refl c⟩⟩

/-- An operation that updates every context's record in one way. -/
theorem of_map {s t : State} {m : Ctx → Ctx} (base : SameBase s t) (hc : t.ctxs = s.ctxs.map m)
    (hm : ∀ c : Ctx, c.SameShown (m c)) : KeepsShown s t := by
  refine ⟨base, fun id c h => ⟨m c, ?_, hm c⟩⟩
  have unseen : ((fun c : Ctx => c.id == id) ∘ m) = fun c => c.id == id := funext fun c => by simp [(hm c).id]
  rw [State.ctx?, hc, List.find?_map, unseen]
  exact congrArg (Option.map m) h

theorem mapCtx (s : State) (id : Nat) {m : Ctx → Ctx} (hm : ∀ c : Ctx, c.SameShown (m c)) : KeepsShown s (s.mapCtx id m) := by
  refine of_map (m := fun c => if c.id = id then m c else c) (SameDevice.mapCtx s id m).toSameBase rfl fun c => ?_
  split
  · exact hm c
  · exact .refl c

theorem raise (s : State) (code detail src ctx : Nat) : KeepsShown s (s.raise code detail src ctx) :=
  of_ctxs ⟨rfl, rfl, rfl, rfl, rfl, rfl⟩ rfl

theorem mapPlaced (s : State) (r : InstrRef) (m : Placed → Placed) : KeepsShown s (s.mapPlaced r m) :=
  mapCtx s r.ctx fun _ => ⟨rfl, rfl, rfl, rfl, rfl, rfl, rfl⟩

theorem notify (s : State) (id code detail step : Nat) (data : List Nat) :
    KeepsShown s (s.notify id code detail step data) := by
  unfold State.notify
  split
  · exact .refl s
  · dsimp only
    split
    · exact of_ctxs ⟨rfl, rfl, rfl, rfl, rfl, rfl⟩ rfl
    · exact mapCtx s id fun _ => ⟨rfl, rfl, rfl, rfl, rfl, rfl, rfl⟩

/-! ### Time -/

theorem armTimers (s : State) (us : Nat) : KeepsShown s (s.armTimers us) :=
  of_map ⟨rfl, rfl, rfl, rfl, rfl, rfl⟩ rfl fun _ => ⟨rfl, rfl, rfl, rfl, rfl, rfl, rfl⟩

theorem addCycles (s : State) (id g a n : Nat) (starved : Bool) : KeepsShown s (s.addCycles id g a n starved) :=
  mapCtx s id fun _ => ⟨rfl, rfl, rfl, rfl, rfl, rfl, rfl⟩

theorem accrueGrain (s : State) (g us : Nat) (q : Sched) : KeepsShown s (s.accrueGrain g us q) := by
  refine foldl (fun t a => ?_) _ s
  refine trans ?_ (foldl (fun u id => addCycles u id g a _ true) _ _)
  split
  · exact addCycles t ..
  · exact .refl t

theorem advanceTo (s : State) (t : Nat) : KeepsShown s (s.advanceTo t) := by
  unfold State.advanceTo
  split
  · exact .refl s
  · have accrued := foldl (fun u (q : Nat × Sched) => accrueGrain u q.1 (t - (s.armTimers (t - s.now)).now) q.2)
      (s.armTimers (t - s.now)).scheds (s.armTimers (t - s.now))
    exact ((armTimers s (t - s.now)).trans accrued).trans (of_ctxs ⟨rfl, rfl, rfl, rfl, rfl, rfl⟩ rfl)

/-! ### Writes through a window -/

theorem snapComplete (s : State) (id : Nat) : KeepsShown s (s.snapComplete id) := by
  unfold State.snapComplete
  split
  · exact .refl s
  · split
    · split
      · dsimp only
        split
        · refine trans (mapCtx s id ?_) (notify ..)
          exact fun _ => ⟨rfl, rfl, rfl, rfl, rfl, rfl, rfl⟩
        · exact mapCtx s id fun _ => ⟨rfl, rfl, rfl, rfl, rfl, rfl, rfl⟩
      · exact .refl s
    · exact .refl s

theorem mapSnap (s : State) (id : Nat) (m : Option Snapshot → Option Snapshot) :
    KeepsShown s (s.mapCtx id fun c => { c with snap := m c.snap }) :=
  mapCtx s id fun _ => ⟨rfl, rfl, rfl, rfl, rfl, rfl, rfl⟩

theorem releaseSlot (s : State) (id win : Nat) : KeepsShown s (s.releaseSlot id win) := by
  unfold State.releaseSlot
  split
  · exact .refl s
  · split
    · exact .refl s
    · split
      · dsimp only
        refine (trans ?_ (mapSnap _ id _)).trans (snapComplete ..)
        split
        · exact of_ctxs ⟨rfl, rfl, rfl, rfl, rfl, rfl⟩ rfl
        · exact .refl s
      · exact .refl s

theorem firstWrite (s : State) (id off : Nat) : KeepsShown s (s.firstWrite id off) := by
  unfold State.firstWrite
  split
  · split
    · dsimp only
      split
      · refine (trans (mapSnap s id _) (releaseSlot ..)).trans (mapCtx _ id ?_)
        exact fun _ => ⟨rfl, rfl, rfl, rfl, rfl, rfl, rfl⟩
      · exact mapSnap s id _
    · exact .refl s
  · exact .refl s

theorem wrPage {s t : State} {id off : Nat} {bs : List Byte} (h : s.wrPage id off bs = .ok t) : KeepsShown s t := by
  unfold State.wrPage at h
  split at h
  · cases h
  · split at h
    · split at h <;> cases h
      exact (firstWrite ..).trans (of_ctxs ⟨rfl, rfl, rfl, rfl, rfl, rfl⟩ rfl)
    · cases h
    · split at h <;> cases h
      exact .refl s

theorem wrPages {k : Nat} {s t : State} {id off : Nat} {bs : List Byte} (h : State.wrPages k s id off bs = .ok t) :
    KeepsShown s t := by
  induction k generalizing s off bs with
  | zero =>
    cases h
    exact .refl _
  | succ k ih =>
    unfold State.wrPages at h
    split at h
    · cases h
      exact .refl _
    · dsimp only at h
      split at h
      · cases h
      · next s' first => exact (wrPage first).trans (ih h)

theorem wrNat {s t : State} {id off n v : Nat} (h : s.wrNat id off n v = .ok t) : KeepsShown s t := wrPages h

end KeepsShown

/-! ## What time and notices leave of the rest -/

theorem State.accrueGrain_frame (s : State) (g us : Nat) (q : Sched) :
    (s.accrueGrain g us q).mem = s.mem ∧ (s.accrueGrain g us q).arbiter = s.arbiter := by
  refine List.foldlRecOn (motive := fun t : State => t.mem = s.mem ∧ t.arbiter = s.arbiter) _ _ ⟨rfl, rfl⟩ ?_
  intro t same a _
  refine List.foldlRecOn (motive := fun u : State => u.mem = s.mem ∧ u.arbiter = s.arbiter) _ _ ?_ fun u same' _ _ => same'
  split <;> exact same

/-- The passing of time touches neither memory nor the arbiter. -/
theorem State.advanceTo_frame (s : State) (t : Nat) :
    (s.advanceTo t).mem = s.mem ∧ (s.advanceTo t).arbiter = s.arbiter := by
  unfold State.advanceTo
  split
  · exact ⟨rfl, rfl⟩
  · refine List.foldlRecOn (motive := fun u : State => u.mem = s.mem ∧ u.arbiter = s.arbiter) _ _ ⟨rfl, rfl⟩ ?_
    intro u ⟨mem, arbiter⟩ q _
    obtain ⟨mem', arbiter'⟩ := u.accrueGrain_frame q.1 (t - (s.armTimers (t - s.now)).now) q.2
    exact ⟨mem'.trans mem, arbiter'.trans arbiter⟩

@[simp] theorem State.advanceTo_mem (s : State) (t : Nat) : (s.advanceTo t).mem = s.mem := (s.advanceTo_frame t).1

@[simp] theorem State.advanceTo_arbiter (s : State) (t : Nat) : (s.advanceTo t).arbiter = s.arbiter := (s.advanceTo_frame t).2

@[simp] theorem State.notify_mem (s : State) (id code detail step : Nat) (data : List Nat) :
    (s.notify id code detail step data).mem = s.mem := by
  unfold State.notify
  split
  · rfl
  · dsimp only
    split <;> rfl

/-- Two updates of one context are one. -/
theorem State.mapCtx_mapCtx (s : State) (id : Nat) (m n : Ctx → Ctx) (hid : ∀ c, (m c).id = c.id) :
    (s.mapCtx id m).mapCtx id n = s.mapCtx id fun c => n (m c) := by
  have both (c : Ctx) : (if (if c.id = id then m c else c).id = id then n (if c.id = id then m c else c)
      else if c.id = id then m c else c) = if c.id = id then n (m c) else c := by
    by_cases h : c.id = id <;> simp [h, hid]
  simp only [State.mapCtx, List.map_map]
  congr 1
  exact List.map_congr_left fun c _ => both c

end Sys2Proof.Machine
end

section
/-! PROOFS. WAIT_TIMEOUT, COLL_TIMEOUT and UPDATE_STALL (R181, R264, R321): what the rows come to, and what the context shows
then. -/

namespace Sys2Proof.Machine

/-! ## A timeout holds its context (R264, R321) -/

/-- A timeout's row at the moment `due`: the event, the update of the context that `m` stands for, and the notice. -/
def State.timedOut (s : State) (due code detail src id step : Nat) (m : Ctx → Ctx) : State :=
  (((s.advanceTo due).raise code detail src id).mapCtx id m).notify id code detail step []

section
variable (s : State) (due code detail src id step : Nat) {m : Ctx → Ctx}

theorem State.timedOut_mem : (s.timedOut due code detail src id step m).mem = s.mem := by simp [State.timedOut]

theorem SameBase.timedOut : SameBase s (s.timedOut due code detail src id step m) :=
  (((KeepsShown.advanceTo s due).trans (.raise _ code detail src id)).toSameBase.trans
    (SameDevice.mapCtx _ id m).toSameBase).trans (KeepsShown.notify _ id code detail step []).toSameBase

/-- The context shows what the update makes of what it showed before. -/
theorem State.ctx?_timedOut {c : Ctx} (h : s.ctx? id = some c) (hid : ∀ c, (m c).id = c.id) :
    ∃ d e, (s.timedOut due code detail src id step m).ctx? id = some e ∧ c.SameShown d ∧ (m d).SameShown e := by
  obtain ⟨d, hd, same⟩ := ((KeepsShown.advanceTo s due).trans (.raise _ code detail src id)).shown id c h
  obtain ⟨e, he, same'⟩ := (KeepsShown.notify _ id code detail step []).shown id _ (State.ctx?_mapCtx_self hd hid)
  exact ⟨d, e, he, same, same'⟩

end

/-- What a wait that expired in its context makes of it (R264). -/
def Ctx.waitExpired (r : InstrRef) (ref now : Nat) (c : Ctx) : Ctx :=
  (({ c with syn := { c.syn with timedOut := true, timedOutAt := some now, ref } }).mapPlaced r
    fun p => { p with since := none }).holdWith 0x4003 (ref % 65536)

theorem Ctx.waitExpired_id (r : InstrRef) (ref now : Nat) (c : Ctx) : (c.waitExpired r ref now).id = c.id := rfl

/-- What a collective that expired in its context makes of it (R321). -/
def Ctx.collExpired (serial : Nat) (c : Ctx) : Ctx :=
  ({ c with syn := { c.syn with collTimedOut := true, serial } }).holdWith 0x3201 serial

theorem Ctx.collExpired_id (serial : Nat) (c : Ctx) : (c.collExpired serial).id = c.id := rfl

theorem exec_waitTimeout {s : State} {r : InstrRef} {f : Found} {ref : Nat} (found : s.found? r = some f)
    (waits : s.waitingOn f r = some ref) (unqueued : s.arbiter.queue.contains r = false) :
    exec (.waitTimeout r) s = .next (s.timedOut (f.p.since.getD s.now + f.ctx.waitUs) 0x4003 (ref % 65536) f.path r.ctx
      f.run.step (Ctx.waitExpired r ref (s.advanceTo (f.p.since.getD s.now + f.ctx.waitUs)).now)) := by
  have row : exec (.waitTimeout r) s = execWaitTimeout r s := rfl
  simp only [row, execWaitTimeout, found, waits, State.advanceTo_arbiter, unqueued, Bool.false_eq_true, if_false,
    State.waitExpired, State.mapPlaced]
  rw [State.mapCtx_mapCtx, State.mapCtx_mapCtx]
  · rfl
  · exact fun _ => rfl
  · exact fun _ => rfl

theorem exec_collTimeout {s : State} {r : InstrRef} {f : Found} {k : Coll} {e : CollEnv} (found : s.found? r = some f)
    (coll : f.coll? = some k) (env : f.collEnv = some e) (running : f.ctx.phase = .running) (free : f.ctx.holdAsked = false) :
    exec (.collTimeout r) s = .next (s.timedOut (k.since + f.ctx.collUs) 0x3201 e.g.serial
      ((s.advanceTo (k.since + f.ctx.collUs)).collSource f.path) r.ctx r.step (Ctx.collExpired e.g.serial)) := by
  have row : exec (.collTimeout r) s = execCollTimeout r s := rfl
  simp only [row, execCollTimeout, found, coll, env, running, free, Bool.not_false, and_self, if_true]
  rfl

/-! ## A stalled update is counted (R181) -/

/-- The state once a stall is logged and counted in its context, before it is counted in the version record. -/
def State.stallCounted (s : State) (r : InstrRef) (path due missing : Nat) : State :=
  (((s.advanceTo due).raise 0x4101 missing path r.ctx).mapPlaced r fun p => { p with stalled := true }).mapCtx r.ctx
    fun c => { c with upd := { c.upd with stalls := satAdd 0xFFFF c.upd.stalls 1 } }

theorem SameBase.stallCounted (s : State) (r : InstrRef) (path due missing : Nat) :
    SameBase s (s.stallCounted r path due missing) :=
  (((KeepsShown.advanceTo s due).trans (.raise ..)).trans (.mapPlaced ..)).toSameBase.trans (SameDevice.mapCtx ..).toSameBase

theorem State.ctx?_stallCounted {s : State} {r : InstrRef} {c : Ctx} (h : s.ctx? r.ctx = some c) (path due missing : Nat) :
    ∃ d, (s.stallCounted r path due missing).ctx? r.ctx = some d ∧ d.upd.stalls = satAdd 0xFFFF c.upd.stalls 1 ∧
      d.counters = c.counters ∧ d.phase = c.phase := by
  obtain ⟨d, hd, same⟩ :=
    (((KeepsShown.advanceTo s due).trans (.raise _ 0x4101 missing path r.ctx)).trans (.mapPlaced _ r _)).shown r.ctx c h
  exact ⟨_, State.ctx?_mapCtx_self hd fun _ => rfl, congrArg (fun u : UpdRegs => satAdd 0xFFFF u.stalls 1) same.upd,
    same.counters, same.phase⟩

/-- A fault leaves its context's PED_UPD_STATUS and counters as they were (R377). -/
theorem State.ctx?_fault_upd_counters {s : State} {id : Nat} {c : Ctx} (h : s.ctx? id = some c) (hp : c.phase ≠ .resetting)
    (path : Nat) (e : Fail) :
    ∃ d, (s.fault id path e).ctx? id = some d ∧ d.upd = c.upd ∧ d.counters = c.counters := by
  obtain ⟨opMs, shown⟩ := State.ctx?_fault h hp path e
  obtain ⟨before, hbefore⟩ := c.noteFail_eq path e
  obtain ⟨after, hafter⟩ := ((c.noteFail path e).enterReset 2 s.now opMs).noteFail_eq path e
  rw [hafter, hbefore] at shown
  exact ⟨_, shown, rfl, rfl⟩

/-- A read in front of a write that succeeds. -/
theorem exists_of_bind_eq_ok {α β : Type} {x : Except Fail α} {g : α → Except Fail β} {b : β} (h : (x >>= g) = .ok b) :
    ∃ a, g a = .ok b := by
  cases x with
  | error e => cases h
  | ok a => exact ⟨a, h⟩

/-- What the row comes to: the version record counts the stall as well, or the access to the record faults. -/
theorem exec_updateStall_cases {s : State} {r : InstrRef} {f : Found} {due missing : Nat} (found : s.found? r = some f)
    (gate : f.p.gateDue = some due) (reads : s.gateMissing f = .ok missing) (blocked : 0 < missing)
    (issued : f.p.phase = .issued) (hop : wOp f.words = 0x32) (first : f.p.stalled = false) (placing : f.ctx.placing = true)
    (early : due - f.p.issuedAt < f.ctx.waitUs) :
    ∃ t, exec (.updateStall r) s = .next t ∧ (KeepsShown (s.stallCounted r f.path due missing) t ∨
      ∃ e, t = (s.stallCounted r f.path due missing).fault r.ctx f.path e) := by
  have row : exec (.updateStall r) s = execUpdateStall r s := rfl
  simp only [row, execUpdateStall, found, gate, reads, blocked, issued, hop, first, placing, early, Bool.not_false, and_self,
    if_true]
  rw [← State.stallCounted]
  split
  · exact ⟨_, rfl, .inl (.refl _)⟩
  · split
    · next h =>
      obtain ⟨w, written⟩ := exists_of_bind_eq_ok h
      exact ⟨_, rfl, .inl (.wrNat written)⟩
    · exact ⟨_, rfl, .inr ⟨_, rfl⟩⟩

theorem Ctx.phase_of_placing {c : Ctx} (h : c.placing = true) : c.phase = .running := by
  simp only [Ctx.placing, Bool.and_eq_true, beq_iff_eq] at h
  obtain ⟨⟨running, -⟩, -⟩ := h
  exact running

/-- Settles O24: a timeout's row writes no memory, and the notice after the hold leaves what the hold shows; neither the
write of the version record's count, nor a fault in its place, touches the context's count of stalls. -/
theorem timeoutsHoldTheContext : Obligations.TimeoutsHoldTheContext := by
  unfold Obligations.TimeoutsHoldTheContext
  intro s r f found
  have named := State.ctx?_of_found found
  refine ⟨fun ref waits unqueued => ?_, fun k e coll env running free => ?_,
    fun due missing gate reads blocked issued hop first placing early => ?_⟩
  · obtain ⟨d, e, he, same, shown⟩ := State.ctx?_timedOut s _ _ _ _ _ _ named (Ctx.waitExpired_id r ref _)
    exact ⟨_, e, exec_waitTimeout found waits unqueued, he, shown.phase, congrArg SynRegs.timedOut shown.syn,
      congrArg SynRegs.ref shown.syn, shown.heldCode, shown.heldDetail, shown.counters.trans same.counters,
      State.timedOut_mem .., .timedOut ..⟩
  · obtain ⟨d, c, hc, same, shown⟩ := State.ctx?_timedOut s _ _ _ _ _ _ named (Ctx.collExpired_id e.g.serial)
    exact ⟨_, c, exec_collTimeout found coll env running free, hc, shown.phase, congrArg SynRegs.collTimedOut shown.syn,
      congrArg SynRegs.serial shown.syn, shown.heldCode, shown.heldDetail, shown.counters.trans same.counters,
      State.timedOut_mem .., .timedOut ..⟩
  · obtain ⟨t, run, ends⟩ := exec_updateStall_cases found gate reads blocked issued hop first placing early
    obtain ⟨c, hc, stalls, counters, phase⟩ := State.ctx?_stallCounted named f.path due missing
    have base := SameBase.stallCounted s r f.path due missing
    rcases ends with keeps | ⟨e, rfl⟩
    · obtain ⟨d, hd, same⟩ := keeps.shown r.ctx c hc
      exact ⟨t, d, run, hd, (congrArg UpdRegs.stalls same.upd).trans stalls, same.counters.trans counters,
        base.trans keeps.toSameBase⟩
    · have stopped : c.phase ≠ .resetting := by simp [phase, Ctx.phase_of_placing placing]
      obtain ⟨d, hd, upd, kept⟩ := State.ctx?_fault_upd_counters hc stopped f.path e
      exact ⟨_, d, run, hd, (congrArg UpdRegs.stalls upd).trans stalls, kept.trans counters,
        base.trans (SameDevice.fault ..).toSameBase⟩

end Sys2Proof.Machine
end

section
/-! PROOFS. What saving pages, notices and writes through a window (R222, R244, R336) leave of a context, whatever part of it
is looked at. -/

namespace Sys2Proof.Machine

/-! ## What an operation leaves to be seen of every context -/

/-- Every context shows what it showed before, of what the reading `π` sees of it. -/
structure KeepsSeen {α : Type} (π : Ctx → α) (s t : State) : Prop where
  seen : ∀ id, (t.ctx? id).map π = (s.ctx? id).map π

/-- The reading sees nothing of what the saving of pages, the cadence and the notices change in a context. -/
def Ctx.NotesUnseen {α : Type} (π : Ctx → α) : Prop :=
  ∀ (c : Ctx) snap lgl rst events eventsLost, π { c with snap, lgl, rst, events, eventsLost } = π c

namespace KeepsSeen

variable {α : Type} {π : Ctx → α}

theorem refl (s : State) : KeepsSeen π s s := ⟨fun _ => rfl⟩

theorem trans {s t u : State} (h : KeepsSeen π s t) (k : KeepsSeen π t u) : KeepsSeen π s u :=
  ⟨fun id => (k.seen id).trans (h.seen id)⟩

theorem of_ctxs {s t : State} (h : t.ctxs = s.ctxs) : KeepsSeen π s t := ⟨fun id => by rw [State.ctx?, h, ← State.ctx?]⟩

theorem mapCtx (s : State) (j : Nat) {m : Ctx → Ctx} (hid : ∀ c, (m c).id = c.id) (hm : ∀ c, π (m c) = π c) :
    KeepsSeen π s (s.mapCtx j m) := by
  refine ⟨fun id => ?_⟩
  rw [State.ctx?_mapCtx s j id hid]
  split
  · rw [Option.map_map]
    exact congrArg (fun g => (s.ctx? id).map g) (funext hm)
  · rfl

theorem raise (s : State) (code detail src ctx : Nat) : KeepsSeen π s (s.raise code detail src ctx) := of_ctxs rfl

theorem exists_after {s t : State} (h : KeepsSeen π s t) {id : Nat} {c : Ctx} (hc : s.ctx? id = some c) :
    ∃ d, t.ctx? id = some d ∧ π d = π c := by
  have seen := h.seen id
  rw [hc, Option.map_some, Option.map_eq_some_iff] at seen
  exact seen

/-! ### Notices, snapshots, the cadence -/

section
variable (unseen : Ctx.NotesUnseen π)
include unseen

theorem notify (s : State) (id code detail step : Nat) (data : List Nat) :
    KeepsSeen π s (s.notify id code detail step data) := by
  unfold State.notify
  split
  · exact .refl s
  · dsimp only
    split
    · exact of_ctxs rfl
    · exact mapCtx s id (fun _ => rfl) fun c => unseen c c.snap c.lgl c.rst _ _

theorem snapComplete (s : State) (id : Nat) : KeepsSeen π s (s.snapComplete id) := by
  have noted (snap : Option Snapshot) (rst : Ctx → ResetRegs) :
      KeepsSeen π s (s.mapCtx id fun c => { c with snap, rst := rst c }) :=
    mapCtx s id (fun _ => rfl) fun c => unseen c snap c.lgl (rst c) c.events c.eventsLost
  unfold State.snapComplete
  split
  · exact .refl s
  · split
    · split
      · dsimp only
        split
        · exact (noted _ _).trans (notify unseen ..)
        · exact noted _ _
      · exact .refl s
    · exact .refl s

theorem mapSnap (s : State) (id : Nat) (m : Option Snapshot → Option Snapshot) :
    KeepsSeen π s (s.mapCtx id fun c => { c with snap := m c.snap }) :=
  mapCtx s id (fun _ => rfl) fun c => unseen c (m c.snap) c.lgl c.rst c.events c.eventsLost

theorem releaseSlot (s : State) (id win : Nat) : KeepsSeen π s (s.releaseSlot id win) := by
  unfold State.releaseSlot
  split
  · exact .refl s
  · split
    · exact .refl s
    · split
      · dsimp only
        refine (trans ?_ (mapSnap unseen _ id _)).trans (snapComplete unseen ..)
        split
        · exact of_ctxs rfl
        · exact .refl s
      · exact .refl s

theorem firstWrite (s : State) (id off : Nat) : KeepsSeen π s (s.firstWrite id off) := by
  unfold State.firstWrite
  split
  · split
    · dsimp only
      split
      · refine (trans (mapSnap unseen s id _) (releaseSlot unseen ..)).trans (mapCtx _ id (fun _ => rfl) fun c => ?_)
        exact unseen c c.snap _ c.rst c.events c.eventsLost
      · exact mapSnap unseen s id _
    · exact .refl s
  · exact .refl s

theorem updateCadence (s : State) (id : Nat) : KeepsSeen π s (s.updateCadence id) := by
  unfold State.updateCadence
  split
  · exact .refl s
  · exact mapCtx s id (fun _ => rfl) fun c => unseen c c.snap c.lgl _ c.events c.eventsLost

theorem takeSnapshot (s : State) (id : Nat) (mark : SnapMark) : KeepsSeen π s (s.takeSnapshot id mark) := by
  unfold State.takeSnapshot
  split
  · exact .refl s
  · dsimp only
    refine trans (trans ?_ (mapCtx _ id ?_ ?_)) (snapComplete unseen ..)
    · split
      · exact of_ctxs rfl
      · exact .refl s
    · exact fun _ => rfl
    · exact fun c => unseen c _ c.lgl _ c.events c.eventsLost

end

end KeepsSeen

/-! ### Operations that may fail -/

/-- Where the operation answers a state, every context shows there what it showed before. -/
structure KeepsSeenOk {α : Type} (π : Ctx → α) (s : State) (x : Except Fail State) : Prop where
  at_ok : ∀ t, x = .ok t → KeepsSeen π s t

namespace KeepsSeenOk

variable {α : Type} {π : Ctx → α}

theorem ok {s t : State} (h : KeepsSeen π s t) : KeepsSeenOk π s (.ok t) := ⟨fun _ e => by cases e; exact h⟩

theorem error (s : State) (e : Fail) : KeepsSeenOk π s (.error e) := ⟨fun _ h => nomatch h⟩

theorem after {s t : State} {x : Except Fail State} (h : KeepsSeen π s t) (k : KeepsSeenOk π t x) : KeepsSeenOk π s x :=
  ⟨fun u e => h.trans (k.at_ok u e)⟩

/-- An operation after a read. -/
theorem read {s : State} {β : Type} {x : Except Fail β} {g : β → Except Fail State} (h : ∀ b, KeepsSeenOk π s (g b)) :
    KeepsSeenOk π s (x >>= g) := by
  cases x with
  | error e => exact error s e
  | ok b => exact h b

/-- An operation after another. -/
theorem bind {s : State} {x : Except Fail State} {g : State → Except Fail State} (h : KeepsSeenOk π s x)
    (k : ∀ t, KeepsSeenOk π t (g t)) : KeepsSeenOk π s (x >>= g) := by
  cases x with
  | error e => exact error s e
  | ok t => exact after (h.at_ok t rfl) (k t)

theorem foldlM {β : Type} {g : State → β → Except Fail State} (h : ∀ s b, KeepsSeenOk π s (g s b)) (l : List β)
    (s : State) : KeepsSeenOk π s (l.foldlM g s) := by
  induction l generalizing s with
  | nil => exact ok (.refl s)
  | cons b l ih => exact (h s b).bind ih

section
variable (unseen : Ctx.NotesUnseen π)
include unseen

theorem wrPage (s : State) (id off : Nat) (bs : List Byte) : KeepsSeenOk π s (s.wrPage id off bs) := by
  unfold State.wrPage
  split
  · exact error s _
  · split
    · split
      · exact error s _
      · exact ok ((KeepsSeen.firstWrite unseen ..).trans (.of_ctxs rfl))
    · exact error s _
    · split
      · exact ok (.refl s)
      · exact error s _

theorem wrPages (k : Nat) (s : State) (id off : Nat) (bs : List Byte) : KeepsSeenOk π s (State.wrPages k s id off bs) := by
  induction k generalizing s off bs with
  | zero => exact ok (.refl s)
  | succ k ih =>
    unfold State.wrPages
    split
    · exact ok (.refl s)
    · dsimp only
      split
      · exact error s _
      · next s' first => exact after ((wrPage unseen s id off _).at_ok s' first) (ih s' _ _)

theorem wrNat (s : State) (id off n v : Nat) : KeepsSeenOk π s (s.wrNat id off n v) := wrPages unseen ..

end

end KeepsSeenOk

end Sys2Proof.Machine
end

section
/-! PROOFS. A step boundary (R213, R267): what the marks and the grant (R131, R134) leave of a context's position, and what the
boundary makes of its course. -/

namespace Sys2Proof.Machine

/-! ## Marks and grants (R131, R134) -/

/-- The phase of a context, and the step and tag its registers name (R213). -/
def Ctx.position (c : Ctx) : CtxPhase × SprRegs := (c.phase, c.spr)

/-- Beside the position: the steps in flight and the SIEVE registers (R141, R266). -/
def Ctx.course (c : Ctx) : (CtxPhase × SprRegs) × List StepRun × SieveRegs := (c.position, c.steps, c.sieve)

theorem Ctx.notesUnseen_position : Ctx.NotesUnseen Ctx.position := fun _ _ _ _ _ _ => rfl

theorem Ctx.notesUnseen_course : Ctx.NotesUnseen Ctx.course := fun _ _ _ _ _ _ => rfl

theorem State.setRecFlags_position (s : State) (id off : Nat) (mark wide hist : Bool) :
    KeepsSeenOk Ctx.position s (s.setRecFlags id off mark wide hist) := .wrNat Ctx.notesUnseen_position ..

theorem State.setMarks_position (s : State) (id : Nat) (p : Plan) : KeepsSeenOk Ctx.position s (s.setMarks id p) := by
  unfold State.setMarks
  refine (KeepsSeenOk.foldlM (fun t x => ?_) _ s).bind fun t => ?_
  · split
    · exact .error t _
    · exact .read fun rc => t.setRecFlags_position ..
  · split
    · exact .error t _
    · exact .read fun _ => .ok (.mapCtx t id (fun _ => rfl) fun _ => rfl)

theorem State.endGrant_position (s : State) (id : Nat) (p : Plan) : KeepsSeenOk Ctx.position s (s.endGrant id p) := by
  unfold State.endGrant
  split
  · exact .error s _
  · refine KeepsSeenOk.after ?_ (.foldlM (fun t x => ?_) _ _)
    · refine KeepsSeen.trans ?_ (.mapCtx _ id ?_ ?_)
      · exact .of_ctxs rfl
      · exact fun _ => rfl
      · exact fun _ => rfl
    · refine .read fun rc => ?_
      split
      · exact t.setRecFlags_position ..
      · exact .ok (.refl t)

theorem State.grant_position (s : State) (id step : Nat) (p : Plan) (lent : List Nat) :
    KeepsSeenOk Ctx.position s (s.grant id step p lent) := by
  unfold State.grant
  split
  · exact .error s _
  · refine (s.endGrant_position id p).bind fun t => .read fun want => ?_
    refine (KeepsSeenOk.foldlM (fun u x => .read fun rc => u.setRecFlags_position ..) _ t).bind fun u => .ok ?_
    split
    · exact .mapCtx u id (fun _ => rfl) fun _ => rfl
    · refine KeepsSeen.trans (.mapCtx u id ?_ ?_) (.raise ..)
      · exact fun _ => rfl
      · exact fun _ => rfl

/-! ## The boundary (R213, R267) -/

/-- The registers name a step that has completed (R213). -/
def Ctx.nameStep (run : StepRun) (c : Ctx) : Ctx := { c with spr := { c.spr with step := run.step, tag := run.tag } }

/-- The step leaves those in flight (R267): the next is released, and what was noted for the step ends with it. -/
def Ctx.leaveStep (run : StepRun) (rest : List StepRun) (asked degraded : Bool) (c : Ctx) : Ctx :=
  { c with steps := rest, snapAsked := c.snapAsked && !asked, heldDegraded := false
           sieve := { c.sieve with jit := c.sieve.jit.filter (· != run.step), replay := false, lent := 0, degraded } }

/-- A running context that is left without a step in flight becomes READY (R267). -/
def Ctx.readyIf (idle : Bool) (c : Ctx) : Ctx := { c with phase := if c.phase = .running ∧ idle then .ready else c.phase }

theorem Ctx.course_leaveStep (run : StepRun) (rest : List StepRun) (asked degraded : Bool) (c : Ctx) :
    (c.leaveStep run rest asked degraded).course = (c.position, rest, (c.leaveStep run rest asked degraded).sieve) := rfl

theorem Ctx.course_readyIf (idle : Bool) (c : Ctx) : (c.readyIf idle).course =
    ((if c.course.1.1 = .running ∧ idle then .ready else c.course.1.1, c.course.1.2), c.course.2) := rfl

/-- What a boundary comes to: the marks or the next grant fail, or the step leaves those in flight and the snapshot and the
notice touch the course of no context. -/
theorem State.boundary_cases {s : State} {id : Nat} {c : Ctx} {run : StepRun} {rest : List StepRun} {p : Plan}
    (hc : s.ctx? id = some c) (steps : c.steps = run :: rest) (plan : c.plan = some p) (path : Nat) (degraded : Bool) :
    (∃ e, s.boundary id path degraded = (s.mapCtx id (Ctx.nameStep run)).fault id path e) ∨
    (∃ t u, KeepsSeen Ctx.position (s.mapCtx id (Ctx.nameStep run)) t ∧
      KeepsSeen Ctx.course (t.mapCtx id (Ctx.leaveStep run rest (run.snapDecided.isNone && c.snapAsked) degraded)) u ∧
      KeepsSeen Ctx.course (u.mapCtx id (Ctx.readyIf rest.isEmpty)) (s.boundary id path degraded)) := by
  have marksGrant : KeepsSeenOk Ctx.position (s.mapCtx id (Ctx.nameStep run))
      (do (← (s.mapCtx id (Ctx.nameStep run)).setMarks id p).grant id (run.step + 1) p []) :=
    (State.setMarks_position ..).bind fun t => t.grant_position ..
  simp only [State.boundary, hc, steps, plan]
  split
  · exact .inl ⟨_, rfl⟩
  · next t granted =>
    refine .inr ⟨t, _, marksGrant.at_ok t granted, ?_, .notify Ctx.notesUnseen_course ..⟩
    refine (KeepsSeen.updateCadence Ctx.notesUnseen_course _ id).trans ?_
    split
    · exact .refl _
    · exact .takeSnapshot Ctx.notesUnseen_course ..

/-- A running context that does not fault at a boundary has left the step behind (R213, R267). -/
theorem State.ctx?_boundary {s : State} {id : Nat} {c d : Ctx} {run : StepRun} {rest : List StepRun} {p : Plan} {path : Nat}
    {degraded : Bool} (hc : s.ctx? id = some c) (steps : c.steps = run :: rest) (plan : c.plan = some p)
    (running : c.phase = .running) (hd : (s.boundary id path degraded).ctx? id = some d) (stands : d.phase ≠ .resetting) :
    ∃ sieve : SieveRegs, d.course = ((if rest.isEmpty then .ready else .running, (c.nameStep run).spr), rest,
      { sieve with lent := 0, degraded }) := by
  have named : (s.mapCtx id (Ctx.nameStep run)).ctx? id = some (c.nameStep run) := State.ctx?_mapCtx_self hc fun _ => rfl
  rcases State.boundary_cases hc steps plan path degraded with ⟨e, faulted⟩ | ⟨t, u, marked, left, ended⟩
  · obtain ⟨opMs, shown⟩ := State.ctx?_fault named (by simp [Ctx.nameStep, running]) path e
    rw [← faulted, hd] at shown
    cases shown
    exact absurd (Ctx.noteFail_phase ..) stands
  · obtain ⟨c₁, hc₁, position⟩ := marked.exists_after named
    obtain ⟨c₂, hc₂, course⟩ := left.exists_after (State.ctx?_mapCtx_self hc₁ fun _ => rfl)
    obtain ⟨c₃, hc₃, shown⟩ := ended.exists_after (State.ctx?_mapCtx_self hc₂ fun _ => rfl)
    cases hd.symm.trans hc₃
    refine ⟨(c₁.leaveStep run rest (run.snapDecided.isNone && c.snapAsked) degraded).sieve, ?_⟩
    rw [shown, Ctx.course_readyIf, course, Ctx.course_leaveStep, position]
    cases idle : rest.isEmpty <;> simp [Ctx.position, Ctx.nameStep, Ctx.leaveStep, running]

/-- Settles O17: the rows complete the instruction and hand the context to the end of its step; what fails at a boundary faults
the context, and nothing else there touches its position before the step is left, nor its course after it. -/
theorem stepAndLoopEndsEndTheStep : Obligations.StepAndLoopEndsEndTheStep := by
  unfold Obligations.StepAndLoopEndsEndTheStep
  refine ⟨fun s r f c found completed running => ⟨fun ready => ?_, fun ready ended => ?_⟩,
    fun s id path degraded c d run rest p hc steps plan running hd stands => ?_⟩
  · have row : exec (.stepEnd r) s = execStepEnd r s := rfl
    simp [row, execStepEnd, found, ready, completed, running]
  · have row : exec (.loopEnd r) s = execLoopEnd r s := rfl
    simp [row, execLoopEnd, found, ready, completed, running, ended]
  · obtain ⟨sieve, course⟩ := State.ctx?_boundary hc steps plan running hd stands
    simp only [Ctx.course, Ctx.position, Prod.mk.injEq] at course
    obtain ⟨⟨phase, spr⟩, left, regs⟩ := course
    exact ⟨congrArg SprRegs.step spr, congrArg SprRegs.tag spr, left, congrArg SieveRegs.degraded regs,
      congrArg SieveRegs.lent regs, phase⟩

end Sys2Proof.Machine
end

section
/-! PROOFS. A command that passes the checks (R332 to R335), and the answer to it (R331 to R333). -/

namespace Sys2Proof.Machine

/-! ## The command -/

theorem State.session?_mapSession_self {s : State} {id : Nat} {x : Session} {f : Session → Session}
    (h : s.session? id = some x) (hf : ∀ x, (f x).id = x.id) : (s.mapSession id f).session? id = some (f x) := by
  simp [State.session?_mapSession s id id hf, h]

/-- A connection's session is open. -/
theorem State.session?_of_sessionOf {s : State} {conn : Nat} {se : Session} (h : s.sessionOf conn = some se) :
    s.session? se.id = some se := by
  have named {i : Nat} (hi : s.session? i = some se) : s.session? se.id = some se := by rwa [State.session?_id hi]
  unfold State.sessionOf at h
  split at h
  · exact named h
  · obtain ⟨k, -, hk⟩ := Option.bind_eq_some_iff.mp h
    obtain ⟨i, -, hi⟩ := Option.bind_eq_some_iff.mp hk
    exact named hi

/-- An accepted command of the row's own code does what its row says, once it has taken its place in the sequence (R334). -/
theorem State.command_of_accepted {s : State} {sl : Slot} {se : Session} (h : Accepted s sl se) (i : Instr)
    (run : Session → State → State) : s.command i sl true run = run se (s.advanceSeq se.id sl) := by
  obtain ⟨serving, session, form, header, names, free, opened, idle, alone, verdict⟩ := h
  have greeted : (!se.hello && se.id != 0 && sl.cmd != 1) = false := by
    rcases opened with e | e | e <;> simp [e]
  simp [State.command, State.execute, serving, session, form, header, names, free, idle, alone, verdict, greeted]

@[simp] theorem State.ctx?_advanceSeq (s : State) (id : Nat) (sl : Slot) (j : Nat) :
    (s.advanceSeq id sl).ctx? j = s.ctx? j := rfl

/-- Of the session, its place in the sequence alone changes (R334). -/
theorem State.session?_advanceSeq {s : State} {sl : Slot} {se : Session} (h : Accepted s sl se) :
    (s.advanceSeq se.id sl).session? se.id = some { se with nextSeq := (sl.seq.toNat + 1) % 65536 } :=
  State.session?_mapSession_self (State.session?_of_sessionOf h.session) fun _ => rfl

/-! ## The answer -/

section
variable (s : State) (id : Nat) (sl : Slot) (status detail : Nat) (words : List (Nat × Nat)) (payload : List Byte)

/-- An answer touches the session and the in-band interrupts of the I3C alone (R328). -/
theorem State.answer_eq : ∃ ligil power, s.answer id sl status detail words payload = { s with ligil, power } := by
  unfold State.answer
  split
  · exact ⟨s.ligil, s.power, rfl⟩
  · dsimp only
    split <;> exact ⟨_, _, rfl⟩

@[simp] theorem State.answer_ctxs : (s.answer id sl status detail words payload).ctxs = s.ctxs := by
  obtain ⟨_, _, h⟩ := s.answer_eq id sl status detail words payload
  rw [h]

@[simp] theorem State.ctx?_answer (j : Nat) : (s.answer id sl status detail words payload).ctx? j = s.ctx? j :=
  congrArg (List.find? _) (s.answer_ctxs id sl status detail words payload)

@[simp] theorem State.answer_mem : (s.answer id sl status detail words payload).mem = s.mem := by
  obtain ⟨_, _, h⟩ := s.answer_eq id sl status detail words payload
  rw [h]

/-- A session with a response in its slot. -/
def Session.answered (x : Session) (r : CmdSlot) : Session :=
  { x with slots := (x.slots.filter fun y => y.number != r.number) ++ [r] }

theorem State.answer_of_open {s : State} {id : Nat} {x : Session} (h : s.session? id = some x) :
    ∃ owner power, s.answer id sl status detail words payload =
      { s.mapSession id fun x => x.answered (response owner sl status detail words payload) with power } := by
  simp only [State.answer, h]
  split
  · exact ⟨_, _, rfl⟩
  · exact ⟨_, s.power, rfl⟩

/-- The slot of an open session holds the answer (R331). -/
theorem State.responded_answer {s : State} {id : Nat} {x : Session} (h : s.session? id = some x) :
    (s.answer id sl status detail words payload).responded id sl status := by
  obtain ⟨owner, power, answered⟩ := State.answer_of_open sl status detail words payload h
  refine ⟨x.answered (response owner sl status detail words payload), response owner sl status detail words payload, ?_,
    List.mem_append_right _ (List.mem_singleton_self _), rfl, rfl, rfl, rfl⟩
  rw [answered]
  exact State.session?_mapSession_self h fun _ => rfl

end

/-- Answers to the commands that wait touch sessions alone. -/
theorem State.answerBusy_frame (s : State) (p : Busy → Option (Nat × Nat × List (Nat × Nat))) :
    (s.answerBusy p).ctxs = s.ctxs ∧ (s.answerBusy p).mem = s.mem := by
  refine List.foldlRecOn (motive := fun t : State => t.ctxs = s.ctxs ∧ t.mem = s.mem) _ _ ⟨rfl, rfl⟩ fun t same se _ => ?_
  refine List.foldlRecOn (motive := fun t : State => t.ctxs = s.ctxs ∧ t.mem = s.mem) _ _ same fun u ⟨ctxs, mem⟩ b _ => ?_
  split
  · exact ⟨(State.answer_ctxs ..).trans ctxs, (State.answer_mem ..).trans mem⟩
  · exact ⟨ctxs, mem⟩

/-- A command that waits is among those of its session. -/
theorem State.session?_setBusy {s : State} {id : Nat} {x : Session} (h : s.session? id = some x) (b : Busy) (sl : Slot) :
    ∃ y, (s.setBusy id b sl).session? id = some y ∧ (b, sl) ∈ y.busy := by
  refine ⟨{ x with busy := x.busy ++ [(b, sl)] }, ?_, List.mem_append_right _ (List.mem_singleton_self _)⟩
  exact State.session?_mapSession_self h fun _ => rfl

end Sys2Proof.Machine
end

section
/-! PROOFS. HOLD, HOLD_COMPLETE and RESUME (R352, R353). -/

namespace Sys2Proof.Machine

/-! ## HOLD and HOLD_COMPLETE (R352) -/

theorem exec_hold {s : State} {sl : Slot} {se : Session} {c : Ctx} (h : Accepted s sl se) (code : sl.cmd = 0x31)
    (hc : s.ctx? (sl.w 4 % 256) = some c) (empty : sl.len = 0) (named : sl.ctxOk = true) (runs : c.phase ≠ .held) :
    exec (.hold sl) s = .next (((s.advanceSeq se.id sl).mapCtx c.id fun c => { c with holdAsked := true }).setBusy se.id
      (.hold c.id) sl) := by
  have row : exec (.hold sl) s = execHold sl s := rfl
  rw [row, execHold, code, beq_self_eq_true, State.command_of_accepted h]
  simp [State.holdCmd, hc, empty, named, runs]

theorem State.answerHold_mem (s : State) (id status detail : Nat) : (s.answerHold id status detail).mem = s.mem :=
  (s.answerBusy_frame _).2

theorem State.ctx?_answerHold (s : State) (id status detail j : Nat) :
    (s.answerHold id status detail).ctx? j = s.ctx? j :=
  congrArg (List.find? _) (s.answerBusy_frame _).1

theorem exec_holdComplete {s : State} {id : Nat} {c : Ctx} (hc : s.ctx? id = some c) (asked : c.holdAsked = true)
    (active : c.phase = .running ∨ c.phase = .ready) (still : s.anyRuns c = false)
    (stepped : c.phase = .running → (c.plan.any fun p => p.kind == 2) = false) :
    exec (.holdComplete id) s = .next ((s.mapCtx id fun c => c.holdWith 0x0031 0).answerHold id 0 0) := by
  have row : exec (.holdComplete id) s = execHoldComplete id s := rfl
  rcases active with phase | phase
  · simp [row, execHoldComplete, hc, asked, still, phase, stepped phase]
  · simp [row, execHoldComplete, hc, asked, still, phase]

/-! ## RESUME (R353) -/

/-- The command names the position that the context waits to have confirmed (R214). -/
def Ctx.confirmedBy (c : Ctx) (sl : Slot) : Prop := c.spr.posWait = true → bitOf (sl.w 5) 0 = true ∧ sl.w64 6 = c.spr.tag

/-- A context goes on where it stopped, its position confirmed. -/
def Ctx.goOn (c : Ctx) : Ctx := { c with phase := c.resumedPhase, spr := { c.spr with posWait := false } }

theorem exec_resume {s : State} {sl : Slot} {se : Session} (h : Accepted s sl se) (code : sl.cmd = 0x32) :
    exec (.resume sl) s = .next ((s.advanceSeq se.id sl).resume sl se) := by
  have row : exec (.resume sl) s = execResume sl s := rfl
  rw [row, execResume, code, beq_self_eq_true, State.command_of_accepted h]

section
variable {s : State} {sl : Slot} {c : Ctx} (hc : s.ctx? (sl.w 4 % 256) = some c) (sound : Slot.resumeBad sl = none)
include hc sound

theorem State.resume_of_confirmed (se : Session) (confirmed : c.confirmedBy sl)
    (stepped : bitOf (sl.w 5) 1 = true → c.steps ≠ []) : s.resume sl se = (s.resumed sl c).ok se.id sl := by
  have confirms : (c.spr.posWait && !(bitOf (sl.w 5) 0 && sl.w64 6 == c.spr.tag)) = false := by
    cases waits : c.spr.posWait with
    | false => rfl
    | true => simp [confirmed waits]
  have masks : (bitOf (sl.w 5) 1 && c.steps.isEmpty) = false := by
    cases mask : bitOf (sl.w 5) 1 with
    | false => rfl
    | true => simp [stepped mask]
  simp only [State.resume, hc, sound, confirms, masks, Bool.false_eq_true, if_false]

theorem State.resume_of_unconfirmed (se : Session) (waits : c.spr.posWait = true)
    (other : bitOf (sl.w 5) 0 = false ∨ sl.w64 6 ≠ c.spr.tag) : s.resume sl se = s.refuse se.id sl 0x4301 0 := by
  have differs : (bitOf (sl.w 5) 0 && sl.w64 6 == c.spr.tag) = false := by
    rcases other with e | e <;> simp [e]
  simp [State.resume, hc, sound, waits, differs]

end

theorem Ctx.resumedPhase_goesOn (c : Ctx) : (c.resumedPhase == .held || c.resumedPhase == .resetting) = false := by
  unfold Ctx.resumedPhase
  split
  · rfl
  · split
    · rfl
    · split <;> rfl

/-- Where no restored context lacks residency, nothing is taken (R234). -/
theorem State.payOwed_of_owes_nothing {s : State} (h : ∀ x ∈ s.ctxs, x.owed = []) : s.payOwed = s := by
  refine List.foldlRecOn (motive := fun t : State => t = s) _ _ rfl fun t same c hc => ?_
  rw [h c hc]
  exact same

theorem State.mapCtx_owes_nothing {s : State} (h : ∀ x ∈ s.ctxs, x.owed = []) (id : Nat) {m : Ctx → Ctx}
    (hm : ∀ c, (m c).owed = c.owed) : ∀ x ∈ (s.mapCtx id m).ctxs, x.owed = [] := by
  intro x hx
  obtain ⟨c, hc, rfl⟩ := List.mem_map.mp hx
  split
  · rw [hm, h c hc]
  · exact h c hc

/-- Without a new mask and discards the context goes on with its timers started again (R353). -/
theorem State.resumed_plain {s : State} {sl : Slot} {c : Ctx} (hc : s.ctx? c.id = some c) (mask : bitOf (sl.w 5) 1 = false)
    (discards : bitOf (sl.w 5) 2 = false) (sound : c.heldDegraded = false) (paid : ∀ x ∈ s.ctxs, x.owed = []) :
    s.resumed sl c = s.mapCtx c.id fun d => d.goOn.restartTimers s.now := by
  have went : (s.mapCtx c.id Ctx.goOn).ctx? c.id = some c.goOn := State.ctx?_mapCtx_self hc fun _ => rfl
  have active : (c.goOn.phase == .held || c.goOn.phase == .resetting) = false := c.resumedPhase_goesOn
  have restarted : State.payOwed ((s.mapCtx c.id Ctx.goOn).mapCtx c.id fun d => d.restartTimers s.now) =
      s.mapCtx c.id fun d => d.goOn.restartTimers s.now := by
    rw [State.mapCtx_mapCtx s c.id Ctx.goOn _ fun _ => rfl]
    exact State.payOwed_of_owes_nothing (State.mapCtx_owes_nothing paid c.id fun _ => rfl)
  rw [← restarted]
  simp only [State.resumed, mask, discards, sound, Bool.false_eq_true, if_false]
  change (if ((s.mapCtx c.id Ctx.goOn).ctx? c.id).any _ = true then _ else _) = _
  rw [went, Option.any_some, active]
  rfl

theorem Ctx.restartTimers_steps (c : Ctx) (now : Nat) :
    (c.restartTimers now).steps.map StepRun.step = c.steps.map StepRun.step := by
  rw [Ctx.restartTimers, List.map_map]
  rfl

/-- Settles O36: an accepted command reaches its row's effect, a hold touches neither steps nor memory, and with every residency
paid a plain resume is one update of its own context. -/
theorem holdAndResumeAct : Obligations.HoldAndResumeAct := by
  unfold Obligations.HoldAndResumeAct
  refine ⟨fun s c => ⟨fun sl se accepted code hc empty named runs => ?_, fun id hc asked active still stepped => ?_⟩,
    fun s sl se c accepted code hc sound => ⟨fun confirmed stepped => ?_,
      fun mask discards whole confirmed paid => ?_, fun waits other => ?_⟩⟩
  · have self : (s.advanceSeq se.id sl).ctx? c.id = some c := by rwa [State.ctx?_advanceSeq, State.ctx?_id hc]
    obtain ⟨x, hx, waits⟩ := State.session?_setBusy
      (s := (s.advanceSeq se.id sl).mapCtx c.id fun c => { c with holdAsked := true })
      (State.session?_advanceSeq accepted) (.hold c.id) sl
    exact ⟨_, _, x, exec_hold accepted code hc empty named runs, State.ctx?_mapCtx_self self fun _ => rfl, rfl, rfl, rfl, hx,
      waits, rfl⟩
  · have held := State.ctx?_mapCtx_self (f := fun c => c.holdWith 0x0031 0) hc fun _ => rfl
    exact ⟨_, _, exec_holdComplete hc asked active still stepped, (State.ctx?_answerHold ..).trans held, rfl, rfl, rfl,
      rfl, rfl, State.answerHold_mem ..⟩
  · rw [exec_resume accepted code, State.resume_of_confirmed (s := s.advanceSeq se.id sl) hc sound se confirmed stepped]
  · have self : (s.advanceSeq se.id sl).ctx? c.id = some c := by rwa [State.ctx?_advanceSeq, State.ctx?_id hc]
    have row := exec_resume accepted code
    rw [State.resume_of_confirmed (s := s.advanceSeq se.id sl) hc sound se confirmed (by simp [mask]),
      State.resumed_plain self mask discards whole paid] at row
    refine ⟨_, _, row, (State.ctx?_answer ..).trans (State.ctx?_mapCtx_self self fun _ => rfl), rfl, rfl,
      Ctx.restartTimers_steps .., rfl, ?_, State.answer_mem .., ?_⟩
    · exact State.responded_answer _ _ _ _ _ (State.session?_advanceSeq accepted)
    · refine fun j other => (State.ctx?_answer ..).trans (SameOthers.mapCtx (s.advanceSeq se.id sl) c.id ?_ j other)
      exact fun _ => rfl
  · have row := exec_resume accepted code
    rw [State.resume_of_unconfirmed (s := s.advanceSeq se.id sl) hc sound se waits other] at row
    exact ⟨_, row, State.responded_answer _ _ _ _ _ (State.session?_advanceSeq accepted), State.answer_ctxs ..,
      State.answer_mem ..⟩

end Sys2Proof.Machine
end

section
/-! PROOFS. Stores through a context's window (R222, R244): they touch no byte but those of the context's own pages. -/

namespace Sys2Proof.Machine

/-! ## A context's own pages -/

/-- The context has the page: mapped, as a fall-back page, or in its snapshot area. -/
def Ctx.hasPage (c : Ctx) (p : Nat) : Prop :=
  p ∈ c.pages.window.map PageMap.dev ∨ p ∈ c.pages.fallback.map PageMap.dev ∨ p ∈ c.pages.area

theorem Ctx.outside_congr {c d : Ctx} (h : d.pages = c.pages) (a : Nat) : d.outside a ↔ c.outside a := by
  simp only [Ctx.outside, h]

/-- What a window maps writable lies in one of the context's own pages; commons views are mapped for reading only. -/
theorem State.translate_hasPage {s : State} {c : Ctx} {off a : Nat} (h : s.translate c off = some (a, true)) :
    ∃ p, c.hasPage p ∧ a = pageAddr p + off % pageSize := by
  unfold State.translate at h
  split at h
  · split at h
    · next m hm =>
      split at h
      · cases h
      · obtain ⟨rfl, -⟩ := Prod.mk.injEq .. ▸ Option.some.inj h
        exact ⟨m.dev, .inl (List.mem_map_of_mem (List.mem_of_find?_eq_some hm)), rfl⟩
    · cases h
  · split at h
    · obtain ⟨b, -, e⟩ := Option.map_eq_some_iff.mp h
      cases e
    · split at h
      · obtain ⟨b, -, e⟩ := Option.map_eq_some_iff.mp h
        cases e
      · split at h
        · split at h
          · next m hm =>
            cases h
            exact ⟨m.dev, .inr (.inl (List.mem_map_of_mem (List.mem_of_find?_eq_some hm))), rfl⟩
          · cases h
        · cases h

/-! ## Memory after a page is saved to its snapshot slot (R244) -/

@[simp] theorem State.snapComplete_mem (s : State) (id : Nat) : (s.snapComplete id).mem = s.mem := by
  unfold State.snapComplete
  split
  · rfl
  · split
    · split
      · dsimp only
        split
        · rw [State.notify_mem, State.mapCtx_mem]
        · rfl
      · rfl
    · rfl

theorem State.releaseSlot_mem (s : State) (id win : Nat) :
    (s.releaseSlot id win).mem = s.mem ∨
      ∃ c src dst, s.ctx? id = some c ∧ dst ∈ c.pages.area ∧ (s.releaseSlot id win).mem = memCopyPage s.mem src dst := by
  unfold State.releaseSlot
  split
  · exact .inl rfl
  · next c hc =>
    split
    · exact .inl rfl
    · split
      · dsimp only
        rw [State.snapComplete_mem, State.mapCtx_mem]
        split
        · next m d hm hd => exact .inr ⟨c, m.dev, d, hc, List.mem_of_getElem? hd, rfl⟩
        · exact .inl rfl
      · exact .inl rfl

/-- A byte outside the pages of the context of an id. -/
def State.outside (s : State) (id a : Nat) : Prop := ∀ c, s.ctx? id = some c → c.outside a

theorem KeepsSeen.outside {s t : State} (h : KeepsSeen Ctx.pages s t) {id a : Nat} (k : s.outside id a) : t.outside id a := by
  intro d hd
  have seen := h.seen id
  rw [hd, Option.map_some, eq_comm, Option.map_eq_some_iff] at seen
  obtain ⟨c, hc, pages⟩ := seen
  exact (Ctx.outside_congr pages.symm a).mpr (k c hc)

theorem State.memRead_releaseSlot {s : State} {id a : Nat} (h : s.outside id a) (win : Nat) :
    memRead (s.releaseSlot id win).mem a = memRead s.mem a := by
  rcases s.releaseSlot_mem id win with same | ⟨c, src, dst, hc, area, copied⟩
  · rw [same]
  · have := h c hc dst (.inr (.inr area))
    rw [copied, memRead_memCopyPage, if_neg (by omega)]

theorem State.memRead_firstWrite {s : State} {id a : Nat} (h : s.outside id a) (off : Nat) :
    memRead (s.firstWrite id off).mem a = memRead s.mem a := by
  unfold State.firstWrite
  split
  · split
    · dsimp only
      split
      · rw [State.mapCtx_mem, State.memRead_releaseSlot ((KeepsSeen.mapCtx s id ?_ ?_).outside h), State.mapCtx_mem]
        · exact fun _ => rfl
        · exact fun _ => rfl
      · rfl
    · rfl
  · rfl

/-! ## What a store keeps -/

theorem Ctx.notesUnseen_pages : Ctx.NotesUnseen Ctx.pages := fun _ _ _ _ _ _ => rfl

/-- What stores through the window of a context leave: the queue and the canonical form, the pages of every context, and
every byte outside the pages of that context. -/
structure Stores (id : Nat) (s t : State) : Prop extends Keeps s t, KeepsSeen Ctx.pages s t where
  unwritten : ∀ a, s.outside id a → memRead t.mem a = memRead s.mem a

namespace Stores

variable {id : Nat}

theorem refl (s : State) : Stores id s s := ⟨.refl s, .refl s, fun _ _ => rfl⟩

theorem trans {s t u : State} (h : Stores id s t) (k : Stores id t u) : Stores id s u :=
  ⟨h.toKeeps.trans k.toKeeps, h.toKeepsSeen.trans k.toKeepsSeen, fun a out =>
    (k.unwritten a (h.toKeepsSeen.outside out)).trans (h.unwritten a out)⟩

/-- An operation that writes no memory. -/
theorem of_seen {s t : State} (hp : t.pending = s.pending) (hm : t.mem = s.mem) (seen : KeepsSeen Ctx.pages s t) :
    Stores id s t := ⟨.of_eq hp hm, seen, fun a _ => congrArg (memRead · a) hm⟩

theorem of_ctxs {s t : State} (hp : t.pending = s.pending) (hm : t.mem = s.mem) (hc : t.ctxs = s.ctxs) : Stores id s t :=
  of_seen hp hm (.of_ctxs hc)

theorem mapCtx (s : State) (j : Nat) {m : Ctx → Ctx} (hid : ∀ c, (m c).id = c.id)
    (hm : ∀ c, (m c).pages = c.pages) : Stores id s (s.mapCtx j m) :=
  of_seen rfl rfl (.mapCtx s j hid hm)

theorem ite {s t u : State} {p : Prop} [Decidable p] (h : Stores id s t) (k : Stores id s u) :
    Stores id s (if p then t else u) := by
  split
  · exact h
  · exact k

theorem foldl {α : Type} {f : State → α → State} (h : ∀ s a, Stores id s (f s a)) (l : List α) (s : State) :
    Stores id s (l.foldl f s) :=
  List.foldlRecOn (motive := Stores id s) l f (.refl s) fun t ht a _ => ht.trans (h t a)

theorem raise (s : State) (code detail src ctx : Nat) : Stores id s (s.raise code detail src ctx) := of_ctxs rfl rfl rfl

theorem draw (s : State) : Stores id s s.draw.2 := of_ctxs rfl rfl rfl

theorem mapPlaced (s : State) (r : InstrRef) (m : Placed → Placed) : Stores id s (s.mapPlaced r m) :=
  mapCtx s r.ctx (fun _ => rfl) (fun _ => rfl)

theorem setPhase (s : State) (r : InstrRef) (ph : Phase) : Stores id s (s.setPhase r ph) := mapPlaced ..

theorem holdFlags (s : State) (r : InstrRef) (l : List (Nat × Flags)) : Stores id s (s.holdFlags r l) := mapPlaced ..

theorem drew (s : State) (j n : Nat) : Stores id s (s.drew j n) :=
  mapCtx s j (fun _ => rfl) (fun _ => rfl)

theorem credit (s : State) (j : Nat) (t : Tensor) (step : Nat) (counts : List Nat) :
    Stores id s (s.credit j t step counts) := by
  unfold State.credit
  split
  · exact mapCtx s j (fun _ => rfl) (fun _ => rfl)
  · exact refl s

theorem nonfiniteSeen (s : State) (j step tensor path : Nat) : Stores id s (s.nonfiniteSeen j step tensor path) := by
  unfold State.nonfiniteSeen
  split
  · exact refl s
  · split
    · exact refl s
    · exact (raise ..).trans (mapCtx _ _ (fun _ => rfl) (fun _ => rfl))

/-- A write within one page of the window (R222, R244). -/
theorem wrPage {s t : State} {off : Nat} {bs : List Byte} (fits : off % pageSize + bs.length ≤ pageSize)
    (h : s.wrPage id off bs = .ok t) : Stores id s t := by
  refine ⟨(State.wrPage_keeps ..).at_ok t h, (KeepsSeenOk.wrPage Ctx.notesUnseen_pages ..).at_ok t h, fun a out => ?_⟩
  unfold State.wrPage at h
  split at h
  · cases h
  · next c hc =>
    split at h
    · next b hb =>
      obtain ⟨p, own, rfl⟩ := State.translate_hasPage hb
      have apart := out c hc p own
      split at h <;> cases h
      rw [State.pokes, memRead_memWriteList, if_neg (by omega), State.memRead_firstWrite out]
    · cases h
    · split at h <;> cases h
      rfl

end Stores

/-! ## Stores that may fail -/

/-- Where the operation answers, its state is one that stores through the context's window lead to. -/
structure StoresTo {α : Type} (id : Nat) (π : α → State) (s : State) (x : Except Fail α) : Prop where
  at_ok : ∀ a, x = .ok a → Stores id s (π a)

/-- The same of an operation that answers a state. -/
abbrev StoresOk (id : Nat) (s : State) (x : Except Fail State) : Prop := StoresTo id (fun t => t) s x

namespace StoresTo

variable {id : Nat} {α β : Type} {π : α → State} {ρ : β → State}

theorem ok {s : State} {a : α} (h : Stores id s (π a)) : StoresTo id π s (.ok a) := ⟨fun _ e => by cases e; exact h⟩

theorem error (s : State) (e : Fail) : StoresTo id π s (.error e) := ⟨fun _ h => nomatch h⟩

theorem after {s t : State} {x : Except Fail α} (h : Stores id s t) (k : StoresTo id π t x) : StoresTo id π s x :=
  ⟨fun a e => h.trans (k.at_ok a e)⟩

/-- An operation after a read. -/
theorem read {s : State} {x : Except Fail β} {g : β → Except Fail α} (h : ∀ b, StoresTo id π s (g b)) :
    StoresTo id π s (x >>= g) := by
  cases x with
  | error e => exact error s e
  | ok b => exact h b

/-- An operation after another. -/
theorem bind {s : State} {x : Except Fail α} {g : α → Except Fail β} (h : StoresTo id π s x)
    (k : ∀ a, StoresTo id ρ (π a) (g a)) : StoresTo id ρ s (x >>= g) := by
  cases x with
  | error e => exact error s e
  | ok a => exact after (h.at_ok a rfl) (k a)

theorem map {s : State} {x : Except Fail α} {g : α → β} (h : StoresTo id π s x) (k : ∀ a, ρ (g a) = π a) :
    StoresTo id ρ s (x.map g) := by
  cases x with
  | error e => exact error s e
  | ok a => exact ok ((k a).symm ▸ h.at_ok a rfl)

theorem ite {s : State} {x y : Except Fail α} {p : Prop} [Decidable p] (h : StoresTo id π s x) (k : StoresTo id π s y) :
    StoresTo id π s (if p then x else y) := by
  split
  · exact h
  · exact k

theorem foldlM {g : α → β → Except Fail α} (h : ∀ a b, StoresTo id π (π a) (g a b)) (l : List β) (a : α) :
    StoresTo id π (π a) (l.foldlM g a) := by
  induction l generalizing a with
  | nil => exact ok (.refl (π a))
  | cons b l ih => exact (h a b).bind ih

end StoresTo

/-! ## Writes through a window, page by page -/

theorem pagePart_le (off n : Nat) : off % pageSize + pagePart off n ≤ pageSize := by
  have := Nat.mod_lt off (show 0 < pageSize by decide)
  unfold pagePart
  omega

theorem State.wrPages_stores (k : Nat) (s : State) (id off : Nat) (bs : List Byte) :
    StoresOk id s (State.wrPages k s id off bs) := by
  induction k generalizing s off bs with
  | zero => exact .ok (.refl s)
  | succ k ih =>
    unfold State.wrPages
    split
    · exact .ok (.refl s)
    · dsimp only
      split
      · exact .error s _
      · next s' first =>
        refine .after (.wrPage ?_ first) (ih s' _ _)
        exact (Nat.add_le_add_left (List.length_take_le ..) _).trans (pagePart_le off bs.length)

theorem State.wrBytes_stores (s : State) (id off : Nat) (bs : List Byte) : StoresOk id s (s.wrBytes id off bs) :=
  State.wrPages_stores ..

theorem State.wrNat_stores (s : State) (id off n v : Nat) : StoresOk id s (s.wrNat id off n v) := State.wrBytes_stores ..

theorem State.undefPages_stores (n k : Nat) (s : State) (id off i len : Nat) :
    Stores id s (State.undefPages n k s id off i len) := by
  induction k generalizing s off i len with
  | zero => exact .refl s
  | succ k ih =>
    unfold State.undefPages
    split
    · exact .refl s
    · refine Stores.trans ?_ (ih ..)
      split
      · next s' h =>
        refine Stores.wrPage ?_ h
        rw [List.length_map, List.length_range]
        exact pagePart_le off len
      · exact .refl s

theorem State.undefRange_stores (s : State) (id off len : Nat) : Stores id s (s.undefRange id off len) :=
  (Stores.draw s).trans (State.undefPages_stores ..)

theorem State.undefView_stores (s : State) (id : Nat) (v : TView) : Stores id s (s.undefView id v) := by
  have many {α : Type} (l : List α) (g : α → Nat) (n : Nat) (u : State) :
      Stores id u (l.foldl (fun s k => s.undefRange id (g k) n) u) := .foldl (fun _ _ => State.undefRange_stores ..) l u
  unfold State.undefView
  dsimp only
  split
  · exact (State.undefRange_stores ..).trans (State.undefRange_stores ..)
  · split
    · exact (many ..).trans (many ..)
    · exact many ..

theorem State.undefTensors_stores (s : State) (id : Nat) (p : Plan) (iter : Nat) (l : List Nat) :
    Stores id s (s.undefTensors id p iter l) := .foldl (fun _ _ => State.undefView_stores ..) _ s

end Sys2Proof.Machine
end

section
/-! PROOFS. What the plan instructions write (R222, R223, R230): each stores through its own context's window and nowhere
else, whether it is executed or faults. -/

namespace Sys2Proof.Machine

/-! ## A conversion unit's write of a tensor -/

theorem State.writeScale_stores (s : State) (id : Nat) (t : Tensor) (k : Coord) (sc : Scale) :
    StoresOk id s (s.writeScale id t k sc) := by
  unfold State.writeScale
  refine (State.wrNat_stores ..).bind fun u => ?_
  split
  · exact .ok (.refl u)
  · exact State.wrNat_stores ..
  · exact (State.wrNat_stores ..).bind fun _ => State.wrNat_stores ..

theorem State.observe_stores (s : State) (id : Nat) (c : Ctx) (t : Tensor) (rc : SieveRec) (k : Coord) (r : BlockReport) :
    StoresOk id s (s.observe id c t rc k r) := by
  unfold State.observe
  split
  · exact .read fun _ => State.wrBytes_stores ..
  · exact .ok (.refl s)

theorem State.writeBlockN_stores (s : State) (id : Nat) (t : Tensor) (rc : SieveRec) (sp : WriteSpec) (row : Coord)
    (len : Nat) (val : Coord → Num) (lo : Nat) : StoresOk id s (s.writeBlockN id t rc sp row len val lo) := by
  unfold State.writeBlockN
  split
  · exact .error s _
  · refine .read fun xs => .read fun words => .read fun sc => ?_
    refine (State.wrNat_stores ..).bind fun u => (State.writeScale_stores ..).bind fun v =>
      (State.observe_stores ..).bind fun w => .ok (.trans ?_ (.credit ..))
    exact .ite (.mapCtx w id (fun _ => rfl) (fun _ => rfl)) (.refl w)

theorem State.writeBlockW_stores (s : State) (id : Nat) (t : Tensor) (sp : WriteSpec) (row : Coord) (len : Nat)
    (val : Coord → Num) (lo : Nat) : StoresOk id s (s.writeBlockW id t sp row len val lo) := by
  unfold State.writeBlockW
  split
  · exact .error s _
  · exact .read fun codes => (State.wrNat_stores ..).bind fun u => .ok (.credit ..)

theorem State.writeTensor_stores (s : State) (id : Nat) (v : TView) (sp : WriteSpec) (keep : Coord → Bool)
    (val : Coord → Num) : StoresOk id s (s.writeTensor id v sp keep val) := by
  unfold State.writeTensor
  split
  · exact .error s _
  · dsimp only
    have pad (u : State) (m : Nat) (ks : List Coord) (g : Coord → Nat) (bs : List Byte) :
        StoresOk id u (ks.foldlM (fun s k => s.wrBytes id (g k) bs) (u.drew id m)) :=
      .after (.drew ..) (.foldlM (fun _ _ => State.wrBytes_stores ..) _ _)
    split
    · exact .read fun rc => (StoresTo.foldlM (fun _ _ => State.writeBlockN_stores ..) _ s).bind fun u => pad u _ _ _ _
    · exact .read fun rc => (StoresTo.foldlM (fun _ _ => State.writeBlockW_stores ..) _ s).bind fun u => pad u _ _ _ _

/-! ## Vector instructions -/

theorem State.finishVec_stores (s : State) (f : Found) (v : TView) (src : ElemFmt) (n : Nat) (unit : Coord → Nat)
    (l : List (Coord × FV)) : StoresOk f.ctx.id s (s.finishVec f v src n unit l) := by
  unfold State.finishVec
  exact (State.writeTensor_stores ..).bind fun t => .ok (.holdFlags t ..)

theorem State.vecElt_stores (s : State) (f : Found) (p : Plan) : StoresOk f.ctx.id s (s.vecElt f p) := by
  unfold State.vecElt
  refine .read fun x => .read fun y => .read fun z => ?_
  split
  · exact .error s _
  · exact .read fun l => State.finishVec_stores ..

theorem State.vecRowred_stores (s : State) (f : Found) (p : Plan) : StoresOk f.ctx.id s (s.vecRowred f p) := by
  unfold State.vecRowred
  refine .read fun x => .read fun y => ?_
  split
  · exact .error s _
  · exact .read fun l => State.finishVec_stores ..

theorem State.rowStatistic_stores (s : State) (f : Found) (p : Plan) (out dy beta : Nat) (backward : Bool) :
    StoresOk f.ctx.id s (s.rowStatistic f p out dy beta backward) := by
  unfold State.rowStatistic
  refine .read fun x => .read fun g => .read fun b => .read fun dyv => ?_
  split
  · exact .error s _
  · exact .read fun gs => .read fun bs => .read fun l => State.finishVec_stores ..

theorem State.dropout_stores (s : State) (f : Found) (p : Plan) : StoresOk f.ctx.id s (s.dropout f p) := by
  unfold State.dropout
  refine .read fun x => ?_
  split
  · exact .error s _
  · exact .read fun key => .read fun l => .after (.drew ..) (State.finishVec_stores ..)

theorem State.initialise_stores (s : State) (f : Found) (p : Plan) : StoresOk f.ctx.id s (s.initialise f p) := by
  unfold State.initialise
  dsimp only
  split
  · exact .error s _
  · split <;> exact .read fun key => .after (.drew ..) (State.finishVec_stores ..)

theorem State.sample_stores (s : State) (f : Found) (p : Plan) : StoresOk f.ctx.id s (s.sample f p) := by
  unfold State.sample
  refine .read fun x => ?_
  split
  · exact .error s _
  · dsimp only
    split <;> refine .read fun key => .read fun got =>
      (StoresTo.foldlM (fun _ _ => State.wrNat_stores ..) _ s).bind fun t => .after ?_ (State.finishVec_stores ..)
    · exact .ite (.raise ..) (.refl t)
    · exact Stores.trans (.drew t ..) (.ite (.raise ..) (.refl _))

/-! ## Clipping, conversion, copies -/

theorem State.clipSum_stores (s : State) (f : Found) (p : Plan) : StoresOk f.ctx.id s (s.clipSum f p) := by
  unfold State.clipSum
  refine .read fun g => .read fun n => .read fun sums => ?_
  dsimp only
  split <;> exact .read fun total => (State.wrNat_stores ..).bind fun t => .ok (.holdFlags t ..)

theorem State.clipFinish_stores (s : State) (f : Found) (p : Plan) : StoresOk f.ctx.id s (s.clipFinish f p) := by
  unfold State.clipFinish
  refine .read fun k => ?_
  split
  · exact .ok (.refl s)
  · refine .read fun sum => (State.wrNat_stores ..).bind fun t => (State.wrNat_stores ..).bind fun u =>
      (State.wrNat_stores ..).bind fun v => .ok (.mapCtx v _ (fun _ => rfl) (fun _ => rfl))

theorem State.convert_stores (s : State) (f : Found) (p : Plan) : StoresOk f.ctx.id s (s.convert f p) := by
  unfold State.convert
  refine .read fun x => ?_
  split
  · exact .error s _
  · exact .read fun l => .read fun bad => .after (.credit ..) (State.writeTensor_stores ..)

theorem State.moveCopy_stores (s : State) (c : Ctx) (ws : List Nat) : StoresOk c.id s (s.moveCopy c ws) := by
  unfold State.moveCopy
  exact .read fun data => State.wrBytes_stores ..

/-! ## Array products -/

theorem State.product_stores (s : State) (f : Found) (p : Plan) (out : Tensor) (i : Nat) :
    StoresOk f.ctx.id s (s.product f p out i) := by
  unfold State.product
  refine .read fun a => .read fun b => .read fun biasView => .read fun els => .read fun badA => .read fun badB => ?_
  exact .after (.credit s ..) (.after (.ite (.refl _) (.nonfiniteSeen ..)) (State.writeTensor_stores ..))

/-! ## OPTIMISE -/

theorem State.writeCodes_stores (s : State) (id : Nat) (t : Tensor) (l : List (Coord × Nat)) :
    StoresOk id s (s.writeCodes id t l) := .foldlM (fun _ _ => State.wrNat_stores ..) l s

theorem State.writeWide_stores (s : State) (id step : Nat) (t : Tensor) (l : List (Coord × Nat)) :
    StoresOk id s (s.writeWide id step t l) := by
  unfold State.writeWide
  exact (State.writeCodes_stores ..).bind fun u => .ok (.credit u ..)

theorem State.writeMoment_stores (s : State) (f : Found) (t : Option Tensor) (new : List (Coord × Nat))
    (reader grain : Coord → Nat) : StoresOk f.ctx.id s (s.writeMoment f t new reader grain) := by
  unfold State.writeMoment
  split
  · exact .ok (.refl s)
  · split
    · exact State.writeWide_stores ..
    · exact .read fun l => State.writeTensor_stores ..

theorem State.updateWeights_stores (s : State) (f : Found) (o : UpdOperands) (w : WvRec) :
    StoresTo f.ctx.id Prod.fst s (s.updateWeights f o w) := by
  unfold State.updateWeights
  refine .read fun n => .read fun clip => .ite (.ok (.refl s)) (.ite (.ok (.refl s)) ?_)
  refine .read fun q => ?_
  dsimp only
  split <;> refine .read fun mask => .read fun outs => (State.writeWide_stores ..).bind fun t =>
    (State.writeCodes_stores ..).bind fun u => (State.writeMoment_stores ..).bind fun v => ?_
  all_goals
    split
    · exact (State.writeMoment_stores ..).bind fun x => .ok (.holdFlags x ..)
    · exact .ok (.holdFlags v ..)

theorem State.deriveImage_stores (s : State) (f : Found) (high : Tensor) (img : Option Tensor) (b : Nat) :
    StoresOk f.ctx.id s (s.deriveImage f high img b) := by
  unfold State.deriveImage
  split
  · exact .ok (.refl s)
  · exact .read fun l => State.writeTensor_stores ..

theorem State.setValid_stores (s : State) (id off b : Nat) (valid : Bool) : StoresOk id s (s.setValid id off b valid) :=
  State.wrNat_stores ..

theorem State.optimise_stores (s : State) (f : Found) (p : Plan) : StoresTo f.ctx.id Prod.fst s (s.optimise f p) := by
  unfold State.optimise
  refine .read fun o => .read fun w => .ite (.ok (.refl s)) ?_
  have images (t : State) (b n : Nat) (rep : Option (Nat × Nat)) : StoresTo f.ctx.id Prod.fst t (do
      let t ← t.deriveImage f o.high o.fwd b
      let t ← t.deriveImage f o.high o.bwd b
      let t ← t.wrNat f.ctx.id (o.high.version + 24 + 8 * b) 6 n
      let t ← t.setValid f.ctx.id o.high.version b true
      let t ← t.wrNat f.ctx.id (o.high.version + 40) 6 f.run.step
      return (t, rep)) :=
    (State.deriveImage_stores ..).bind fun u => (State.deriveImage_stores ..).bind fun v =>
      (State.wrNat_stores ..).bind fun w => (State.setValid_stores ..).bind fun x => (State.wrNat_stores ..).bind fun y =>
      .ok (.refl y)
  refine (State.setValid_stores ..).bind fun t => ?_
  dsimp only
  split
  · refine StoresTo.bind (StoresTo.map (π := fun _ => t) (ρ := Prod.fst) ⟨fun _ _ => .refl t⟩ fun _ => rfl) fun u => ?_
    exact images u.1 _ _ u.2
  · exact StoresTo.bind (ρ := Prod.fst) ((State.updateWeights_stores ..).map fun _ => rfl) fun u => images u.1 _ _ u.2

theorem State.optimiseFailed_stores (s : State) (f : Found) (p : Plan) : Stores f.ctx.id s (s.optimiseFailed f p) := by
  unfold State.optimiseFailed
  split
  · exact .refl s
  · refine Stores.trans ?_ (.foldl (fun _ _ => State.undefView_stores ..) _ _)
    split
    · next t marked => exact (State.setValid_stores ..).at_ok t marked
    · exact .refl s

/-! ## Faults -/

theorem Ctx.noteFail_pages (path : Nat) (e : Fail) (c : Ctx) : (c.noteFail path e).pages = c.pages := by
  obtain ⟨grains, noted⟩ := Ctx.noteFail_eq path e c
  rw [noted]
  rfl

theorem Stores.of_log {id : Nat} {s t : State} (h : SameButLog s t) : Stores id s t := by
  obtain ⟨sed, rfl⟩ := h
  exact .of_ctxs rfl rfl rfl

theorem State.dropItems_stores (s : State) (id j : Nat) : Stores id s (s.dropItems j) := .of_ctxs rfl rfl rfl

theorem State.beginCtxReset_stores (s : State) (id j cause : Nat) : Stores id s (s.beginCtxReset j cause) := by
  unfold State.beginCtxReset
  split
  · exact .refl s
  · split
    · exact .refl s
    · exact ((Stores.of_log (.writeNow s ..)).trans (State.dropItems_stores ..)).trans (.mapCtx _ _ (fun _ => rfl) (fun _ => rfl))

theorem State.fault_stores (s : State) (id j path : Nat) (e : Fail) : Stores id s (s.fault j path e) := by
  obtain ⟨v, logged, faulted⟩ := s.fault_eq j path e
  have noted (t : State) : Stores id t (t.mapCtx j (Ctx.noteFail path e)) :=
    .mapCtx t j (Ctx.noteFail_id path e) (Ctx.noteFail_pages path e)
  rw [faulted]
  exact (((Stores.of_log logged).trans (noted v)).trans (State.beginCtxReset_stores ..)).trans (noted _)

/-! ## The rows -/

theorem State.ctx_id_of_found {s : State} {r : InstrRef} {f : Found} (h : s.found? r = some f) : f.ctx.id = r.ctx :=
  State.ctx?_id (State.ctx?_of_found h)

/-- An instruction that a lane runs stores through its own context's window, whether it is executed or faults (R98). -/
theorem State.runIssuedWith_stores (s : State) (r : InstrRef) (ok : Found → Bool) {undo : Found → Plan → State → State}
    {act : Found → Plan → State → Except Fail State} (hu : ∀ f p s, Stores r.ctx s (undo f p s))
    (ha : ∀ f p s, StoresOk f.ctx.id s (act f p s)) : Stores r.ctx s (s.runIssuedWith r ok undo act) := by
  rcases s.runIssuedWith_cases r ok undo act with ⟨f, p, t, found, -, -, -, -, -, acted, ran⟩ |
    ⟨f, p, e, found, -, -, -, -, -, failed, ran⟩ | ran
  · have stored := (ha f p s).at_ok t acted
    rw [State.ctx_id_of_found found] at stored
    rw [ran]
    exact stored.trans (.setPhase ..)
  · rw [ran]
    exact ((hu f p s).trans (.setPhase ..)).trans (State.fault_stores ..)
  · rw [ran]
    exact .refl s

theorem State.runIssued_stores (s : State) (r : InstrRef) (ok : Found → Bool) (outs : Found → Plan → List Nat)
    {act : Found → Plan → State → Except Fail State} (ha : ∀ f p s, StoresOk f.ctx.id s (act f p s)) :
    Stores r.ctx s (s.runIssued r ok outs act) := State.runIssuedWith_stores s r ok (fun _ _ _ => State.undefTensors_stores ..) ha

theorem State.runProduct_stores (s : State) (r : InstrRef) (op : Nat) : Stores r.ctx s (s.runProduct r op) := by
  unfold State.runProduct
  split
  · exact .refl s
  · next f found =>
    split
    · split
      · exact .refl s
      · next p _ =>
        dsimp only
        split
        · exact State.fault_stores ..
        · next out _ =>
          have product := State.product_stores s f p out (productOf f.words).output
          rw [State.ctx_id_of_found found] at product
          split
          · next t executed => exact (product.at_ok t executed).trans (.setPhase ..)
          · exact (State.undefView_stores ..).trans (State.fault_stores ..)
    · exact .refl s

/-- A row answers a state that stores through the window of the context lead to. -/
structure StoresOut (id : Nat) (s : State) (o : Out) : Prop where
  at_next : ∀ t, o = .next t → Stores id s t

theorem StoresOut.next {id : Nat} {s t : State} (h : Stores id s t) : StoresOut id s (.next t) :=
  ⟨fun _ e => by cases e; exact h⟩

theorem execOptimise_stores (s : State) (r : InstrRef) : StoresOut r.ctx s (execOptimise r s) := by
  unfold execOptimise
  split
  · exact .next (.refl s)
  · next f found =>
    have failed (p : Plan) (e : Fail) : Stores r.ctx s ((s.optimiseFailed f p).fault r.ctx f.path e) :=
      (State.ctx_id_of_found found ▸ State.optimiseFailed_stores s f p).trans (State.fault_stores ..)
    split
    · split
      · next p missing _ _ =>
        have update := State.optimise_stores s f p
        rw [State.ctx_id_of_found found] at update
        split
        · split
          · next t rep executed => exact .next ((update.at_ok (t, rep) executed).trans (.mapPlaced ..))
          · exact .next (failed p _)
        · exact .next (.refl s)
      · exact .next (failed _ _)
      · exact .next (.refl s)
    · exact .next (.refl s)

/-- The instructions that compute or move data (R222). -/
def planInstructions (r : InstrRef) : List Instr :=
  [.mmFwd r, .mmBwd r, .vecElt r, .vecRowred r, .rowstatFwd r, .rowstatBwd r, .dropout r, .initTensor r, .sample r,
    .clipSum r, .clipFinish r, .convert r, .optimise r, .copy r]

/-- Each stores through its own context's window and nowhere else. -/
theorem exec_planInstruction_stores (s : State) {r : InstrRef} {i : Instr} (h : i ∈ planInstructions r) :
    StoresOut r.ctx s (exec i s) := by
  simp only [planInstructions, List.mem_cons, List.not_mem_nil, or_false] at h
  rcases h with rfl | rfl | rfl | rfl | rfl | rfl | rfl | rfl | rfl | rfl | rfl | rfl | rfl | rfl
  · exact .next (State.runProduct_stores ..)
  · exact .next (State.runProduct_stores ..)
  · exact .next (State.runIssued_stores _ _ _ _ fun f p s => s.vecElt_stores f p)
  · exact .next (State.runIssued_stores _ _ _ _ fun f p s => s.vecRowred_stores f p)
  · exact .next (State.runIssued_stores _ _ _ _ fun f p s => s.rowStatistic_stores f p ..)
  · exact .next (State.runIssued_stores _ _ _ _ fun f p s => s.rowStatistic_stores f p ..)
  · exact .next (State.runIssued_stores _ _ _ _ fun f p s => s.dropout_stores f p)
  · exact .next (State.runIssued_stores _ _ _ _ fun f p s => s.initialise_stores f p)
  · exact .next (State.runIssuedWith_stores _ _ _ (fun _ _ _ => .foldl (fun _ _ => State.undefView_stores ..) _ _)
      fun f p s => s.sample_stores f p)
  · exact .next (State.runIssuedWith_stores _ _ _ (fun _ _ _ => State.undefRange_stores ..) fun f p s => s.clipSum_stores f p)
  · exact .next (State.runIssuedWith_stores _ _ _ (fun _ _ _ => State.undefRange_stores ..) fun f p s => s.clipFinish_stores f p)
  · exact .next (State.runIssued_stores _ _ _ _ fun f p s => s.convert_stores f p)
  · exact execOptimise_stores s r
  · exact .next (State.runIssuedWith_stores _ _ _ (fun _ _ _ => State.undefRange_stores ..) fun f _ s =>
      s.moveCopy_stores f.ctx f.words)

/-- Settles O13: every one of these instructions stores through its context's window, which leads to the context's own pages
only. -/
theorem instructionsStayInTheirWindow : Obligations.InstructionsStayInTheirWindow := by
  unfold Obligations.InstructionsStayInTheirWindow
  intro s t r i a named ran outside
  exact ((exec_planInstruction_stores s named).at_next t ran).unwritten a outside

end Sys2Proof.Machine
end

section
/-! PROOFS. COPY within one page (R283, R285): one write through the window, and the instruction is executed. -/

namespace Sys2Proof.Machine

/-! ## An instruction's phase -/

/-- A search after an update finds an updated element where the update of one element fits. -/
theorem exists_find?_map {α : Type} {q : α → Bool} {m : α → α} {l : List α} {a : α} (h : a ∈ l) (hq : q (m a) = true) :
    ∃ x, (l.map m).find? q = some (m x) ∧ q (m x) = true := by
  have there : ((l.map m).find? q).isSome := List.find?_isSome.mpr ⟨m a, List.mem_map_of_mem h, hq⟩
  obtain ⟨y, hy⟩ := Option.isSome_iff_exists.mp there
  obtain ⟨x, -, rfl⟩ := List.mem_map.mp (List.mem_of_find?_eq_some hy)
  exact ⟨x, hy, List.find?_some (p := q) hy⟩

/-- An instruction that is given a phase other than retired is found in it. -/
theorem State.found?_setPhase {s : State} {r : InstrRef} {f : Found} (h : s.found? r = some f) {ph : Phase}
    (live : ph ≠ .retired) : ∃ g, (s.setPhase r ph).found? r = some g ∧ g.p.phase = ph := by
  obtain ⟨hc, hrun, hp⟩ := State.found?_eq_some h
  have runNamed : f.run.step = r.step := by simpa using List.find?_some hrun
  have found := find?_map_if (c := fun run => decide (run.step = r.step))
    (m := StepRun.mapPlaced r fun p => { p with phase := ph }) (fun _ => rfl) hrun
  simp only [decide_eq_true_eq, if_pos runNamed] at found
  have named := List.find?_some hp
  simp only [Bool.and_eq_true, beq_iff_eq] at named
  obtain ⟨⟨stream, index⟩, -⟩ := named
  obtain ⟨p, hq, fits⟩ := exists_find?_map (q := fun p => p.stream == r.stream && p.index == r.index && p.phase != .retired)
    (m := fun p => if p.stream = r.stream ∧ p.index = r.index then { p with phase := ph } else p)
    (List.mem_of_find?_eq_some hp) (by simp [stream, index, live])
  obtain ⟨g, hg, e⟩ := State.found?_of (s := s.setPhase r ph) (State.ctx?_mapCtx_self hc fun _ => rfl) found hq
  refine ⟨g, hg, e ▸ ?_⟩
  split
  · rfl
  · next other => simp [other] at fits

theorem SameOthers.setPhase (s : State) (r : InstrRef) (ph : Phase) : SameOthers r.ctx s (s.setPhase r ph) :=
  .mapCtx s r.ctx fun _ => rfl

/-! ## A write within one page -/

/-- While no snapshot is being taken, a write at a writable address changes memory there and nothing else (R222, R244). -/
theorem State.wrPage_eq_pokes {s : State} {c : Ctx} {off a : Nat} (hc : s.ctx? c.id = some c) (noSnap : c.snap = none)
    (mapped : s.translate c off = some (a, true)) (bs : List Byte) : s.wrPage c.id off bs = .ok (s.pokes a bs) := by
  have goesOn : s.writeStop c.id off = none := by
    simp only [State.writeStop, hc, Option.bind_some, noSnap]
    split <;> trivial
  have unsaved : s.firstWrite c.id off = s := by
    unfold State.firstWrite
    split
    · next found =>
      cases hc.symm.trans found
      rw [noSnap]
    · rfl
  simp [State.wrPage, hc, mapped, goesOn, unsaved]

theorem State.wrBytes_eq_wrPage {s t : State} {id off : Nat} {bs : List Byte} (nonzero : 0 < bs.length)
    (fits : off % pageSize + bs.length ≤ pageSize) (h : s.wrPage id off bs = .ok t) : s.wrBytes id off bs = .ok t := by
  have whole : pagePart off bs.length = bs.length := by
    unfold pagePart
    omega
  have nonempty : bs.isEmpty = false := by
    cases bs with
    | nil => exact absurd nonzero (Nat.lt_irrefl 0)
    | cons => rfl
  unfold State.wrBytes State.wrPages
  rw [if_neg (by simp [nonempty]), whole]
  dsimp only
  rw [List.take_length, h]
  simp [State.wrPages]

/-- Settles O14: within one page a copy is one write through the window, in front of the change of phase. -/
theorem copyMovesItsBytes : Obligations.CopyMovesItsBytes := by
  unfold Obligations.CopyMovesItsBytes
  intro s r f p data a found issued op notResetting engine plan named noSnap read len nonzero fits mapped
  have hc : s.ctx? f.ctx.id = some f.ctx := named ▸ State.ctx?_of_found found
  have written := State.wrBytes_eq_wrPage (len.symm ▸ nonzero) (len.symm ▸ fits) (State.wrPage_eq_pokes hc noSnap mapped data)
  have moved : s.moveCopy f.ctx f.words = .ok (s.pokes a data) := by
    rw [State.moveCopy, read]
    exact written
  have runs : RunsIssued s r f p := ⟨found, issued, notResetting, engine, plan⟩
  obtain ⟨g, found', executed⟩ := State.found?_setPhase (s := s.pokes a data) (found : _ = some f) (ph := .executed) nofun
  have bytes (b : Nat) := memRead_memWriteList s.mem a data b
  refine ⟨_, g, runs.executes (exec_copy r s) op moved, found', executed, fun i hi => ?_, fun b hb => ?_,
    SameOthers.setPhase (s.pokes a data) r .executed, ⟨rfl, rfl, rfl, rfl, rfl, rfl⟩, rfl, rfl⟩
  · exact (bytes (a + i)).trans (by rw [if_pos (by omega), Nat.add_sub_cancel_left])
  · exact (bytes b).trans (if_neg (by omega))

end Sys2Proof.Machine
end

section
/-! PROOFS. Snapshot pages (R244, R247): a pending page is saved to its slot and is pending no longer. -/

namespace Sys2Proof.Machine

/-! ## The context after a page is saved -/

/-- An event about a context changes at most its queue of events. -/
theorem State.ctx?_notify {s : State} {id : Nat} {c : Ctx} (hc : s.ctx? id = some c) (code detail step : Nat)
    (data : List Nat) : ∃ events eventsLost,
      (s.notify id code detail step data).ctx? id = some { c with events, eventsLost } := by
  unfold State.notify
  rw [hc]
  dsimp only
  split
  · exact ⟨c.events, c.eventsLost, hc⟩
  · exact ⟨_, _, State.ctx?_mapCtx_self hc fun _ => rfl⟩

/-- What saving a page leaves of a context: its registers, counters and steps, and of its snapshot the pending pages but that
one. -/
structure Ctx.Saved (w : Nat) (c e : Ctx) : Prop where
  lgl : e.lgl = c.lgl
  counters : e.counters = c.counters
  steps : e.steps = c.steps
  pending : e.snap.map Snapshot.pending = c.snap.map fun q => q.pending.filter (· != w)

/-- Completing a snapshot changes no pending page. -/
theorem State.ctx?_snapComplete {s : State} {id : Nat} {c : Ctx} (hc : s.ctx? id = some c) :
    ∃ e, (s.snapComplete id).ctx? id = some e ∧ e.lgl = c.lgl ∧ e.counters = c.counters ∧ e.steps = c.steps ∧
      e.snap.map Snapshot.pending = c.snap.map Snapshot.pending := by
  unfold State.snapComplete
  rw [hc]
  dsimp only
  split
  · next sn hsn =>
    split
    · have noted (rst : Ctx → ResetRegs) := State.ctx?_mapCtx_self (f := fun c => { c with
        snap := some { sn with complete := true }, rst := rst c }) hc fun _ => rfl
      split
      · obtain ⟨events, lost, he⟩ := State.ctx?_notify (noted _) 0x0012 _ _ _
        exact ⟨_, he, rfl, rfl, rfl, by rw [hsn]; rfl⟩
      · exact ⟨_, noted _, rfl, rfl, rfl, by rw [hsn]; rfl⟩
    · exact ⟨c, hc, rfl, rfl, rfl, rfl⟩
  · exact ⟨c, hc, rfl, rfl, rfl, rfl⟩

/-- A page copied to its slot, where it is mapped and has one. -/
def State.copySlot (s : State) (c : Ctx) (sn : Snapshot) (w : Nat) : State :=
  match c.pages.window.find? (fun m => m.win == w), c.pages.area[sn.slots.idxOf w]? with
  | some m, some d => s.copyPage m.dev d
  | _, _ => s

theorem State.copySlot_ctxs (s : State) (c : Ctx) (sn : Snapshot) (w : Nat) : (s.copySlot c sn w).ctxs = s.ctxs := by
  unfold State.copySlot
  split <;> rfl

/-- A page is pending no longer. -/
def Snapshot.release (w : Nat) (q : Snapshot) : Snapshot := { q with pending := q.pending.filter (· != w) }

def Ctx.release (w : Nat) (c : Ctx) : Ctx := { c with snap := c.snap.map (Snapshot.release w) }

section
variable {s : State} {id w : Nat} {c : Ctx} {sn : Snapshot} (hc : s.ctx? id = some c) (hsn : c.snap = some sn)
  (pending : sn.pending.contains w = true) (sound : s.slotError id w = none)
include hc hsn pending sound

/-- A pending page without an uncorrectable word is copied where it is mapped and has a slot, and is pending no longer. -/
theorem State.releaseSlot_eq :
    s.releaseSlot id w = ((s.copySlot c sn w).mapCtx id (Ctx.release w)).snapComplete id := by
  unfold State.releaseSlot
  rw [hc]
  dsimp only
  rw [hsn]
  dsimp only
  rw [if_pos (by rw [pending, sound]; rfl)]
  rfl

theorem State.ctx?_releaseSlot : ∃ e, (s.releaseSlot id w).ctx? id = some e ∧ c.Saved w e := by
  rw [State.releaseSlot_eq hc hsn pending sound]
  have copied : (s.copySlot c sn w).ctx? id = some c := by rw [State.ctx?, State.copySlot_ctxs]; exact hc
  have released := State.ctx?_mapCtx_self (f := Ctx.release w) copied fun _ => rfl
  obtain ⟨e, he, lgl, counters, steps, same⟩ := State.ctx?_snapComplete released
  refine ⟨e, he, lgl, counters, steps, same.trans ?_⟩
  rw [Ctx.release, hsn]
  rfl

theorem State.releaseSlot_mem_of_slot {m : PageMap} {d : Nat} (mapped : c.pages.window.find? (fun m => m.win == w) = some m)
    (slot : c.pages.area[sn.slots.idxOf w]? = some d) :
    (s.releaseSlot id w).mem = memCopyPage s.mem m.dev d := by
  rw [State.releaseSlot_eq hc hsn pending sound, State.snapComplete_mem, State.mapCtx_mem, State.copySlot, mapped, slot]
  rfl

end

/-- The pages that were pending but one are pending no longer names it. -/
theorem Ctx.Saved.pending_eq {w : Nat} {c e : Ctx} {sn q : Snapshot} (h : c.Saved w e) (hsn : c.snap = some sn)
    (hq : e.snap = some q) : q.pending = sn.pending.filter (· != w) := by
  have := h.pending
  rwa [hsn, hq, Option.map_some, Option.map_some, Option.some_inj] at this

theorem contains_filter_ne (l : List Nat) (w : Nat) : (l.filter (· != w)).contains w = false := by
  simp

/-! ## A store to a pending page -/

/-- The snapshot notes that a page of its slots is written (R244). -/
def Snapshot.touch (w : Nat) (q : Snapshot) : Snapshot :=
  if q.slots.contains w then { q with dirty := insertNew q.dirty w } else q

theorem Snapshot.touch_pending (w : Nat) (q : Snapshot) : (q.touch w).pending = q.pending := by
  unfold Snapshot.touch
  split <;> rfl

theorem Snapshot.touch_slots (w : Nat) (q : Snapshot) : (q.touch w).slots = q.slots := by
  unfold Snapshot.touch
  split <;> rfl

/-- The context whose snapshot notes that. -/
def Ctx.touch (w : Nat) (c : Ctx) : Ctx := { c with snap := c.snap.map (Snapshot.touch w) }

/-- A stall for a page to be saved is counted. -/
def Ctx.countTouch (c : Ctx) : Ctx := { c with lgl := { c.lgl with touches := satAdd 0xFFFFFFFF c.lgl.touches 1 } }

theorem State.firstWrite_eq {s : State} {id off w : Nat} {c : Ctx} {sn : Snapshot} (page : pageOf? off = some w)
    (hc : s.ctx? id = some c) (hsn : c.snap = some sn) (pending : sn.pending.contains w = true) :
    s.firstWrite id off = ((s.mapCtx id (Ctx.touch w)).releaseSlot id w).mapCtx id Ctx.countTouch := by
  unfold State.firstWrite
  rw [page, hc]
  dsimp only
  rw [hsn]
  dsimp only
  rw [if_pos pending]
  rfl

theorem State.slotError_touch {s : State} {id w : Nat} {c : Ctx} (hc : s.ctx? id = some c) :
    (s.mapCtx id (Ctx.touch w)).slotError id w = s.slotError id w := by
  have hc' : (s.mapCtx id (Ctx.touch w)).ctx? id = some (c.touch w) := State.ctx?_mapCtx_self hc fun _ => rfl
  rw [State.slotError, State.slotError, hc', hc]
  rfl

theorem State.firstWrite_saves {s : State} {id off w d : Nat} {c : Ctx} {sn : Snapshot} {m : PageMap}
    (hc : s.ctx? id = some c) (page : pageOf? off = some w) (sound : s.slotError id w = none) (hsn : c.snap = some sn)
    (pending : sn.pending.contains w = true) (mapped : c.pages.window.find? (fun m => m.win == w) = some m)
    (slot : c.pages.area[sn.slots.idxOf w]? = some d) : (s.firstWrite id off).mem = memCopyPage s.mem m.dev d ∧
      ∃ e, (s.firstWrite id off).ctx? id = some e ∧ ∀ q, e.snap = some q → q.pending.contains w = false := by
  have hc' : (s.mapCtx id (Ctx.touch w)).ctx? id = some (c.touch w) := State.ctx?_mapCtx_self hc fun _ => rfl
  have hsn' : (c.touch w).snap = some (sn.touch w) := by rw [Ctx.touch, hsn]; rfl
  have pending' : (sn.touch w).pending.contains w = true := by rw [Snapshot.touch_pending, pending]
  have sound' := (State.slotError_touch hc).trans sound
  rw [State.firstWrite_eq page hc hsn pending]
  refine ⟨?_, ?_⟩
  · exact State.releaseSlot_mem_of_slot hc' hsn' pending' sound' mapped (by rw [Snapshot.touch_slots]; exact slot)
  · obtain ⟨e, he, saved⟩ := State.ctx?_releaseSlot hc' hsn' pending' sound'
    refine ⟨e.countTouch, State.ctx?_mapCtx_self he fun _ => rfl, fun q hq => ?_⟩
    rw [saved.pending_eq hsn' hq]
    exact contains_filter_ne ..

/-! ## The rows -/

theorem State.pagePending_eq {s : State} {id w : Nat} {c : Ctx} {sn : Snapshot} (hc : s.ctx? id = some c)
    (hsn : c.snap = some sn) : s.pagePending id w = sn.pending.contains w := by
  rw [State.pagePending, hc, Option.bind_some, hsn, Option.any_some]

theorem execSnapshotFirstWrite_fails {s : State} {id w : Nat} {x : Fail} (pending : s.pagePending id w = true)
    (bad : s.slotError id w = some x) : execSnapshotFirstWrite id w s = .next (s.fault id pkgPath x) := by
  rw [execSnapshotFirstWrite, if_pos pending, bad]

theorem execSnapshotFirstWrite_saves {s : State} {id w : Nat} (pending : s.pagePending id w = true)
    (sound : s.slotError id w = none) :
    execSnapshotFirstWrite id w s = .next ((s.releaseSlot id w).mapCtx id Ctx.countTouch) := by
  rw [execSnapshotFirstWrite, if_pos pending, sound]
  rfl

theorem execSnapshotDrainPage_saves {s : State} {id w : Nat} {c : Ctx} {sn : Snapshot} (hc : s.ctx? id = some c)
    (hsn : c.snap = some sn) (first : sn.pending.head? = some w) (notResetting : c.phase ≠ .resetting)
    (room : s.copyEngines.any (s.copyRoom c) = true) (sound : s.slotError id w = none) :
    execSnapshotDrainPage id s = .next (s.releaseSlot id w) := by
  simp only [execSnapshotDrainPage, hc, hsn, Option.bind_some, first, room, sound]
  rw [if_neg (by simp [notResetting])]

/-- Settles O15: saving a page copies it to its slot and takes it from the pending ones, and both rows and the first write
save it so. -/
theorem snapshotPagesAreSaved : Obligations.SnapshotPagesAreSaved := by
  unfold Obligations.SnapshotPagesAreSaved
  refine ⟨fun s id off w c sn m d hc page sound hsn pending _ mapped slot => ?_, fun s id w c sn hc hsn => ⟨?_, ?_, ?_⟩⟩
  · obtain ⟨mem, saved⟩ := State.firstWrite_saves hc page sound hsn pending mapped slot
    refine ⟨fun i hi => ?_, fun b hb => ?_, saved⟩
    · rw [mem, memRead_memCopyPage, if_pos (by omega), Nat.add_sub_cancel_left]
    · rw [mem, memRead_memCopyPage, if_neg (by omega)]
  · exact fun x bad pending => execSnapshotFirstWrite_fails ((State.pagePending_eq hc hsn).trans pending) bad
  · intro pending sound
    obtain ⟨e, he, saved⟩ := State.ctx?_releaseSlot hc hsn pending sound
    refine ⟨_, e.countTouch, execSnapshotFirstWrite_saves ((State.pagePending_eq hc hsn).trans pending) sound, State.ctx?_mapCtx_self he fun _ => rfl, ?_,
      saved.counters, saved.steps, fun q hq => saved.pending_eq hsn hq⟩
    rw [← saved.lgl]
    rfl
  · intro first notResetting room sound
    have pending : sn.pending.contains w = true := List.contains_iff_mem.mpr (List.mem_of_head? first)
    obtain ⟨e, he, saved⟩ := State.ctx?_releaseSlot hc hsn pending sound
    exact ⟨_, e, execSnapshotDrainPage_saves hc hsn first notResetting room sound, rfl, he, by rw [saved.lgl],
      saved.counters, fun q hq => saved.pending_eq hsn hq⟩

end Sys2Proof.Machine
end

section
/-! PROOFS. RESERVE that grants its request (R225, R344, R345): one update of the context, and then ports and answers. -/

namespace Sys2Proof.Machine

/-- The states differ in the sessions and the in-band interrupts alone. -/
def SameButSessions (s t : State) : Prop := ∃ ligil power, t = { s with ligil, power }

namespace SameButSessions

theorem refl (s : State) : SameButSessions s s := ⟨s.ligil, s.power, rfl⟩

theorem trans {s t u : State} (h : SameButSessions s t) (k : SameButSessions t u) : SameButSessions s u := by
  obtain ⟨_, _, rfl⟩ := h
  obtain ⟨_, _, rfl⟩ := k
  exact ⟨_, _, rfl⟩

theorem foldl {α : Type} {f : State → α → State} (h : ∀ s a, SameButSessions s (f s a)) (l : List α) (s : State) :
    SameButSessions s (l.foldl f s) :=
  List.foldlRecOn (motive := SameButSessions s) l f (.refl s) fun t ht a _ => ht.trans (h t a)

end SameButSessions

/-- Answers to the commands that wait touch the sessions and the in-band interrupts alone (R328). -/
theorem State.answerBusy_eq (s : State) (p : Busy → Option (Nat × Nat × List (Nat × Nat))) :
    SameButSessions s (s.answerBusy p) := by
  refine .foldl (fun s se => .foldl (fun s b => ?_) _ s) _ s
  split
  · exact SameButSessions.trans (s.answer_eq ..) ⟨_, _, rfl⟩
  · exact .refl s

/-- The contexts, memory and flash are as before. -/
structure SameHeld (s t : State) : Prop where
  ctxs : t.ctxs = s.ctxs
  mem : t.mem = s.mem
  flash : t.flash = s.flash

namespace SameHeld

theorem refl (s : State) : SameHeld s s := ⟨rfl, rfl, rfl⟩

theorem trans {s t u : State} (h : SameHeld s t) (k : SameHeld t u) : SameHeld s u :=
  ⟨k.ctxs.trans h.ctxs, k.mem.trans h.mem, k.flash.trans h.flash⟩

theorem foldl {α : Type} {f : State → α → State} (h : ∀ s a, SameHeld s (f s a)) (l : List α) (s : State) :
    SameHeld s (l.foldl f s) :=
  List.foldlRecOn (motive := SameHeld s) l f (.refl s) fun t ht a _ => ht.trans (h t a)

theorem answerBusy (s : State) (p : Busy → Option (Nat × Nat × List (Nat × Nat))) : SameHeld s (s.answerBusy p) := by
  obtain ⟨ligil, power, answered⟩ := State.answerBusy_eq s p
  rw [answered]
  exact ⟨rfl, rfl, rfl⟩

theorem mapPort (s : State) (p : Nat) (f : Port → Port) : SameHeld s (s.mapPort p f) := ⟨rfl, rfl, rfl⟩

theorem setBusy (s : State) (id : Nat) (b : Busy) (sl : Slot) : SameHeld s (s.setBusy id b sl) := ⟨rfl, rfl, rfl⟩

theorem returnPorts (s : State) (ports : List Nat) : SameHeld s (s.returnPorts ports) :=
  .foldl (fun s p => mapPort s p _) _ s

theorem sendTable (s : State) (p : Nat) : SameHeld s (s.sendTable p) := by
  unfold State.sendTable
  split
  · exact mapPort ..
  · exact .refl s

theorem sendTables (s : State) (ports : List Nat) : SameHeld s (s.sendTables ports) := .foldl sendTable _ s

end SameHeld

/-- The context with what a RESERVE grants it. -/
def Ctx.granted (resv : Resv) (bindings : List Binding) (pages : CtxPages) (c : Ctx) : Ctx :=
  { c with resv, bindings, pages, phase := if c.phase = .admitted then .reserved else c.phase }

theorem SameOthers.granted (s : State) (id : Nat) (resv : Resv) (bindings : List Binding) (pages : CtxPages) :
    SameOthers id s (s.mapCtx id (Ctx.granted resv bindings pages)) := .mapCtx s id fun _ => rfl

/-- Beside the context's own grant, ports and sessions alone change. -/
theorem State.grantReserve_held (s : State) (sl : Slot) (se : Session) (c : Ctx) (q : Request) (mine : Resv)
    (bs : List Binding) : SameHeld (s.mapCtx c.id (Ctx.granted mine bs (s.grantPages c q.resv)))
      (s.grantReserve sl se c q mine bs) := by
  unfold State.grantReserve State.answerReserves
  exact (SameHeld.returnPorts ..).trans (.sendTables ..) |>.trans (.setBusy ..) |>.trans (.answerBusy ..)

/-- A request that is in range, fits and waits for no die is granted (R344, R345). -/
theorem State.reserve_grants {s : State} {sl : Slot} {se : Session} {c : Ctx} {bs : List Binding}
    (hc : s.ctx? (sl.w 4 % 256) = some c) (long : 792 ≤ sl.len) (len : sl.len = 792 + 16 * leAt sl.payload 788 4)
    (named : sl.ctxOk = true) (flag : sl.w 5 < 2)
    (args : (parseRequest sl.payload).argsOk c.config.commonsOwner (Resv.grow c.resv (parseRequest sl.payload).resv) = true)
    (noWait : s.reserveWaits sl = false)
    (fits : s.misfit (s.ctxs.filter fun x => x.id != c.id) (Resv.grow c.resv (parseRequest sl.payload).resv) = none)
    (bound : s.bindAll (s.ctxs.filter fun x => x.id != c.id) c.bindings (parseRequest sl.payload).ports = some bs) :
    State.reserve sl se s =
      s.grantReserve sl se c (parseRequest sl.payload) (Resv.grow c.resv (parseRequest sl.payload).resv) bs := by
  unfold State.reserve
  rw [hc]
  dsimp only
  rw [if_neg (by omega), if_neg (by simp [named, flag, args]), if_neg (by simp [noWait]), fits, bound]

/-- Settles O27: a request that fits is granted, and the grant changes its own context alone. -/
theorem reserveGrantsTheRequest : Obligations.ReserveGrantsTheRequest := by
  unfold Obligations.ReserveGrantsTheRequest
  rintro s _ sl se c _ _ bs accepted cmd rfl hc rfl rfl long len named flag args noWait fits bound
  have hid : c.id = sl.w 4 % 256 := State.ctx?_id hc
  have row : exec (.reserve sl) s = .next (State.reserve sl se (s.advanceSeq se.id sl)) := by
    rw [← State.command_of_accepted accepted (.reserve sl) (State.reserve sl), ← beq_iff_eq.mpr cmd]
    rfl
  rw [State.reserve_grants hc long len named flag args noWait fits bound] at row
  have held := State.grantReserve_held (s.advanceSeq se.id sl) sl se c (parseRequest sl.payload)
    (Resv.grow c.resv (parseRequest sl.payload).resv) bs
  have found (j : Nat) := congrArg (List.find? fun x : Ctx => x.id == j) held.ctxs
  exact ⟨_, _, row, (found c.id).trans (State.ctx?_mapCtx_self (hid ▸ hc) fun _ => rfl), rfl, rfl, rfl, rfl,
    fun j other => (found j).trans (SameOthers.granted (s.advanceSeq se.id sl) c.id _ _ _ j other), held.mem, held.flash⟩

end Sys2Proof.Machine
end

section
/-! PROOFS. Scrubs and zeroing (R228, R237 to R239): what a scrub leaves, and what withholding a page and its zeroing do. -/

namespace Sys2Proof.Machine

/-! ## What repairs leave -/

/-- Memory, the ports and the record of the pages are as before: when each was scrubbed, the forced slots, the uncorrectable
words, and which are withheld and which wait to be zeroed. -/
structure SamePages (s t : State) : Prop where
  mem : t.mem = s.mem
  ports : t.ports = s.ports
  scrubbed : t.bg.scrubbed = s.bg.scrubbed
  forced : t.bg.forced = s.bg.forced
  ueWords : t.bg.ueWords = s.bg.ueWords
  zeroing : t.bg.zeroing = s.bg.zeroing
  withheld : t.bg.withheld = s.bg.withheld

namespace SamePages

theorem refl (s : State) : SamePages s s := ⟨rfl, rfl, rfl, rfl, rfl, rfl, rfl⟩

theorem trans {s t u : State} (h : SamePages s t) (k : SamePages t u) : SamePages s u :=
  ⟨k.mem.trans h.mem, k.ports.trans h.ports, k.scrubbed.trans h.scrubbed, k.forced.trans h.forced,
    k.ueWords.trans h.ueWords, k.zeroing.trans h.zeroing, k.withheld.trans h.withheld⟩

theorem foldl {α : Type} {f : State → α → State} (h : ∀ s a, SamePages s (f s a)) (l : List α) (s : State) :
    SamePages s (l.foldl f s) :=
  List.foldlRecOn (motive := SamePages s) l f (.refl s) fun t ht a _ => ht.trans (h t a)

theorem saveRetired (s : State) : SamePages s s.saveRetired := by
  obtain ⟨_, _, h⟩ := s.saveRetired_eq
  rw [h]
  exact ⟨rfl, rfl, rfl, rfl, rfl, rfl, rfl⟩

theorem raisePage (s : State) (p code : Nat) : SamePages s (s.raisePage p code) := ⟨rfl, rfl, rfl, rfl, rfl, rfl, rfl⟩

theorem raiseError (s : State) (p code : Nat) : SamePages s (s.raiseError p code) := ⟨rfl, rfl, rfl, rfl, rfl, rfl, rfl⟩

theorem raiseCorrected (s : State) (p code : Nat) : SamePages s (s.raiseCorrected p code) := by
  unfold State.raiseCorrected
  split
  · exact raiseError ..
  · exact ⟨rfl, rfl, rfl, rfl, rfl, rfl, rfl⟩

theorem retirePage (s : State) (p : Nat) : SamePages s (s.retirePage p) := by
  unfold State.retirePage
  refine (trans ?_ (saveRetired _)).trans (raisePage ..)
  exact ⟨rfl, rfl, rfl, rfl, rfl, rfl, rfl⟩

theorem spareRow (s : State) (p row : Nat) : SamePages s (s.spareRow p row) := by
  unfold State.spareRow
  dsimp only
  split
  · exact ⟨rfl, rfl, rfl, rfl, rfl, rfl, rfl⟩
  · refine trans ?_ (retirePage ..)
    exact ⟨rfl, rfl, rfl, rfl, rfl, rfl, rfl⟩

theorem repairPage (s : State) (p : Nat) : SamePages s (s.repairPage p) := by
  unfold State.repairPage
  split
  · exact .refl s
  · exact .foldl (fun s row => spareRow s p row) _ s

theorem repairHealed (s : State) (p : Nat) : SamePages s (s.repairHealed p) := .foldl (fun s row => spareRow s p row) _ s

theorem rowCorrected (s : State) (p a : Nat) : SamePages s (s.rowCorrected p a) := by
  unfold State.rowCorrected
  dsimp only
  split
  · exact (raiseCorrected ..).trans ⟨rfl, rfl, rfl, rfl, rfl, rfl, rfl⟩
  · refine ((raiseCorrected s p 0x2201).trans ?_).trans (spareRow ..)
    exact ⟨rfl, rfl, rfl, rfl, rfl, rfl, rfl⟩

end SamePages

/-! ## A free page withheld -/

theorem contains_insertNew {α : Type} [BEq α] [LawfulBEq α] (l : List α) (a : α) : (insertNew l a).contains a = true := by
  unfold insertNew
  split
  · assumption
  · simp

/-- What a scrub leaves (R238): memory and the ports, and the page noted with its forced slot served. -/
structure Scrubbed (s : State) (p task : Nat) (t : State) : Prop where
  noted : getKey 0 t.bg.scrubbed p = s.now
  served : t.bg.forced.getLsbD task = false
  mem : t.mem = s.mem
  ports : t.ports = s.ports

theorem Scrubbed.keep {s t u : State} {p task : Nat} (h : Scrubbed s p task t) (k : SamePages t u) : Scrubbed s p task u :=
  ⟨k.scrubbed ▸ h.noted, k.forced ▸ h.served, k.mem.trans h.mem, k.ports.trans h.ports⟩

theorem getLsbD_clear (x : BitVec 8) (k : Nat) : (x &&& ~~~BitVec.ofNat 8 (2 ^ k)).getLsbD k = false := by
  by_cases h : k < 8
  · rw [BitVec.getLsbD_and, BitVec.getLsbD_not, BitVec.getLsbD_ofNat, Nat.testBit_two_pow_self]
    simp [h]
  · exact BitVec.getLsbD_of_ge _ _ (Nat.le_of_not_lt h)

theorem Scrubbed.begin (s : State) (p task : Nat) : Scrubbed s p task ((s.scrubbedAt p).setForced task false) :=
  ⟨getKey_setKey_self .., getLsbD_clear .., rfl, rfl⟩

/-- Withholding a page leaves what a scrub noted, and every uncorrectable word known. -/
theorem Scrubbed.withholdFree {s t : State} {p task : Nat} (h : Scrubbed s p task t) (q : Nat) :
    Scrubbed s p task (t.withholdFree q) := by
  unfold State.withholdFree
  split
  · exact h
  · exact ⟨(h.keep (.repairPage t q)).noted, (h.keep (.repairPage t q)).served, (h.keep (.repairPage t q)).mem,
      (h.keep (.repairPage t q)).ports⟩

theorem State.withholdFree_ueWords (s : State) (p : Nat) : (s.withholdFree p).bg.ueWords = s.bg.ueWords := by
  unfold State.withholdFree
  split
  · rfl
  · exact (SamePages.repairPage s p).ueWords

theorem State.withholdFree_of_free {s : State} {p : Nat} (free : s.reserved p = false) :
    (s.withholdFree p).bg.withheld.contains p = true ∧ (s.withholdFree p).bg.zeroing.contains p = true := by
  unfold State.withholdFree
  rw [if_neg (by simp [free])]
  exact ⟨contains_insertNew .., contains_insertNew ..⟩

/-! ## The scrubs -/

/-- A scrub's row: it leaves what `Scrubbed` says, keeps the uncorrectable word it finds, and withholds a free page. -/
structure ScrubRow (s : State) (p task width : Nat) (found : Finding) (t : State) : Prop extends Scrubbed s p task t where
  found_ : ∀ a, found = .uncorrectable a → inPage p a = true → s.bg.zeroing.contains p = false →
    t.bg.ueWords.contains (a / width * width) = true ∧
    (s.reserved p = false → t.bg.withheld.contains p = true ∧ t.bg.zeroing.contains p = true)

theorem execPatrolScrub_row (s : State) {p : Nat} (found : Finding) (sub : 16384 ≤ p) (ok : s.pageOk p = true) :
    ∃ t, execPatrolScrub p found s = .next t ∧ ScrubRow s p 1 32 found t := by
  have begun := Scrubbed.begin s p 1
  unfold execPatrolScrub
  rw [if_neg (by simp [ok]; omega)]
  dsimp only
  split
  · next zeroing => exact ⟨_, rfl, begun, fun _ _ _ no => Bool.noConfusion (no.symm.trans zeroing)⟩
  · split
    · exact ⟨_, rfl, begun.keep (.repairHealed ..), nofun⟩
    · split
      · exact ⟨_, rfl, begun.keep ((SamePages.rowCorrected ..).trans (.repairHealed ..)), nofun⟩
      · exact ⟨_, rfl, begun, nofun⟩
    · next a =>
      split
      · refine ⟨_, rfl, Scrubbed.withholdFree ?_ p, fun b e _ _ => ⟨?_, fun free => ?_⟩⟩
        · exact ⟨begun.noted, begun.served, begun.mem, begun.ports⟩
        · cases e
          rw [State.withholdFree_ueWords]
          exact contains_insertNew ..
        · exact State.withholdFree_of_free free
      · next out => exact ⟨_, rfl, begun, fun b e inside _ => by cases e; exact absurd inside out⟩

theorem execTopsoilScrub_row (s : State) {p : Nat} (found : Finding) (top : p < 16384) (ok : s.pageOk p = true) :
    ∃ t, execTopsoilScrub p found s = .next t ∧ ScrubRow s p 2 8 found t := by
  have begun := Scrubbed.begin s p 2
  unfold execTopsoilScrub
  rw [if_neg (by simp [ok]; omega)]
  dsimp only
  split
  · next zeroing => exact ⟨_, rfl, begun, fun _ _ _ no => Bool.noConfusion (no.symm.trans zeroing)⟩
  · split
    · exact ⟨_, rfl, begun, nofun⟩
    · split
      · exact ⟨_, rfl, begun.keep (.raiseCorrected ..), nofun⟩
      · exact ⟨_, rfl, begun, nofun⟩
    · next a =>
      split
      · refine ⟨_, rfl, Scrubbed.withholdFree ?_ p, fun b e _ _ => ⟨?_, fun free => ?_⟩⟩
        · exact ⟨begun.noted, begun.served, begun.mem, begun.ports⟩
        · cases e
          rw [State.withholdFree_ueWords]
          exact contains_insertNew ..
        · exact State.withholdFree_of_free free
      · next out => exact ⟨_, rfl, begun, fun b e inside _ => by cases e; exact absurd inside out⟩

/-! ## Zeroing -/

/-- What the end of a page's zeroing leaves (R228, R237): the page reads as 0 and holds no uncorrectable word, and it no longer
waits. -/
structure PageZeroed (s : State) (p : Nat) (t : State) : Prop where
  waits : t.bg.zeroing.contains p = false
  reads : ∀ a, memRead t.mem a = if inPage p a then 0 else memRead s.mem a
  words : ∀ w, t.bg.ueWords.contains w = true → inPage p w = false
  ctxs : t.ctxs = s.ctxs
  ports : t.ports = s.ports

theorem memRead_clearPage (s : State) (p a : Nat) :
    memRead (s.clearPage p).mem a = if inPage p a then 0 else memRead s.mem a := by
  rw [State.clearPage, memRead_memZero]
  simp only [inPage, Bool.and_eq_true, decide_eq_true_eq]

theorem contains_clearPage {s : State} {p w : Nat} (h : (s.clearPage p).bg.ueWords.contains w = true) :
    inPage p w = false := by
  have kept := (List.mem_filter.mp (List.contains_iff_mem.mp h)).2
  simpa using kept

theorem State.repairPage_ctxs (s : State) (p : Nat) : (s.repairPage p).ctxs = s.ctxs := by
  obtain ⟨_, _, _, _, h⟩ := SameButRepairs.repairPage s p
  rw [h]

theorem pageZeroed (s : State) (p : Nat) (withheld : List Nat) : PageZeroed s p
    { (s.repairPage p).clearPage p with bg := { ((s.repairPage p).clearPage p).bg with
        zeroing := ((s.repairPage p).clearPage p).bg.zeroing.filter (· != p), withheld } } where
  waits := contains_filter_ne ..
  reads a := (memRead_clearPage ..).trans (by rw [(SamePages.repairPage s p).mem])
  words _ := contains_clearPage
  ctxs := State.repairPage_ctxs s p
  ports := (SamePages.repairPage s p).ports

theorem PageZeroed.answerReserves {s t : State} {p : Nat} (h : PageZeroed s p t) : PageZeroed s p t.answerReserves := by
  unfold State.answerReserves
  obtain ⟨_, _, answered⟩ := State.answerBusy_eq t _
  rw [answered]
  exact ⟨h.waits, h.reads, h.words, h.ctxs, h.ports⟩

/-- The forced slot is served when no RESERVE waits any more (R466). -/
theorem PageZeroed.served {s t : State} {p : Nat} (h : PageZeroed s p t) (waiting : Bool) :
    PageZeroed s p (if waiting then t else t.setForced 5 false) := by
  split
  · exact h
  · exact ⟨h.waits, h.reads, h.words, h.ctxs, h.ports⟩

theorem execPageZeroDone_row {s : State} {p : Nat} (waits : s.bg.zeroing.contains p = true) :
    ∃ t, execPageZeroDone p s = .next t ∧ PageZeroed s p t := by
  unfold execPageZeroDone
  rw [if_pos waits]
  exact ⟨_, rfl, (pageZeroed s p _).answerReserves.served _⟩

/-- Settles O49: a scrub's row and the end of a zeroing are each one lemma above. -/
theorem scrubbingAndZeroingActOnPages : Obligations.ScrubbingAndZeroingActOnPages := by
  unfold Obligations.ScrubbingAndZeroingActOnPages
  refine fun s p => ⟨fun found sub ok => ?_, fun found top ok => ?_, fun waits => ?_⟩
  · obtain ⟨t, row, ⟨noted, served, mem, ports⟩, kept⟩ := execPatrolScrub_row s found sub ok
    exact ⟨t, row, noted, served, mem, ports, kept⟩
  · obtain ⟨t, row, ⟨noted, served, mem, ports⟩, kept⟩ := execTopsoilScrub_row s found top ok
    exact ⟨t, row, noted, served, mem, ports, kept⟩
  · obtain ⟨t, row, ⟨free, reads, words, ctxs, ports⟩⟩ := execPageZeroDone_row waits
    exact ⟨t, row, free, reads, words, ctxs, ports⟩

end Sys2Proof.Machine
end

section
/-! PROOFS. The states of a commons object (R229 to R234): promotes, fills and drains change the arbiter, and what completes
with them does not. -/

namespace Sys2Proof.Machine

/-! ## What completing an instruction leaves -/

/-- The contexts owe no residency (R234). -/
def State.owesNothing (s : State) : Prop := ∀ c ∈ s.ctxs, c.owed = []

/-- The arbiter, memory and the device are as before, and where no context lacked residency none lacks it. -/
structure SameArbiter (s t : State) : Prop extends SameDevice s t where
  arbiter : t.arbiter = s.arbiter
  mem : t.mem = s.mem
  owes : s.owesNothing → t.owesNothing

namespace SameArbiter

theorem refl (s : State) : SameArbiter s s := ⟨.refl s, rfl, rfl, id⟩

theorem trans {s t u : State} (h : SameArbiter s t) (k : SameArbiter t u) : SameArbiter s u :=
  ⟨h.toSameDevice.trans k.toSameDevice, k.arbiter.trans h.arbiter, k.mem.trans h.mem, k.owes ∘ h.owes⟩

theorem foldl {α : Type} {f : State → α → State} (h : ∀ s a, SameArbiter s (f s a)) (l : List α) (s : State) :
    SameArbiter s (l.foldl f s) :=
  List.foldlRecOn (motive := SameArbiter s) l f (.refl s) fun t ht a _ => ht.trans (h t a)

theorem ite {s t u : State} {p : Prop} [Decidable p] (h : SameArbiter s t) (k : SameArbiter s u) :
    SameArbiter s (if p then t else u) := by
  split
  · exact h
  · exact k

theorem of_log {s t : State} (h : SameButLog s t) : SameArbiter s t := by
  obtain ⟨sed, rfl⟩ := h
  exact ⟨⟨⟨rfl, rfl, rfl, rfl, rfl, rfl⟩, rfl, rfl, rfl⟩, rfl, rfl, id⟩

theorem mapCtx (s : State) (id : Nat) {m : Ctx → Ctx} (hm : ∀ c, (m c).owed = c.owed) : SameArbiter s (s.mapCtx id m) :=
  ⟨.mapCtx s id m, rfl, rfl, fun h => State.mapCtx_owes_nothing h id hm⟩

theorem raise (s : State) (code detail src ctx : Nat) : SameArbiter s (s.raise code detail src ctx) := .of_log (.of_sed s _)

theorem dropItems (s : State) (id : Nat) : SameArbiter s (s.dropItems id) := ⟨.dropItems s id, rfl, rfl, fun h => h⟩

theorem beginCtxReset (s : State) (id cause : Nat) : SameArbiter s (s.beginCtxReset id cause) := by
  unfold State.beginCtxReset
  split
  · exact .refl s
  · split
    · exact .refl s
    · exact ((of_log (.writeNow s ..)).trans (dropItems ..)).trans (mapCtx _ id fun _ => rfl)

theorem fault (s : State) (id path : Nat) (e : Fail) : SameArbiter s (s.fault id path e) := by
  have noted (t : State) : SameArbiter t (t.mapCtx id (Ctx.noteFail path e)) := mapCtx t id fun c => by
    obtain ⟨grains, h⟩ := c.noteFail_eq path e
    rw [h]
    rfl
  obtain ⟨v, logged, faulted⟩ := s.fault_eq id path e
  rw [faulted]
  exact (((of_log logged).trans (noted v)).trans (beginCtxReset ..)).trans (noted _)

theorem signal (s : State) (id path idx add : Nat) : SameArbiter s (s.signal id path idx add) := by
  unfold State.signal
  split
  · exact .refl s
  · exact .ite (fault ..) (mapCtx s id fun _ => rfl)

theorem signalAll (s : State) (id path : Nat) (l : List (Nat × Nat)) : SameArbiter s (s.signalAll id path l) :=
  .foldl (fun _ _ => signal ..) l s

theorem setPhase (s : State) (r : InstrRef) (ph : Phase) : SameArbiter s (s.setPhase r ph) := mapCtx s r.ctx fun _ => rfl

theorem retire (s : State) (r : InstrRef) : SameArbiter s (s.retire r) := by
  unfold State.retire
  refine trans (mapCtx s r.ctx ?_) (setPhase ..)
  exact fun _ => rfl

theorem raiseFlags (s : State) (id g fl : Nat) : SameArbiter s (s.raiseFlags id g fl) :=
  .ite (.refl s) (mapCtx s id fun _ => rfl)

theorem raiseAll (s : State) (id : Nat) (l : List (Nat × Nat)) : SameArbiter s (s.raiseAll id l) :=
  .foldl (fun _ _ => raiseFlags ..) l s

theorem reportUpdate (s : State) (id path : Nat) (u : Nat × Nat) : SameArbiter s (s.reportUpdate id path u) := by
  have logged (b : Bool) (code detail : Nat) (t : State) : SameArbiter t (if b then t.raise code detail path id else t) :=
    .ite (raise ..) (.refl t)
  unfold State.reportUpdate
  refine trans (trans (trans (mapCtx s id ?_) (logged ..)) (logged ..)) (logged ..)
  exact fun _ => rfl

theorem completeInstr (s : State) (r : InstrRef) (f : Found) : SameArbiter s (s.completeInstr r f) := by
  have ended (t : State) : SameArbiter t (if f.ctx.phase = .resetting then t.retire r
      else ((t.retire r).raiseAll r.ctx f.p.flags).signalAll r.ctx f.path (signalsOf f.words)) :=
    .ite (retire ..) (((retire ..).trans (raiseAll ..)).trans (signalAll ..))
  unfold State.completeInstr
  refine trans ?_ (ended _)
  split
  · exact reportUpdate ..
  · exact .refl s

theorem setResidency (s : State) (ctx obj : Nat) (held : Bool) : SameArbiter s (s.setResidency ctx obj held) :=
  mapCtx s ctx fun _ => rfl

theorem promoteDone (s : State) (r : InstrRef) (obj : Nat) : SameArbiter s (s.promoteDone r obj) := by
  unfold State.promoteDone
  split
  · exact .refl s
  · exact trans (.ite (setResidency ..) (.refl s)) (completeInstr ..)

end SameArbiter

theorem State.object?_of_arbiter {s t : State} (h : t.arbiter = s.arbiter) (id : Nat) : t.object? id = s.object? id := by
  simp only [State.object?, h]

theorem State.object?_mapObject_self {s : State} {id : Nat} {o : CommonsObj} (h : s.object? id = some o)
    {f : CommonsObj → CommonsObj} (hf : ∀ o, (f o).entry.id = o.entry.id) : (s.mapObject id f).object? id = some (f o) := by
  rw [State.object?_mapObject s id id hf, if_pos rfl, h, Option.map_some]

theorem SameDevice.mapObject (s : State) (id : Nat) (f : CommonsObj → CommonsObj) : SameDevice s (s.mapObject id f) :=
  ⟨⟨rfl, rfl, rfl, rfl, rfl, rfl⟩, rfl, rfl, rfl⟩

/-! ## PROMOTE of an object at home (R231, R232) -/

/-- An object whose fill begins for one promote. -/
def CommonsObj.startFill (r : InstrRef) (engine : Nat) (got : List Nat) (o : CommonsObj) : CommonsObj :=
  { o with phase := .filling, holders := [r.ctx], waiters := [r], engine, resident := got }

section
variable {s : State} {r : InstrRef} {obj engine : Nat} {o : CommonsObj} {got : List Nat} {missing : Nat}
  (object : s.object? obj = some o) (free : o.holders.contains r.ctx = false) (home : o.phase = .home)
  (pages : placePages o.entry.places (s.poolFree o.owner) = (got, missing))
include object free home pages

theorem State.promote_starts (enough : missing = 0) (first : s.arbiter.queue = []) :
    s.promote r obj engine true = s.mapObject obj (CommonsObj.startFill r engine got) := by
  simp only [State.promote, object, free, home, pages, enough, first]
  rfl

theorem State.promote_queues (enough : missing = 0) (behind : s.arbiter.queue ≠ []) :
    s.promote r obj engine true = { s with arbiter := { s.arbiter with queue := insertNew s.arbiter.queue r } } := by
  simp only [State.promote, object, free, home, pages, enough]
  simp [behind]

theorem State.promote_lacks (lacking : 0 < missing) :
    s.promote r obj engine true = { s.raise 0x2303 missing pkgPath r.ctx with
      arbiter := { s.arbiter with queue := insertNew s.arbiter.queue r } } := by
  simp only [State.promote, object, free, home, pages]
  simp [Nat.ne_of_gt lacking]

end

/-- A change of a context's instructions leaves the free pages of every pool. -/
theorem State.poolFree_setPhase (s : State) (r : InstrRef) (ph : Phase) (owner : Nat) :
    (s.setPhase r ph).poolFree owner = s.poolFree owner := by
  have same : ((s.setPhase r ph).ctx? owner).map Ctx.pages = (s.ctx? owner).map Ctx.pages :=
    (Stores.setPhase (id := r.ctx) s r ph).seen owner
  unfold State.poolFree
  cases h : s.ctx? owner with
  | none =>
    rw [h, Option.map_none, Option.map_eq_none_iff] at same
    rw [same]
  | some c =>
    rw [h, Option.map_some, Option.map_eq_some_iff] at same
    obtain ⟨d, hd, pages⟩ := same
    rw [hd]
    simp only [pages]
    rfl

theorem execPromote_runs {s : State} {r : InstrRef} {f : Found} (found : s.found? r = some f) (issued : f.p.phase = .issued)
    (op : wOp f.words = 0x41) (engine : s.engineStopped f = false) : exec (.promote r) s =
      .next ((s.setPhase r .executed).promote r (wLo f.words 4 % 4096) (wCf f.words % 64) true) := by
  change execPromote r s = _
  simp [execPromote, found, issued, op, engine]

/-! ## EVICT and SEAL (R229, R231) -/

theorem execEvict_runs {s : State} {r : InstrRef} {f : Found} {o : CommonsObj} (found : s.found? r = some f)
    (issued : f.p.phase = .issued) (op : wOp f.words = 0x42) (engine : s.engineStopped f = false)
    (object : s.object? (wLo f.words 4 % 4096) = some o) : exec (.evict r) s =
      if o.holders.contains r.ctx then .next ((s.dropResidency r.ctx (wLo f.words 4 % 4096)).completeInstr r f)
      else .next (s.fault r.ctx f.path (Fail.mk' 0x2302 0)) := by
  change execEvict r s = _
  rw [execEvict, found]
  dsimp only
  rw [if_pos ⟨issued, op, by rw [engine]; rfl⟩, object, Option.any_some]

/-- An object that a context no longer holds. -/
def CommonsObj.drop (ctx : Nat) (o : CommonsObj) : CommonsObj :=
  { o with
    holders := o.holders.filter (· != ctx)
    phase := if (o.holders.filter (· != ctx)).isEmpty && o.phase == .resident then .draining else o.phase }

theorem State.object?_dropResidency {s : State} {ctx obj : Nat} {o : CommonsObj} (object : s.object? obj = some o) :
    (s.dropResidency ctx obj).object? obj = some (o.drop ctx) :=
  State.object?_mapObject_self (f := CommonsObj.drop ctx) object fun _ => rfl

theorem CommonsObj.drop_drains {ctx : Nat} {o : CommonsObj} (alone : (o.drop ctx).holders = []) (resident : o.phase = .resident) :
    (o.drop ctx).phase = .draining := by
  change o.holders.filter (· != ctx) = [] at alone
  simp [CommonsObj.drop, alone, resident]

/-- The commons object that SEAL makes of a table entry (R229). -/
def sealedObject (e : CommonsEntry) (owner : Nat) (home : List Nat) : CommonsObj :=
  { entry := e, owner, home, resident := [], phase := .home, holders := [], waiters := [], grants := [], engine := 0 }

/-- The home of a table entry: the device pages mapped there. -/
def Ctx.commonsHome (c : Ctx) (e : CommonsEntry) : List Nat :=
  (List.range e.size).filterMap fun j => (c.pages.window.find? fun m => m.win == 16384 + e.home + j).map PageMap.dev

def State.addObject (s : State) (o : CommonsObj) : State :=
  { s with arbiter := { s.arbiter with objects := s.arbiter.objects ++ [o] } }

theorem State.object?_addObject {s : State} {o : CommonsObj} (new : s.object? o.entry.id = none) :
    (s.addObject o).object? o.entry.id = some o := by
  rw [State.object?, State.addObject, List.find?_append]
  rw [State.object?] at new
  simp [new]

theorem execSealObject_seals {s : State} {r : InstrRef} {f : Found} {e : CommonsEntry} (found : s.found? r = some f)
    (issued : f.p.phase = .issued) (op : wOp f.words = 0x43) (engine : s.engineStopped f = false)
    (entry : (f.ctx.plan.bind fun p => p.commons.find? fun e => e.id == wLo f.words 4 % 4096) = some e)
    (mapped : (f.ctx.commonsHome e).length = e.size) (new : s.object? (wLo f.words 4 % 4096) = none) :
    exec (.sealObject r) s = .next ((s.addObject (sealedObject e r.ctx (f.ctx.commonsHome e))).completeInstr r f) := by
  change execSealObject r s = _
  rw [execSealObject, found]
  dsimp only
  rw [if_pos ⟨issued, op, by rw [engine]; rfl⟩, entry]
  dsimp only
  rw [if_neg fun other => other mapped, new, if_neg nofun]
  rfl

/-! ## Fills and drains (R231) -/

/-- A fill changes memory and the uncorrectable words alone. -/
structure FillsOnly (s t : State) : Prop extends SameBase s t where
  arbiter : t.arbiter = s.arbiter
  ctxs : t.ctxs = s.ctxs
  ports : t.ports = s.ports
  resets : t.resets = s.resets

theorem FillsOnly.copies (l : List (Nat × Nat)) (s : State) : FillsOnly s (l.foldl (fun s p => s.copyPage p.1 p.2) s) :=
  List.foldlRecOn (motive := FillsOnly s) l _ ⟨.refl s, rfl, rfl, rfl, rfl⟩
    fun _ ⟨⟨a, b, c, d, e, f⟩, g, h, i, j⟩ _ _ => ⟨⟨a, b, c, d, e, f⟩, g, h, i, j⟩

theorem State.copies_mem (l : List (Nat × Nat)) (s : State) :
    (l.foldl (fun s p => s.copyPage p.1 p.2) s).mem = l.foldl (fun m p => memCopyPage m p.1 p.2) s.mem :=
  (List.foldl_hom State.mem fun _ _ => rfl).symm

theorem State.fill_ok {s u : State} {o : CommonsObj} (h : s.fill o = .ok u) :
    FillsOnly s u ∧ u.mem = (o.home.zip o.resident).foldl (fun m p => memCopyPage m p.1 p.2) s.mem := by
  unfold State.fill at h
  split at h
  · cases h
  · cases h
    exact ⟨.copies .., State.copies_mem ..⟩

/-- An object whose fill has ended. -/
def CommonsObj.filled (o : CommonsObj) : CommonsObj :=
  { o with phase := if o.holders.isEmpty then .draining else .resident, waiters := [] }

/-- The promotes that waited for a fill complete. -/
theorem State.fillDone_ends {s u : State} {o : CommonsObj} {obj : Nat} (object : s.object? obj = some o)
    (filling : o.phase = .filling) (filled : s.fill o = .ok u) (paid : s.owesNothing) :
    ∃ v, FillsOnly u v ∧ v.mem = u.mem ∧ SameArbiter (v.mapObject obj CommonsObj.filled) (s.fillDone obj) := by
  refine ⟨(u.engineMoved o.engine (o.entry.size * pageSize)).engineRetires (.copy o.engine),
    ⟨⟨rfl, rfl, rfl, rfl, rfl, rfl⟩, rfl, rfl, rfl, rfl⟩, rfl, ?_⟩
  have ended (t : State) (owes : t.owesNothing) :
      SameArbiter t (o.waiters.foldl (fun s r => s.promoteDone r obj) t).payOwed := by
    have done : SameArbiter t (o.waiters.foldl (fun s r => s.promoteDone r obj) t) :=
      .foldl (fun _ _ => SameArbiter.promoteDone ..) _ t
    rwa [State.payOwed_of_owes_nothing (done.owes owes)]
  have paid' : u.owesNothing := by
    rw [State.owesNothing, (State.fill_ok filled).1.ctxs]
    exact paid
  rw [State.fillDone, object]
  dsimp only
  rw [if_neg fun other => other filling, filled]
  exact ended _ paid'

/-- An object whose drain has ended. -/
def CommonsObj.drained (o : CommonsObj) : CommonsObj := { o with phase := .home, resident := [] }

theorem execCommonsDrainDone_ends {s : State} {o : CommonsObj} {obj : Nat} (object : s.object? obj = some o)
    (draining : o.phase = .draining) (unread : s.readInFlight o = false) :
    exec (.commonsDrainDone obj) s = .next (s.mapObject obj CommonsObj.drained).serveQueue := by
  change execCommonsDrainDone obj s = _
  rw [execCommonsDrainDone, object]
  exact if_pos ⟨draining, by rw [unread]; rfl⟩

/-- Where no promote waits and no context lacks residency, nothing is served (R232, R234). -/
theorem State.serveQueue_idle {s : State} (unqueued : s.arbiter.queue = []) (paid : s.owesNothing) : s.serveQueue = s := by
  unfold State.serveQueue
  dsimp only
  rw [unqueued]
  exact State.payOwed_of_owes_nothing paid

/-- Settles O22: each row comes to an update of the arbiter's record of the object, and what completes with it leaves the
arbiter. -/
theorem commonsObjectsMoveThroughTheirStates : Obligations.CommonsObjectsMoveThroughTheirStates := by
  unfold Obligations.CommonsObjectsMoveThroughTheirStates
  refine ⟨fun s r f o got missing found issued op engine object free home pages => ?_,
    fun s r f found issued engine => ⟨fun op o object => ⟨fun held => ⟨?_, ?_⟩, fun unheld => ?_⟩, ?_⟩,
    fun s u o obj object paid => ⟨fun filling filled => ?_, fun draining reads => ?_, fun draining unread unqueued => ?_⟩⟩
  · have row := execPromote_runs found issued op engine
    have same := SameArbiter.setPhase s r .executed
    rw [← State.poolFree_setPhase s r .executed] at pages
    have object' := (State.object?_of_arbiter same.arbiter _).trans object
    obtain ⟨g, found', executed⟩ := State.found?_setPhase found (ph := .executed) nofun
    refine ⟨fun enough first => ?_, fun enough behind => ?_, fun lacking => ?_⟩
    · rw [State.promote_starts object' free home pages enough (by rw [same.arbiter, first])] at row
      exact ⟨_, _, g, row, State.object?_mapObject_self object' fun _ => rfl, rfl, rfl, rfl, rfl, rfl, found', executed, rfl,
        SameOthers.setPhase s r .executed, same.toSameDevice.trans (.mapObject ..)⟩
    · rw [State.promote_queues object' free home pages enough (by rw [same.arbiter]; exact behind)] at row
      exact ⟨_, row, List.contains_iff_mem.mp (contains_insertNew ..), object', rfl, rfl, same.toSameDevice.trans
        ⟨⟨rfl, rfl, rfl, rfl, rfl, rfl⟩, rfl, rfl, rfl⟩⟩
    · rw [State.promote_lacks object' free home pages lacking] at row
      exact ⟨_, row, List.contains_iff_mem.mp (contains_insertNew ..), object', rfl, rfl, same.toSameDevice.trans
        ⟨⟨rfl, rfl, rfl, rfl, rfl, rfl⟩, rfl, rfl, rfl⟩⟩
  · rw [execEvict_runs found issued op engine object, if_pos held]
  · exact ⟨_, State.object?_dropResidency object, rfl, CommonsObj.drop_drains⟩
  · rw [execEvict_runs found issued op engine object, if_neg (Bool.eq_false_iff.mp unheld)]
  · rintro op e _ entry rfl mapped new
    have same := SameArbiter.completeInstr (s.addObject (sealedObject e r.ctx (f.ctx.commonsHome e))) r f
    have number : e.id = wLo f.words 4 % 4096 := by
      obtain ⟨p, -, found⟩ := Option.bind_eq_some_iff.mp entry
      simpa using List.find?_some found
    refine ⟨_, _, execSealObject_seals found issued op engine entry mapped new,
      (State.object?_of_arbiter same.arbiter _).trans (State.object?_addObject (number ▸ new)), rfl, rfl, rfl, rfl, same.mem⟩
  · obtain ⟨v, moved, mem, same⟩ := State.fillDone_ends object filling filled paid
    obtain ⟨fills, copied⟩ := State.fill_ok filled
    have there : v.object? obj = some o :=
      (State.object?_of_arbiter (moved.arbiter.trans fills.arbiter) obj).trans object
    refine ⟨_, o.filled, rfl, (State.object?_of_arbiter same.arbiter obj).trans (State.object?_mapObject_self there fun _ => rfl),
      rfl, rfl, rfl, (same.mem.trans mem).trans copied, ?_, ?_, ?_⟩
    · exact (fills.toSameBase.trans moved.toSameBase).trans ((SameDevice.mapObject ..).trans same.toSameDevice).toSameBase
    · exact same.ports.trans (moved.ports.trans fills.ports)
    · exact same.resets.trans (moved.resets.trans fills.resets)
  · change execCommonsDrainDone obj s = _
    simp [execCommonsDrainDone, object, draining, reads]
  · have row := execCommonsDrainDone_ends object draining unread
    rw [State.serveQueue_idle (s := s.mapObject obj CommonsObj.drained) unqueued paid] at row
    exact ⟨_, o.drained, row, State.object?_mapObject_self object fun _ => rfl, rfl, rfl, rfl, rfl, .mapObject ..⟩

end Sys2Proof.Machine
end

section
/-! PROOFS. What every operation keeps, continued: rows that answer, time, engines and power states of units, the unit's own
writes to flash, ports, and the arbiter of the commons. -/

namespace Sys2Proof.Machine

/-! ## Rows -/

/-- Where the row answers a state, it keeps what every operation keeps. -/
structure KeepsOut (s : State) (o : Out) : Prop where
  at_next : ∀ t, o = .next t → Keeps s t

namespace KeepsOut

variable {s t : State}

theorem next (h : Keeps s t) : KeepsOut s (.next t) := ⟨fun _ e => by cases e; exact h⟩

theorem fault (s : State) (f : Fault) : KeepsOut s (.fault f) := ⟨fun _ h => nomatch h⟩

theorem refl (s : State) : KeepsOut s (.next s) := .next (.refl s)

theorem after {o : Out} (h : Keeps s t) (k : KeepsOut t o) : KeepsOut s o := ⟨fun u e => h.trans (k.at_next u e)⟩

theorem ite {o q : Out} {p : Prop} [Decidable p] (h : KeepsOut s o) (k : KeepsOut s q) :
    KeepsOut s (if p then o else q) := by
  split
  · exact h
  · exact k

/-- A row that acts where its moment may come, and otherwise leaves the state as it was (log entry 26). -/
theorem when {p : Prop} [Decidable p] (h : Keeps s t) : KeepsOut s (if p then .next t else .next s) := .ite (.next h) (.refl s)

theorem skip {p : Prop} [Decidable p] (h : Keeps s t) : KeepsOut s (if p then .next s else .next t) := .ite (.refl s) (.next h)

end KeepsOut

namespace Keeps

variable {s t : State}

/-- An operation, and then an update of other fields. -/
theorem set {u : State} (h : Keeps s t) (hp : u.pending = t.pending) (hm : u.mem = t.mem) : Keeps s u :=
  h.trans (.of_eq hp hm)

/-- An operation where a condition calls for it. -/
theorem when {p : Prop} [Decidable p] (h : Keeps s t) : Keeps s (if p then t else s) := .ite h (.refl s)

theorem skip {p : Prop} [Decidable p] (h : Keeps s t) : Keeps s (if p then s else t) := .ite (.refl s) h

theorem of_log (h : SameButLog s t) : Keeps s t := by
  obtain ⟨sed, rfl⟩ := h
  exact .of_eq rfl rfl

theorem of_stores {id : Nat} (h : Stores id s t) : Keeps s t := h.toKeeps

end Keeps

theorem KeepsOk.of_stores {id : Nat} {s : State} {x : Except Fail State} (h : StoresOk id s x) : KeepsOk s x :=
  ⟨fun t e => (h.at_ok t e).toKeeps⟩

theorem KeepsOk.ite {s : State} {x y : Except Fail State} {p : Prop} [Decidable p] (h : KeepsOk s x) (k : KeepsOk s y) :
    KeepsOk s (if p then x else y) := by
  split
  · exact h
  · exact k

/-! ## Time, engines, units -/

theorem State.mapCtxs_keeps (s : State) (ctxs : List Ctx) : Keeps s { s with ctxs } := .of_eq rfl rfl

theorem State.addCycles_keeps (s : State) (id g a n : Nat) (starved : Bool) : Keeps s (s.addCycles id g a n starved) :=
  State.mapCtx_keeps ..

theorem State.accrueGrain_keeps (s : State) (g us : Nat) (q : Sched) : Keeps s (s.accrueGrain g us q) := by
  refine Keeps.foldl (fun t a => Keeps.trans ?_ (.foldl (fun u _ => u.addCycles_keeps ..) _ _)) _ s
  split
  · exact State.addCycles_keeps ..
  · exact .refl t

theorem State.armTimers_keeps (s : State) (us : Nat) : Keeps s (s.armTimers us) := .of_eq rfl rfl

theorem State.advanceTo_keeps (s : State) (t : Nat) : Keeps s (s.advanceTo t) := by
  unfold State.advanceTo
  exact .skip (((s.armTimers_keeps _).trans (.foldl (fun _ _ => State.accrueGrain_keeps ..) _ _)).set (by rfl) (by rfl))

theorem State.engineRetires_keeps (s : State) (e : Engine) : Keeps s (s.engineRetires e) := .of_eq rfl rfl

theorem State.engineMoved_keeps (s : State) (e n : Nat) : Keeps s (s.engineMoved e n) := .of_eq rfl rfl

theorem State.copyRetires_keeps (s : State) (ws : List Nat) (n : Nat) : Keeps s (s.copyRetires ws n) :=
  (s.engineMoved_keeps ..).trans (State.engineRetires_keeps ..)

theorem State.unitsRetire_keeps (s : State) (f : Found) : Keeps s (s.unitsRetire f) :=
  .foldl (fun _ _ => State.engineRetires_keeps ..) _ s

theorem State.setUnit_keeps (s : State) (p : Nat) (u : UnitPower) : Keeps s (s.setUnit p u) := .of_eq rfl rfl

theorem State.enable_keeps (s : State) (p : Nat) : Keeps s (s.enable p) := by
  rcases s.enable_cases p with e | ⟨u, e⟩ <;> rw [e]
  · exact .refl s
  · exact s.setUnit_keeps p u

theorem State.wake_keeps (s : State) (l : List Nat) : Keeps s (s.wake l) := .foldl (fun _ _ => State.enable_keeps ..) l s

theorem State.setSched_keeps (s : State) (g : Nat) (q : Sched) : Keeps s (s.setSched g q) := .of_eq rfl rfl

/-! ## The unit's own writes to flash -/

theorem State.unitSign_keeps (s : State) (b : List Byte) : Keeps s (s.unitSign b).2 := .of_eq rfl rfl

theorem State.writeUnitRec_keeps (s : State) (kind : Nat) (body : List Byte) : Keeps s (s.writeUnitRec kind body) := by
  rcases s.writeUnitRec_cases kind body with e | ⟨recs, free, -, e⟩ <;> rw [e]
  · exact .refl s
  · exact .of_eq rfl rfl

theorem State.saveRetired_keeps (s : State) : Keeps s s.saveRetired := by
  obtain ⟨free, flash, e⟩ := s.saveRetired_eq
  rw [e]
  exact .of_eq rfl rfl

theorem State.savePcc_keeps (s : State) : Keeps s s.savePcc := .ite (State.writeUnitRec_keeps ..) (.of_eq rfl rfl)

theorem State.writeCtl_keeps (s : State) (c : BootCtl) : Keeps s (s.writeCtl c) :=
  .when ((s.writeUnitRec_keeps 0x10 c.body).set (by rfl) (by rfl))

theorem State.flushLog_keeps (s : State) : Keeps s s.flushLog := by
  unfold State.flushLog
  exact .of_eq rfl rfl

theorem State.takeRecords_keeps (s : State) : Keeps s s.takeRecords := by
  unfold State.takeRecords
  dsimp only
  split <;> exact .of_eq rfl rfl

/-! ## Ports -/

theorem State.mapPort_keeps (s : State) (p : Nat) (f : Port → Port) : Keeps s (s.mapPort p f) := .of_eq rfl rfl

theorem State.raisePort_keeps (s : State) (p code detail : Nat) : Keeps s (s.raisePort p code detail) := .of_eq rfl rfl

theorem State.countDrop_keeps (s : State) (id : Nat) : Keeps s (s.countDrop id) := State.mapCtx_keeps ..

theorem State.enqueue_keeps (s : State) (p vc bind : Nat) (bytes : List Byte) : Keeps s (s.enqueue p vc bind bytes) :=
  State.mapPort_keeps ..

theorem State.sendTable_keeps (s : State) (p : Nat) : Keeps s (s.sendTable p) := .when (State.enqueue_keeps ..)

theorem State.sendTables_keeps (s : State) (ports : List Nat) : Keeps s (s.sendTables ports) :=
  .foldl (fun _ _ => State.sendTable_keeps ..) _ s

theorem State.copyEnded_keeps (s : State) (r : InstrRef) (p : Nat) : Keeps s (s.copyEnded r p) := .of_eq rfl rfl

theorem State.endCopies_keeps (s : State) (p : Nat) : Keeps s (s.endCopies p) :=
  .foldl (fun _ _ => State.copyEnded_keeps ..) _ s

theorem State.portLeave_keeps (s : State) (p : Nat) (dst : PortPhase) : Keeps s (s.portLeave p dst) :=
  (s.mapPort_keeps ..).trans (State.endCopies_keeps ..)

theorem State.portDown_keeps (s : State) (p : Nat) : Keeps s (s.portDown p) := by
  unfold State.portDown
  split
  · exact .refl s
  · exact Keeps.trans (.when (s.raisePort_keeps ..)) (State.portLeave_keeps ..)

theorem State.quarantine_keeps (s : State) (p : Nat) : Keeps s (s.quarantine p) := by
  unfold State.quarantine
  split
  · exact .refl s
  · exact (((s.raisePort_keeps ..).trans (State.raisePort_keeps ..)).trans (State.portLeave_keeps ..)).trans
      (State.mapPort_keeps ..)

theorem State.retirePort_keeps (s : State) (p : Nat) : Keeps s (s.retirePort p) :=
  ((((s.portLeave_keeps p .retired).set (by rfl) (by rfl)).trans (State.saveRetired_keeps _)).trans (State.raisePort_keeps ..)).trans
    (State.notifyOps_keeps ..)

/-! ## The arbiter of the commons -/

theorem State.mapObject_keeps (s : State) (id : Nat) (f : CommonsObj → CommonsObj) : Keeps s (s.mapObject id f) := .of_eq rfl rfl

theorem State.setResidency_keeps (s : State) (ctx obj : Nat) (held : Bool) : Keeps s (s.setResidency ctx obj held) :=
  State.mapCtx_keeps ..

theorem State.promoteDone_keeps (s : State) (r : InstrRef) (obj : Nat) : Keeps s (s.promoteDone r obj) := by
  unfold State.promoteDone
  split
  · exact .refl s
  · exact Keeps.trans (.when (State.setResidency_keeps ..)) (State.completeInstr_keeps ..)

theorem State.promote_keeps (s : State) (r : InstrRef) (obj engine : Nat) (first : Bool) :
    Keeps s (s.promote r obj engine first) := by
  unfold State.promote
  split
  · exact .refl s
  · split
    · exact State.promoteDone_keeps ..
    · split
      · dsimp only
        exact .ite (State.mapObject_keeps ..) ((Keeps.when (s.raise_keeps ..)).set (by rfl) (by rfl))
      · exact State.mapObject_keeps ..
      · exact (s.mapObject_keeps ..).trans (State.promoteDone_keeps ..)
      · exact (s.mapObject_keeps ..).trans (State.promoteDone_keeps ..)

theorem State.dropResidency_keeps (s : State) (ctx obj : Nat) : Keeps s (s.dropResidency ctx obj) :=
  (s.mapObject_keeps ..).trans (State.setResidency_keeps ..)

/-- A fill copies page after page. -/
theorem State.fill_keeps (s : State) (o : CommonsObj) : KeepsOk s (s.fill o) := by
  unfold State.fill
  split
  · exact .error _
  · exact .ok (.foldl (fun _ _ => State.copyPage_keeps ..) _ s)

theorem State.owe_keeps (s : State) (ctx obj : Nat) : Keeps s (s.owe ctx obj) := State.mapCtx_keeps ..

theorem State.settle_keeps (s : State) (ctx obj : Nat) : Keeps s (s.settle ctx obj) :=
  (s.setResidency_keeps ..).trans (State.mapCtx_keeps ..)

theorem State.takeResidency_keeps (s : State) (ctx obj : Nat) : Keeps s (s.takeResidency ctx obj) := by
  have held (m : CommonsObj → CommonsObj) (t : State) : Keeps t ((t.mapObject obj m).settle ctx obj) :=
    (t.mapObject_keeps ..).trans (State.settle_keeps ..)
  unfold State.takeResidency
  split
  · exact State.mapCtx_keeps ..
  · next o _ =>
    split
    · exact .ite (State.owe_keeps ..) (State.settle_keeps ..)
    · split
      · dsimp only
        split
        · split
          · next t filled => exact ((s.fill_keeps _).at_ok t filled).trans (held _ t)
          · exact (s.raise_keeps ..).trans (State.owe_keeps ..)
        · exact State.owe_keeps ..
      · exact (s.mapObject_keeps ..).trans (State.owe_keeps ..)
      · exact held _ s
      · exact held _ s

theorem State.payOwed_keeps (s : State) : Keeps s s.payOwed :=
  .foldl (fun t _ => .foldl (fun _ _ => State.takeResidency_keeps ..) _ t) _ s

theorem State.serveQueue_keeps (s : State) : Keeps s s.serveQueue := by
  refine Keeps.trans ?_ (State.payOwed_keeps _)
  refine List.foldlRecOn (motive := fun acc : State × Bool => Keeps s acc.1) _ _ (.refl s) fun acc kept r _ => kept.trans ?_
  dsimp only
  split
  · exact .of_eq rfl rfl
  · split
    · exact (Keeps.of_eq (by rfl) (by rfl)).trans (State.promote_keeps ..)
    · exact .refl acc.1

theorem State.fillFailed_keeps (s : State) (obj : Nat) (e : Fail) : Keeps s (s.fillFailed obj e) := by
  unfold State.fillFailed
  split
  · exact .refl s
  · refine Keeps.trans (.trans (.trans (s.mapObject_keeps ..) (.foldl ?_ _ _)) (.foldl ?_ _ _)) (State.serveQueue_keeps _)
    · exact fun _ _ => State.setResidency_keeps ..
    · exact fun _ _ => State.fault_keeps ..

theorem State.fillDone_keeps (s : State) (obj : Nat) : Keeps s (s.fillDone obj) := by
  unfold State.fillDone
  split
  · exact .refl s
  · next o _ =>
    refine .skip ?_
    split
    · exact State.fillFailed_keeps ..
    · next t filled =>
      exact (s.fill_keeps o).at_ok t filled |>.trans (State.engineMoved_keeps ..) |>.trans (State.engineRetires_keeps ..)
        |>.trans (State.mapObject_keeps ..) |>.trans (.foldl (fun _ _ => State.promoteDone_keeps ..) _ _)
        |>.trans (State.payOwed_keeps _)

end Sys2Proof.Machine
end

section
/-! PROOFS. What every operation keeps, continued: commits and grants of the Sieve, snapshots, records, lost contexts, lanes
and step boundaries. -/

namespace Sys2Proof.Machine

/-! ## Commits and marks (R128 to R131) -/

/-- Each block record is read, decided and written back. -/
theorem State.commitBlocks_stores (s : State) (id : Nat) (t : Tensor) (rc : SieveRec) :
    StoresTo id Prod.fst s (s.commitBlocks id t rc) := by
  unfold State.commitBlocks
  split
  · exact .error s _
  · refine StoresTo.foldlM (π := Prod.fst) (fun a b => .read fun old => ?_) _ (s, 0, 0)
    exact (State.wrBytes_stores ..).bind fun u => .ok (.refl u)

theorem State.commitTensor_stores (s : State) (id path step : Nat) (t : Tensor) :
    StoresOk id s (s.commitTensor id path step t) := by
  have logged (u : State) (n code : Nat) (words : List Nat) :
      Stores id u (if n = 0 then u else u.raiseWords code n path id words) := .ite (.refl u) (.of_ctxs rfl rfl rfl)
  unfold State.commitTensor
  split
  · exact .error s _
  · refine .read fun rc => ?_
    dsimp only
    split
    · refine (State.commitBlocks_stores ..).bind fun q => .read fun w => (State.wrNat_stores ..).bind fun u =>
        (State.wrNat_stores ..).bind fun u => (State.wrNat_stores ..).bind fun u => ?_
      exact (State.wrNat_stores ..).bind fun u => (State.wrBytes_stores ..).bind fun u =>
        .ok (((Stores.mapCtx u id (fun _ => by rfl) (fun _ => by rfl)).trans (logged ..)).trans (logged ..))
    · refine StoresTo.bind (π := Prod.fst) (.ok (.refl s)) fun q => ?_
      exact (State.wrNat_stores ..).bind fun u => (State.wrBytes_stores ..).bind fun u =>
        .ok (((Stores.mapCtx u id (fun _ => by rfl) (fun _ => by rfl)).trans (logged ..)).trans (logged ..))

theorem State.commitAll_stores (s : State) (id path step : Nat) (p : Plan) (names : List Nat) :
    StoresOk id s (s.commitAll id path step p names) := by
  refine StoresTo.foldlM (π := fun t => t) (fun s i => ?_) _ s
  split
  · exact State.commitTensor_stores ..
  · exact .ok (.refl s)

theorem State.setRecFlags_keeps (s : State) (id off : Nat) (mark wide hist : Bool) :
    KeepsOk s (s.setRecFlags id off mark wide hist) := State.wrNat_keeps ..

theorem State.setMarks_keeps (s : State) (id : Nat) (p : Plan) : KeepsOk s (s.setMarks id p) := by
  unfold State.setMarks
  refine (KeepsOk.foldlM (fun t x => ?_) _ s).bind fun t => ?_
  · split
    · exact .error _
    · exact .read fun rc => State.setRecFlags_keeps ..
  · split
    · exact .error _
    · exact .read fun _ => .ok (State.mapCtx_keeps ..)

/-! ## Grants (R133 to R136) -/

/-- Zeroing the fall-back pages keeps the canonical form. -/
theorem Memory.wf_zeroFallback {m : List Host.Cell} (h : Memory.wf m = true) (l : List PageMap) :
    Memory.wf (l.foldl (fun m (q : PageMap) => memZero m (pageAddr q.dev) pageSize) m) = true :=
  List.foldlRecOn (motive := fun m => Memory.wf m = true) l _ h fun _ hm _ _ => Memory.wf_memZero hm ..

theorem State.endGrant_keeps (s : State) (id : Nat) (p : Plan) : KeepsOk s (s.endGrant id p) := by
  unfold State.endGrant
  split
  · exact .error _
  · next c _ =>
    refine KeepsOk.after ?_ (.foldlM (fun t x => .read fun rc => ?_) _ _)
    · exact ⟨rfl, fun w => Memory.wf_zeroFallback w c.pages.fallback⟩
    · exact .ite (State.setRecFlags_keeps ..) (.ok (.refl t))

theorem State.dropFallback_keeps (s : State) (id : Nat) : Keeps s (s.dropFallback id) := by
  unfold State.dropFallback
  split
  · exact .refl s
  · next c _ => exact ⟨rfl, fun w => Memory.wf_zeroFallback w c.pages.fallback⟩

theorem State.dropGrant_keeps (s : State) (id : Nat) : Keeps s (s.dropGrant id) := by
  unfold State.dropGrant
  refine Keeps.trans ?_ (State.mapCtx_keeps ..)
  split
  · exact State.dropFallback_keeps ..
  · split
    · next t ended => exact (State.endGrant_keeps ..).at_ok t ended
    · exact State.dropFallback_keeps ..

theorem State.grant_keeps (s : State) (id step : Nat) (p : Plan) (lent : List Nat) : KeepsOk s (s.grant id step p lent) := by
  unfold State.grant
  split
  · exact .error _
  · refine (State.endGrant_keeps ..).bind fun t => .read fun want => ?_
    refine (KeepsOk.foldlM (fun u x => .read fun rc => State.setRecFlags_keeps ..) _ t).bind fun u => .ok ?_
    exact (u.mapCtx_keeps ..).trans (.skip (State.raise_keeps ..))

/-! ## Snapshots and records (R242 to R245, R356, R377) -/

theorem State.updateCadence_keeps (s : State) (id : Nat) : Keeps s (s.updateCadence id) := by
  unfold State.updateCadence
  split
  · exact .refl s
  · exact State.mapCtx_keeps ..

theorem State.takeSnapshot_keeps (s : State) (id : Nat) (mark : SnapMark) : Keeps s (s.takeSnapshot id mark) := by
  unfold State.takeSnapshot
  split
  · exact .refl s
  · dsimp only
    refine Keeps.trans (.trans ?_ (State.mapCtx_keeps ..)) (State.snapComplete_keeps ..)
    split
    · exact State.pokes_keeps ..
    · exact .refl s

theorem State.bringResidency_keeps (s : State) (id : Nat) (want : List Nat) : Keeps s (s.bringResidency id want) := by
  unfold State.bringResidency
  split
  · exact .refl s
  · exact s.mapCtx_keeps .. |>.trans (.foldl (fun _ _ => State.dropResidency_keeps ..) _ _)
      |>.trans (State.mapCtx_keeps ..) |>.trans (.foldl (fun _ _ => State.takeResidency_keeps ..) _ _)

theorem State.applyRecord_keeps (s : State) (id : Nat) (img : ImageRec) : Keeps s (s.applyRecord id img) := by
  unfold State.applyRecord
  split
  · exact .refl s
  · have brought (m : Ctx → Ctx) : Keeps s ((s.mapCtx id m).bringResidency id img.residency) :=
      (s.mapCtx_keeps ..).trans (State.bringResidency_keeps ..)
    dsimp only
    split
    · exact brought _
    · split
      · next t granted => exact ((brought _).trans (State.mapCtx_keeps ..)).trans ((State.grant_keeps ..).at_ok t granted)
      · exact (brought _).trans (State.mapCtx_keeps ..)

theorem State.cancelHandles_keeps (s : State) (id : Nat) : Keeps s (s.cancelHandles id) := State.cancelWhere_keeps ..

theorem State.discardWork_keeps (s : State) (id : Nat) : Keeps s (s.discardWork id) :=
  (s.dropItems_keeps id).set (by rfl) (by rfl)

theorem State.restoreSlot_keeps (s : State) (c : Ctx) (j win : Nat) : Keeps s (s.restoreSlot c j win) := by
  unfold State.restoreSlot
  split
  · exact State.copyPage_keeps ..
  · exact .refl s

theorem State.loseContext_keeps (s : State) (id detail : Nat) : Keeps s (s.loseContext id detail) :=
  s.discardWork_keeps id |>.trans (State.cancelHandles_keeps ..) |>.trans (State.bringResidency_keeps ..)
    |>.trans (State.notify_keeps ..) |>.trans (State.raise_keeps ..) |>.trans (State.mapCtx_keeps ..)

theorem State.restoreAfterReset_keeps (s : State) (id cause : Nat) : Keeps s (s.restoreAfterReset id cause) := by
  unfold State.restoreAfterReset
  split
  · exact .refl s
  · split
    · dsimp only
      refine .ite (State.loseContext_keeps ..) ?_
      exact Keeps.foldl (fun _ _ => State.restoreSlot_keeps ..) _ s |>.trans (State.mapCtx_keeps ..)
        |>.trans (State.applyRecord_keeps ..) |>.trans (State.mapCtx_keeps ..)
    · exact (s.bringResidency_keeps ..).trans (State.dropGrant_keeps ..) |>.trans (State.mapCtx_keeps ..)

/-! ## Lanes (R266, R268) -/

theorem State.decideEntry_keeps (s : State) (r : InstrRef) : Keeps s (s.decideEntry r) :=
  .of_eq (SameDevice.decideEntry s r).pending (s.decideEntry_mem r)

theorem State.meetKeys_keeps (s : State) (id : Nat) (draws : Bool) : Keeps s (s.meetKeys id draws) :=
  .of_eq (SameDevice.meetKeys s id draws).pending (s.meetKeys_mem id draws)

theorem State.issue_keeps (s : State) (r : InstrRef) (f : Found) (l : Lane) : Keeps s (s.issue r f l) :=
  s.meetKeys_keeps .. |>.trans (State.mapCtx_keeps ..) |>.trans (State.mapPlaced_keeps ..)

theorem State.control_keeps (s : State) (r : InstrRef) (ok : Found → Bool) {act : Found → State → Except Fail State}
    (h : ∀ f s, KeepsOk s (act f s)) : Keeps s (s.control r ok act) := by
  unfold State.control
  refine (s.decideEntry_keeps r).trans ?_
  dsimp only
  split
  · exact .refl _
  · refine .when (Keeps.trans (State.wake_keeps ..) (.when ?_))
    split
    · next t acted => exact ((h _ _).at_ok t acted).trans (State.completeInstr_keeps ..)
    · exact State.fault_keeps ..

theorem State.waitExpired_keeps (s : State) (r : InstrRef) (path ref : Nat) : Keeps s (s.waitExpired r path ref) :=
  s.raise_keeps .. |>.trans (State.mapCtx_keeps ..) |>.trans (State.mapPlaced_keeps ..)

/-! ## Step boundaries (R267) -/

theorem State.noGrant_keeps (s : State) (id step : Nat) : Keeps s (s.noGrant id step) := by
  unfold State.noGrant
  split
  · exact .refl s
  · exact .skip ((s.dropGrant_keeps id).trans (State.mapCtx_keeps ..))

theorem State.boundary_keeps (s : State) (id path : Nat) (degraded : Bool) : Keeps s (s.boundary id path degraded) := by
  unfold State.boundary
  split
  · exact .refl s
  · split
    · dsimp only
      split
      · exact (s.mapCtx_keeps ..).trans (State.fault_keeps ..)
      · next t granted =>
        have marked := ((State.setMarks_keeps ..).bind fun t => State.grant_keeps t ..).at_ok t granted
        exact (s.mapCtx_keeps ..).trans marked |>.trans (State.mapCtx_keeps ..) |>.trans (State.updateCadence_keeps ..)
          |>.trans (.skip (State.takeSnapshot_keeps ..)) |>.trans (State.mapCtx_keeps ..) |>.trans (State.notify_keeps ..)
    · exact .refl s

theorem State.replay_keeps {s t : State} {id : Nat} (h : s.replay id = some t) : Keeps s t := by
  unfold State.replay at h
  split at h
  · cases h
  · split at h
    · split at h
      · cases h
      · dsimp only at h
        split at h
        · cases h
        · next u granted =>
          split at h
          · cases h
            refine Keeps.trans ?_ (((State.grant_keeps ..).at_ok u granted).trans (State.mapCtx_keeps ..))
            exact Keeps.foldl (fun _ _ => State.restoreSlot_keeps ..) _ s |>.trans (State.mapCtx_keeps ..)
              |>.trans (State.bringResidency_keeps ..)
          · cases h
    · cases h

theorem State.holdDegraded_keeps (s : State) (id detail step : Nat) : Keeps s (s.holdDegraded id detail step) :=
  (s.mapCtx_keeps ..).trans (State.notify_keeps ..)

theorem State.saturated_keeps (s : State) (id detail : Nat) : Keeps s (s.saturated id detail) :=
  (s.raise_keeps ..).trans (State.mapCtx_keeps ..)

theorem State.stepEnded_keeps (s : State) (id path : Nat) : Keeps s (s.stepEnded id path).1 := by
  unfold State.stepEnded
  split
  · exact .refl s
  · split
    · exact .refl s
    · split
      · exact State.boundary_keeps ..
      · refine (s.saturated_keeps id 1).trans ?_
        dsimp only
        split
        · exact State.boundary_keeps ..
        · exact State.holdDegraded_keeps ..
        · split
          · exact (State.saturated_keeps ..).trans (State.holdDegraded_keeps ..)
          · next t replayed =>
            split
            · exact State.fault_keeps ..
            · exact State.replay_keeps replayed

theorem State.runDone_keeps (s : State) (id detail step iters : Nat) : Keeps s (s.runDone id detail step iters) :=
  (s.mapCtx_keeps ..).trans (State.notify_keeps ..)

theorem State.loopNext_keeps (s : State) (id path : Nat) (run : StepRun) (arg : List Byte) :
    Keeps s (s.loopNext id path run arg) := by
  unfold State.loopNext
  split
  · exact .refl s
  · split
    · exact .refl s
    · exact State.fault_keeps ..
    · have started (m : Ctx → Ctx) (step : Nat) : Keeps s ((s.mapCtx id m).noGrant id step) :=
        (s.mapCtx_keeps ..).trans (State.noGrant_keeps ..)
      refine .skip (.ite (State.runDone_keeps ..) (.ite (State.runDone_keeps ..) (.ite ?_ ?_)))
      · exact (started _ _).trans (State.mapCtx_keeps ..)
      · exact (started _ _).trans (State.mapCtx_keeps ..)

end Sys2Proof.Machine
end

section
/-! PROOFS. What every operation keeps, continued: collectives, the link layer and what its flits bring. -/

namespace Sys2Proof.Machine

/-- An operation that a condition calls for, in front of another. -/
theorem KeepsOk.maybe {s : State} {x : Except Fail State} {g : State → Except Fail State} {p : Prop} [Decidable p]
    (h : KeepsOk s x) (k : ∀ t, KeepsOk t (g t)) : KeepsOk s (if p then x >>= g else Except.ok s >>= g) :=
  .ite (h.bind k) (k s)

/-! ## Collectives (R314 to R321) -/

theorem State.setColl_keeps (s : State) (r : InstrRef) (k : Option Coll) : Keeps s (s.setColl r k) := State.mapCtx_keeps ..

theorem State.mapColl_keeps (s : State) (r : InstrRef) (f : Coll → Coll) : Keeps s (s.mapColl r f) := State.mapCtx_keeps ..

theorem State.sendColl_keeps (s : State) (e : CollEnv) (rank : Nat) (data : List Byte) : Keeps s (s.sendColl e rank data) := by
  unfold State.sendColl
  split
  · exact .refl s
  · exact s.draw_keeps.trans (State.enqueue_keeps ..)

theorem State.sendOthers_keeps (s : State) (e : CollEnv) (data : List Byte) : Keeps s (s.sendOthers e data) :=
  .foldl (fun _ _ => State.sendColl_keeps ..) _ s

theorem State.writeOpt_keeps (s : State) (id off n v : Nat) : KeepsOk s (s.writeOpt id off n v) :=
  .ite (.ok (.refl s)) (State.wrNat_keeps ..)

theorem State.collFinish_keeps (s : State) (e : CollEnv) (r : InstrRef) (zero : Bool) :
    KeepsOk s (s.collFinish e r zero) := by
  have done (t : State) : KeepsOk t (.ok ((t.setColl r none).completeInstr r e.f)) :=
    .ok ((t.setColl_keeps r none).trans (State.completeInstr_keeps ..))
  unfold State.collFinish
  exact .maybe (State.writeOpt_keeps ..) fun t => .maybe (State.writeOpt_keeps ..) done

theorem State.writeRuns_keeps (s : State) (e : CollEnv) (lo : Nat) (vals : List Nat) : KeepsOk s (s.writeRuns e lo vals) :=
  .of_stores (State.writeCodes_stores ..)

theorem State.writeSlot_keeps (s : State) (e : CollEnv) (r : Nat) (elems scales : List Byte) :
    KeepsOk s (s.writeSlot e r elems scales) := (State.wrBytes_keeps ..).bind fun _ => State.wrBytes_keeps ..

theorem State.combineOwned_keeps (s : State) (e : CollEnv) (r : InstrRef) (k : Coll) :
    KeepsOk s (s.combineOwned e r k) := by
  unfold State.combineOwned
  dsimp only
  split
  · exact .ok (.refl s)
  · refine KeepsOk.after ?_ ((State.writeRuns_keeps ..).bind fun u => .ok ?_)
    · exact Keeps.trans (.skip (s.mapCtx_keeps ..)) (.skip ((State.raise_keeps ..).trans (State.mapColl_keeps ..)))
    · exact .ite ((u.mapColl_keeps ..).trans (State.sendOthers_keeps ..)) (u.mapColl_keeps ..)

theorem State.writeCounts_keeps (s : State) (e : CollEnv) (k : Coll) : KeepsOk s (s.writeCounts e k) :=
  State.wrBytes_keeps ..

theorem State.collAdvance_keeps (s : State) (e : CollEnv) (r : InstrRef) : KeepsOk s (s.collAdvance e r) := by
  unfold State.collAdvance
  split
  · exact .ok (.refl s)
  · refine .maybe (State.combineOwned_keeps ..) fun t => ?_
    dsimp only
    split
    · exact .ok (.refl t)
    · exact .ite (.maybe (State.writeCounts_keeps ..) fun _ => State.collFinish_keeps ..) (.ok (.refl t))

theorem State.stage_keeps (s : State) (e : CollEnv) (r : InstrRef) (rank : Nat) (data : List Byte) :
    KeepsOk s (s.stage e r rank data) := by
  unfold State.stage
  dsimp only
  split
  · exact (State.wrBytes_keeps ..).bind fun t => .ok (t.mapColl_keeps ..)
  · exact .ok (s.mapColl_keeps ..)

theorem State.collSends_keeps (s : State) (e : CollEnv) (r : InstrRef) : KeepsOk s (s.collSends e r) := by
  unfold State.collSends
  split
  · exact .read fun _ => .ok ((s.mapColl_keeps ..).trans (State.sendOthers_keeps ..))
  · exact .read fun _ => .read fun _ => (State.writeSlot_keeps ..).bind fun t =>
      .ok ((t.mapColl_keeps ..).trans (State.sendOthers_keeps ..))
  · refine .read fun _ => .read fun _ => .ite ?_ (.ok (State.sendColl_keeps ..))
    exact (State.writeSlot_keeps ..).bind fun t => .ok (t.mapColl_keeps ..)
  · refine .foldlM (fun t rank => ?_) _ s
    exact .ite (.ok (.refl t)) (.read fun _ => .ite (State.stage_keeps ..) (.ok (State.sendColl_keeps ..)))

theorem State.collBegin_keeps (s : State) (e : CollEnv) (r : InstrRef) (restart : Bool) :
    KeepsOk s (s.collBegin e r restart) := by
  have begun (t : State) (k : Coll) : Keeps t ((t.setColl r (some k)).setPhase r .executed) :=
    (t.setColl_keeps r _).trans (State.setPhase_keeps ..)
  unfold State.collBegin
  refine .ite (State.collFinish_keeps ..) (.ite (.ok ?_) ?_)
  · exact (s.raise_keeps ..).trans (State.mapCtx_keeps ..) |>.trans (State.notify_keeps ..)
  · refine KeepsOk.after ?_ (.read fun src => .after (begun _ _)
      ((State.collSends_keeps ..).bind fun _ => State.collAdvance_keeps ..))
    exact .when ((s.raise_keeps ..).trans (State.mapCtx_keeps ..))

theorem State.collFail_keeps (s : State) (e : CollEnv) (r : InstrRef) (x : Fail) : Keeps s (s.collFail e r x) :=
  s.undefView_keeps .. |>.trans (State.setColl_keeps ..) |>.trans (State.fault_keeps ..)

theorem State.collTry_keeps (s : State) (e : CollEnv) (r : InstrRef) {act : State → Except Fail State}
    (h : KeepsOk s (act s)) : Keeps s (s.collTry e r act) := by
  unfold State.collTry
  split
  · next t acted => exact h.at_ok t acted
  · exact State.collFail_keeps ..

theorem State.collTake_keeps (s : State) (e : CollEnv) (r : InstrRef) (m : CollMsg) : KeepsOk s (s.collTake e r m) := by
  have noted (f : Coll → Coll) (t : State) : KeepsOk t ((t.mapColl r f).collAdvance e r) :=
    .after (t.mapColl_keeps ..) (State.collAdvance_keeps ..)
  unfold State.collTake
  split
  · exact .ite ((State.stage_keeps ..).bind fun _ => State.collAdvance_keeps ..) (.ok (.refl s))
  · exact .ite ((State.writeRuns_keeps ..).bind (noted _)) (.ok (.refl s))
  · exact .ite (noted _ s) (.ok (.refl s))
  · exact .ite ((State.writeSlot_keeps ..).bind (noted _)) (.ok (.refl s))
  · refine .ite ((State.writeSlot_keeps ..).bind fun t => .after ?_ (State.collAdvance_keeps ..)) (.ok (.refl s))
    exact (t.mapColl_keeps ..).trans (State.sendColl_keeps ..)
  · exact .ite (noted _ s) (.ok (.refl s))

theorem State.collDeliver_keeps (s : State) (c : Ctx) (m : CollMsg) : Keeps s (s.collDeliver c m) := by
  unfold State.collDeliver
  dsimp only
  split
  · exact .when (s.mapCtx_keeps ..)
  · split
    · exact .refl s
    · split
      · exact .when (State.collTry_keeps s _ _ (State.collTake_keeps ..))
      · exact s.mapCtx_keeps ..
      · exact .refl s

theorem State.collEarly_keeps (s : State) (id : Nat) : Keeps s (s.collEarly id) := by
  unfold State.collEarly
  split
  · exact .refl s
  · refine (s.mapCtx_keeps ..).trans (.foldl (fun t m => ?_) _ _)
    split
    · exact State.collDeliver_keeps ..
    · exact .refl t

theorem State.startColl_keeps (s : State) (r : InstrRef) (op : Nat) : Keeps s (s.startColl r op) := by
  unfold State.startColl
  split
  · exact .refl s
  · refine .when ?_
    split
    · exact .refl s
    · exact (State.collTry_keeps s _ _ (State.collBegin_keeps ..)).trans (State.collEarly_keeps ..)

theorem State.collMaskChanged_keeps (s : State) (id : Nat) (old : BitVec 256) : Keeps s (s.collMaskChanged id old) := by
  unfold State.collMaskChanged
  split
  · exact .refl s
  · refine .foldl (fun t k => ?_) _ s
    dsimp only
    split
    · exact .refl t
    · exact .skip (State.collTry_keeps t _ _ (State.collBegin_keeps ..))

/-! ## The link layer (R298 to R306) -/

theorem State.purge_keeps (s : State) (p : Nat) : Keeps s (s.purge p) := State.mapPort_keeps ..

theorem State.sendAgain_keeps (s : State) (p seq : Nat) : Keeps s (s.sendAgain p seq) := by
  unfold State.sendAgain
  split
  · exact .refl s
  · exact .skip (.ite (State.portDown_keeps ..) ((s.raisePort_keeps ..).trans (State.mapPort_keeps ..)))

theorem State.restripe_keeps (s : State) (p lanes : Nat) : Keeps s (s.restripe p lanes) := by
  unfold State.restripe
  split
  · exact .refl s
  · exact .ite (State.portDown_keeps ..) (State.mapPort_keeps ..)

theorem State.countMalformed_keeps (s : State) (p : Nat) : Keeps s (s.countMalformed p) :=
  ((s.raisePort_keeps ..).trans (State.mapPort_keeps ..)).trans (.when (State.quarantine_keeps ..))

theorem State.returnCompletion_keeps (s : State) (p num : Nat) : Keeps s (s.returnCompletion p num) :=
  s.draw_keeps.trans (State.mapPort_keeps ..)

theorem State.openRx_keeps (s : State) (p num : Nat) (c : Ctx) (head : List Byte) : Keeps s (s.openRx p num c head) := by
  unfold State.openRx
  refine .ite ((s.countDrop_keeps _).trans (State.mapPort_keeps ..)) (.ite ?_ (State.mapPort_keeps ..))
  exact (s.fault_keeps ..).trans (State.mapPort_keeps ..)

/-- The data of a message is written as far as it reaches; then it is done, or more is awaited (R313). -/
theorem State.takeData_keeps (s : State) (p num : Nat) (data : List Byte) (last : Bool) :
    Keeps s (s.takeData p num data last) := by
  unfold State.takeData
  split
  · next m c b _ _ =>
    have dropped (gone : Bool) : Keeps s (if gone = true then s.countDrop c.id else s) := .when (s.countDrop_keeps _)
    dsimp only
    generalize taken : (if (m.bad || !m.bad && !c.receiving) = true then _ else _ : State × RxMsg) = q
    have written : Keeps s q.1 := by
      rw [← taken]
      split
      · exact dropped _
      · split
        · next t written => exact (dropped _).trans ((State.wrBytes_keeps ..).at_ok t written)
        · exact (dropped _).trans (State.fault_keeps ..)
    refine written.trans ?_
    split
    · refine .trans ?_ (State.returnCompletion_keeps ..)
      split
      · exact State.mapPort_keeps ..
      · exact (State.mapPort_keeps ..).trans (State.signal_keeps ..)
    · exact State.mapPort_keeps ..
  · exact .refl s

theorem State.deliver_keeps (s : State) (p : Nat) (f : Flit) (data : List Byte) : Keeps s (s.deliver p f data) := by
  unfold State.deliver
  split
  · exact State.sendAgain_keeps ..
  · split
    · exact (State.openRx_keeps ..).trans (State.takeData_keeps ..)
    · exact .refl s
  · exact State.takeData_keeps ..
  · exact .refl s

theorem State.askRetry_keeps (s : State) (p : Nat) : Keeps s (s.askRetry p) := State.mapPort_keeps ..

theorem State.takeFlit_keeps (s : State) (p : Nat) (port : Port) (f : Flit) : Keeps s (s.takeFlit p port f) := by
  unfold State.takeFlit
  refine .ite ((s.raisePort_keeps ..).trans (State.mapPort_keeps ..)) (.ite (State.askRetry_keeps ..) ?_)
  split
  · exact State.askRetry_keeps ..
  · exact .ite ((s.mapPort_keeps ..).trans (State.countMalformed_keeps ..))
      ((s.mapPort_keeps ..).trans (State.deliver_keeps ..))

/-! ## Training and authentication (R300, R301, R306, R309) -/

theorem State.sendHello_keeps (s : State) (p : Nat) : Keeps s (s.sendHello p) := by
  have drawn (f : Port → Port) : Keeps s (s.draw.2.draw.2.mapPort p f) :=
    (s.draw_keeps.trans (State.draw_keeps _)).trans (State.mapPort_keeps ..)
  unfold State.sendHello
  dsimp only [State.draw]
  split
  · exact drawn _
  · exact ((drawn _).trans (State.mapPort_keeps ..)).trans (.foldl (fun _ _ => State.enqueue_keeps ..) _ _)

theorem State.sendProof_keeps (s : State) (p : Nat) (port : Port) (h : LinkHello) : Keeps s (s.sendProof p port h) := by
  unfold State.sendProof
  exact s.draw_keeps.trans (State.mapPort_keeps ..) |>.trans (State.enqueue_keeps ..)

theorem State.selfTested_keeps (s : State) (p : Nat) (passed : Bool) : Keeps s (s.selfTested p passed) := by
  unfold State.selfTested
  split
  · exact .refl s
  · exact .ite (State.mapPort_keeps ..) (.ite (State.retirePort_keeps ..) (State.mapPort_keeps ..))

theorem State.authFailed_keeps (s : State) (p detail : Nat) : Keeps s (s.authFailed p detail) :=
  (s.raisePort_keeps ..).trans (State.portDown_keeps ..)

theorem State.linkUp_keeps (s : State) (p : Nat) (h : LinkHello) : Keeps s (s.linkUp p h) :=
  ((s.mapPort_keeps ..).trans (State.raisePort_keeps ..)).trans (State.sendTable_keeps ..)

end Sys2Proof.Machine
end

section
/-! PROOFS. What every row keeps: the lanes, the schedulers, the commons, copies, links and collectives. -/

namespace Sys2Proof.Machine

/-! ## Lanes and schedulers -/

theorem execLaneIssue_keeps (r : InstrRef) (s : State) : KeepsOut s (execLaneIssue r s) := by
  unfold execLaneIssue
  refine .after (s.decideEntry_keeps r) ?_
  dsimp only
  split
  · exact .refl _
  · split
    · exact .refl _
    · exact .ite (.after (State.wake_keeps ..) (.when (State.issue_keeps ..))) (.refl _)

theorem execInstructionComplete_keeps (r : InstrRef) (s : State) : KeepsOut s (execInstructionComplete r s) := by
  have retired (f : Found) : Keeps s ((s.unitsRetire f).completeInstr r f) :=
    (s.unitsRetire_keeps f).trans (State.completeInstr_keeps ..)
  unfold execInstructionComplete
  split
  · exact .refl s
  · dsimp only
    split
    · exact .when (State.completeInstr_keeps ..)
    · exact .when (State.completeInstr_keeps ..)
    · exact .when (retired _)
    · exact .when (retired _)
    · exact .refl s

theorem State.doRegWrite_keeps (f : Found) (s : State) : Keeps s (s.doRegWrite f) := State.mapCtx_keeps ..

theorem execSieveCommit_keeps (r : InstrRef) (s : State) : KeepsOut s (execSieveCommit r s) := by
  refine .next (State.control_keeps s r _ fun f t => ?_)
  split
  · exact .of_stores (State.commitAll_stores ..)
  · exact .ok (.refl t)

theorem execWaitTimeout_keeps (r : InstrRef) (s : State) : KeepsOut s (execWaitTimeout r s) := by
  unfold execWaitTimeout
  split
  · exact .refl s
  · split
    · split
      · exact .next (State.waitExpired_keeps ..)
      · exact .refl s
    · refine .after (s.advanceTo_keeps _) (.ite (.next ((Keeps.of_eq (by rfl) (by rfl)).trans (State.fault_keeps ..))) (.next ?_))
      exact (State.waitExpired_keeps ..).trans (State.mapCtx_keeps ..) |>.trans (State.notify_keeps ..)

theorem execUpdateStall_keeps (r : InstrRef) (s : State) : KeepsOut s (execUpdateStall r s) := by
  unfold execUpdateStall
  split
  · exact .refl s
  · split
    · have counted (due missing path : Nat) (m : Placed → Placed) (k : Ctx → Ctx) :
          Keeps s ((((s.advanceTo due).raise 0x4101 missing path r.ctx).mapPlaced r m).mapCtx r.ctx k) :=
        (s.advanceTo_keeps due).trans (State.raise_keeps ..) |>.trans (State.mapPlaced_keeps ..)
          |>.trans (State.mapCtx_keeps ..)
      refine .ite ?_ (.refl s)
      dsimp only
      split
      · exact .next (counted ..)
      · split
        · next t written =>
          exact .next ((counted ..).trans ((KeepsOk.read fun _ => State.wrNat_keeps ..).at_ok t written))
        · exact .next ((counted ..).trans (State.fault_keeps ..))
    · exact .refl s

theorem execStepEnd_keeps (r : InstrRef) (s : State) : KeepsOut s (execStepEnd r s) := by
  unfold execStepEnd
  split
  · exact .refl s
  · exact .ite (.after (State.completeInstr_keeps ..) (.when (State.stepEnded_keeps ..))) (.refl s)

theorem execLoopEnd_keeps (r : InstrRef) (s : State) : KeepsOut s (execLoopEnd r s) := by
  unfold execLoopEnd
  split
  · exact .refl s
  · refine .ite (.after (State.completeInstr_keeps ..) (.ite (.after (State.stepEnded_keeps ..) (.ite ?_ (.refl _))) (.refl _)))
      (.refl s)
    exact .next (State.loopNext_keeps ..)

theorem execInstructionAccept_keeps (g : Nat) (r : InstrRef) (sameCycle : Bool) (s : State) :
    KeepsOut s (execInstructionAccept g r sameCycle s) := by
  unfold execInstructionAccept
  refine .after (s.decideEntry_keeps r) ?_
  dsimp only
  split
  · exact .refl _
  · refine .ite (.after (State.enable_keeps ..) (.skip ?_)) (.refl _)
    exact (State.meetKeys_keeps ..).trans (State.setSched_keeps ..) |>.trans (State.mapCtx_keeps ..)
      |>.trans (State.mapPlaced_keeps ..)

theorem execItemEnterWindow_keeps (g : Nat) (backward : Bool) (s : State) : KeepsOut s (execItemEnterWindow g backward s) := by
  unfold execItemEnterWindow
  split
  · exact .refl s
  · split
    · exact .refl s
    · dsimp only
      split
      · exact .when (State.setSched_keeps ..)
      · split
        · exact .next (State.fault_keeps ..)
        · exact .next ((State.setSched_keeps ..).trans (State.mapPlaced_keeps ..))
        · exact .when ((State.setSched_keeps ..).trans (State.mapPlaced_keeps ..))

theorem execItemIssue_keeps (g a : Nat) (s : State) : KeepsOut s (execItemIssue g a s) := by
  unfold execItemIssue
  refine .ite (.refl s) ?_
  split
  · exact .refl s
  · exact .after (s.enable_keeps g) (.skip (State.setSched_keeps ..))

theorem execItemComplete_keeps (g a : Nat) (s : State) : KeepsOut s (execItemComplete g a s) :=
  .when ((s.setSched_keeps g _).trans (State.engineRetires_keeps ..))

/-! ## The commons and copies -/

theorem execPromote_keeps (r : InstrRef) (s : State) : KeepsOut s (execPromote r s) := by
  unfold execPromote
  split
  · exact .when ((s.setPhase_keeps ..).trans (State.promote_keeps ..))
  · exact .refl s

theorem execEvict_keeps (r : InstrRef) (s : State) : KeepsOut s (execEvict r s) := by
  unfold execEvict
  split
  · refine .ite (.ite (.next ?_) (.next (State.fault_keeps ..))) (.refl s)
    exact (State.dropResidency_keeps ..).trans (State.completeInstr_keeps ..)
  · exact .refl s

theorem execSealObject_keeps (r : InstrRef) (s : State) : KeepsOut s (execSealObject r s) := by
  unfold execSealObject
  split
  · refine .ite ?_ (.refl s)
    dsimp only
    split
    · exact .next (State.fault_keeps ..)
    · refine .ite (.next (State.fault_keeps ..)) (.ite (.next (State.completeInstr_keeps ..)) (.next ?_))
      exact (Keeps.of_eq (by rfl) (by rfl)).trans (State.completeInstr_keeps ..)
  · exact .refl s

theorem execCommonsDrainDone_keeps (obj : Nat) (s : State) : KeepsOut s (execCommonsDrainDone obj s) := by
  unfold execCommonsDrainDone
  split
  · exact .when ((s.mapObject_keeps ..).trans (State.serveQueue_keeps _))
  · exact .refl s

theorem execCopyComplete_keeps (r : InstrRef) (s : State) : KeepsOut s (execCopyComplete r s) := by
  unfold execCopyComplete
  split
  · exact .when ((s.copyRetires_keeps ..).trans (State.completeInstr_keeps ..))
  · exact .refl s

theorem execCopyPort_keeps (r : InstrRef) (s : State) : KeepsOut s (execCopyPort r s) := by
  unfold execCopyPort
  split
  · exact .refl s
  · refine .ite (.refl s) (.ite (.next (State.copyEnded_keeps ..)) ?_)
    split
    · exact .refl s
    · refine .ite (.refl s) ?_
      split
      · exact .next (State.fault_keeps ..)
      · exact .next ((State.enqueue_keeps ..).trans (State.setPhase_keeps ..))

theorem execPortCopyCompletion_keeps (r : InstrRef) (how : CopyEnd) (s : State) :
    KeepsOut s (execPortCopyCompletion r how s) := by
  unfold execPortCopyCompletion
  split
  · exact .refl s
  · refine .ite ?_ (.refl s)
    split
    · exact .next ((s.copyRetires_keeps ..).trans (State.completeInstr_keeps ..))
    · exact .next (State.copyEnded_keeps ..)
    · exact .next (State.fault_keeps ..)

/-! ## Links -/

theorem execFlitSend_keeps (p : Nat) (s : State) : KeepsOut s (execFlitSend p s) := by
  unfold execFlitSend
  refine .after (s.purge_keeps p) ?_
  dsimp only
  split
  · exact .refl _
  · refine .ite (.refl _) ?_
    split
    · exact .next (State.mapPort_keeps ..)
    · refine .ite (.refl _) (.ite (.next (State.mapPort_keeps ..)) ?_)
      split
      · exact .next (State.mapPort_keeps ..)
      · split
        · exact .refl _
        · exact .next (State.mapPort_keeps ..)

theorem execAckTimeout_keeps (p : Nat) (s : State) : KeepsOut s (execAckTimeout p s) := by
  unfold execAckTimeout
  split
  · exact .refl s
  · split
    · exact .refl s
    · exact .after (s.advanceTo_keeps _) (.next ((State.sendAgain_keeps ..).trans (State.mapPort_keeps ..)))

theorem execFlitReceive_keeps (p : Nat) (bytes : List Byte) (clean : Bool) (s : State) :
    KeepsOut s (execFlitReceive p bytes clean s) := by
  unfold execFlitReceive
  split
  · exact .refl s
  · exact .ite (.refl s) (.ite (.next (State.takeFlit_keeps ..)) (.next (State.askRetry_keeps ..)))

theorem execLinkDown_keeps (p : Nat) (s : State) : KeepsOut s (execLinkDown p s) := by
  unfold execLinkDown
  split
  · exact .when (State.portDown_keeps ..)
  · exact .refl s

theorem execLaneLockLoss_keeps (p lanes : Nat) (s : State) : KeepsOut s (execLaneLockLoss p lanes s) := by
  unfold execLaneLockLoss
  split
  · exact .when (State.portDown_keeps ..)
  · exact .refl s

theorem execPeerSlow_keeps (p vc : Nat) (s : State) : KeepsOut s (execPeerSlow p vc s) := by
  unfold execPeerSlow
  split
  · refine .when ?_
    exact (s.advanceTo_keeps _).trans (State.raisePort_keeps ..) |>.trans (State.mapPort_keeps ..)
  · exact .refl s

theorem execLaneErrorInterval_keeps (p : Nat) (errs : List LaneErrors) (s : State) :
    KeepsOut s (execLaneErrorInterval p errs s) := by
  unfold execLaneErrorInterval
  split
  · exact .refl s
  · refine .ite (.refl s) (.ite (.next (State.portDown_keeps ..)) (.next ?_))
    exact Keeps.foldl (fun _ _ => State.raisePort_keeps ..) _ s |>.trans (State.mapPort_keeps ..)
      |>.trans (State.restripe_keeps ..)

theorem execLaneWidthChangeDone_keeps (w : WidthChange) (s : State) : KeepsOut s (execLaneWidthChangeDone w s) := by
  unfold execLaneWidthChangeDone
  split
  · exact .refl s
  · refine .ite (.refl s) (.ite (.next (State.portDown_keeps ..)) (.next ?_))
    exact Keeps.trans (.skip (s.restripe_keeps ..)) (State.mapPort_keeps ..)

theorem execPortBurstHeard_keeps (p : Nat) (s : State) : KeepsOut s (execPortBurstHeard p s) := .skip (State.mapPort_keeps ..)

theorem execPortTrainDone_keeps (p : Nat) (selfTest : Bool) (lanes : Nat) (s : State) :
    KeepsOut s (execPortTrainDone p selfTest lanes s) := by
  unfold execPortTrainDone
  split
  · exact .refl s
  · refine .ite (.refl s) (.ite (.next ?_) (.ite (.next ?_) (.next (State.mapPort_keeps ..))))
    · exact (s.mapPort_keeps ..).trans (State.selfTested_keeps ..)
    · exact (s.mapPort_keeps ..).trans (State.sendHello_keeps ..)

theorem State.proveIfAble_keeps (s : State) (p : Nat) (port : Port) (h : LinkHello) :
    Keeps s (if s.maySign then s.sendProof p port h else s) := .when (State.sendProof_keeps ..)

theorem execPortAuthDone_keeps (p : Nat) (h : LinkHello) (s : State) : KeepsOut s (execPortAuthDone p h s) := by
  unfold execPortAuthDone
  split
  · exact .refl s
  · next port _ =>
    refine .ite (.refl s) (.after (s.proveIfAble_keeps p port h) ?_)
    generalize (if s.maySign = true then s.sendProof p port h else s) = t
    dsimp only
    split
    · exact .next (State.authFailed_keeps ..)
    · exact .next (State.linkUp_keeps ..)

theorem execPeerAuthTimeout_keeps (p : Nat) (s : State) : KeepsOut s (execPeerAuthTimeout p s) := by
  unfold execPeerAuthTimeout
  split
  · exact .when (State.authFailed_keeps ..)
  · exact .refl s

theorem execQuarantineExpiry_keeps (p : Nat) (s : State) : KeepsOut s (execQuarantineExpiry p s) := by
  unfold execQuarantineExpiry
  split
  · exact .when ((s.advanceTo_keeps _).trans (State.mapPort_keeps ..))
  · exact .refl s

theorem execLinkKeyUpdate_keeps (x : PortHello) (s : State) : KeepsOut s (execLinkKeyUpdate x s) := by
  unfold execLinkKeyUpdate
  split
  · refine .ite ?_ (.refl s)
    dsimp only
    generalize hello : State.sendHello _ x.port = t
    have greeted : Keeps s t := hello ▸ Keeps.trans (.skip (s.advanceTo_keeps _)) (State.sendHello_keeps ..)
    refine .after greeted ?_
    split
    · exact .refl t
    · next port _ =>
      refine .after (t.proveIfAble_keeps x.port port x.hello) ?_
      generalize (if t.maySign = true then t.sendProof x.port port x.hello else t) = u
      split
      · exact .next (State.authFailed_keeps ..)
      · exact .next (State.mapPort_keeps ..)
  · exact .refl s

/-! ## Collectives -/

theorem execCollMessageReceive_keeps (p num : Nat) (m : CollMsg) (s : State) :
    KeepsOut s (execCollMessageReceive p num m s) := by
  unfold execCollMessageReceive
  split
  · exact .refl s
  · exact .ite (.next (State.collDeliver_keeps ..)) (.next (State.countDrop_keeps ..))

theorem execCollTimeout_keeps (r : InstrRef) (s : State) : KeepsOut s (execCollTimeout r s) := by
  unfold execCollTimeout
  split
  · exact .refl s
  · split
    · refine .when ?_
      exact (s.advanceTo_keeps _).trans (State.raise_keeps ..) |>.trans (State.mapCtx_keeps ..)
        |>.trans (State.notify_keeps ..)
    · exact .refl s

end Sys2Proof.Machine
end

section
/-! PROOFS. What every row keeps: sessions, contexts, reservations, commons grants and bulk data. -/

namespace Sys2Proof.Machine

/-! ## Answers -/

theorem State.ok_keeps (s : State) (id : Nat) (sl : Slot) : Keeps s (s.ok id sl) := State.answer_keeps ..

theorem State.invalid_keeps (s : State) (id : Nat) (sl : Slot) (detail : Nat) : Keeps s (s.invalid id sl detail) :=
  State.refuse_keeps ..

theorem State.badState_keeps (s : State) (id : Nat) (sl : Slot) (c : Ctx) (reason : Nat) :
    Keeps s (s.badState id sl c reason) := State.refuse_keeps ..

theorem State.setBusy_keeps (s : State) (id : Nat) (b : Busy) (sl : Slot) : Keeps s (s.setBusy id b sl) := .of_eq rfl rfl

theorem State.deferCmd_keeps (s : State) (c : Instr) : Keeps s (s.deferCmd c) := .of_eq rfl rfl

theorem State.answerReserves_keeps (s : State) : Keeps s s.answerReserves := State.answerBusy_keeps ..

/-! ## Connections and slots -/

theorem execClientConnect_keeps (conn front : Nat) (cert : CertVerdict) (s : State) :
    KeepsOut s (execClientConnect conn front cert s) := by
  unfold execClientConnect
  refine .ite (.refl s) ?_
  split
  · exact .next (State.raise_keeps ..)
  · exact .next (.of_eq rfl rfl)

theorem execCommandSlotRelease_keeps (conn : Nat) (head : FrameHead) (r : SlotRelease) (s : State) :
    KeepsOut s (execCommandSlotRelease conn head r s) := by
  unfold execCommandSlotRelease
  split
  · exact .refl s
  · exact .ite (.next (State.mapSession_keeps ..)) (.next (State.protocolError_keeps ..))

theorem execEventSlotRelease_keeps (conn : Nat) (head : FrameHead) (r : SlotRelease) (s : State) :
    KeepsOut s (execEventSlotRelease conn head r s) := by
  unfold execEventSlotRelease
  split
  · exact .refl s
  · exact .ite (.next (State.mapSession_keeps ..)) (.next (State.protocolError_keeps ..))

theorem execEventDeliver_keeps (session : Nat) (s : State) : KeepsOut s (execEventDeliver session s) := by
  unfold execEventDeliver
  split
  · exact .refl s
  · split
    · exact .ite (.refl s) (.next (.ite (.of_eq rfl rfl) (.of_eq rfl rfl)))
    · exact .refl s

theorem State.claim_keeps (s : State) (id : Nat) (c : Ctx) : Keeps s (s.claim id c) := by
  unfold State.claim
  dsimp only
  refine Keeps.trans (.trans (.trans ?_ (.foldl (fun _ _ => State.notifySession_keeps ..) _ _))
    (State.mapSession_keeps ..)) (State.mapCtx_keeps ..)
  split
  · exact s.mapSession_keeps ..
  · exact .refl s

theorem State.hello_keeps (sl : Slot) (se : Session) (s : State) : Keeps s (State.hello sl se s) := by
  unfold State.hello
  refine .ite (State.invalid_keeps ..) (.ite (State.invalid_keeps ..) ?_)
  refine Keeps.trans (.trans ?_ (.foldl (fun _ _ => State.claim_keeps ..) _ _)) (State.answer_keeps ..)
  split
  · exact (s.mapSession_keeps ..).trans (.when (State.notifySession_keeps ..))
  · exact s.mapSession_keeps ..

theorem State.makeContext_keeps (sl : Slot) (se : Session) (s : State) : Keeps s (State.makeContext sl se s) := by
  unfold State.makeContext
  refine .ite (State.refuse_keeps ..) (.ite (State.invalid_keeps ..) (.ite (State.invalid_keeps ..) ?_))
  split
  · exact State.refuse_keeps ..
  · exact (s.mapCtxs_keeps _).trans (State.answer_keeps ..)

/-! ## Reservations and releases (R345, R346) -/

theorem State.returnPorts_keeps (s : State) (ports : List Nat) : Keeps s (s.returnPorts ports) :=
  .foldl (fun _ _ => State.mapPort_keeps ..) _ s

theorem State.grantReserve_keeps (s : State) (sl : Slot) (se : Session) (c : Ctx) (q : Request) (mine : Resv)
    (bs : List Binding) : Keeps s (s.grantReserve sl se c q mine bs) := by
  unfold State.grantReserve
  exact (s.mapCtx_keeps ..).trans (State.returnPorts_keeps ..) |>.trans (State.sendTables_keeps ..)
    |>.trans (State.setBusy_keeps ..) |>.trans (State.answerReserves_keeps _)

theorem State.reserve_keeps (sl : Slot) (se : Session) (s : State) : Keeps s (State.reserve sl se s) := by
  unfold State.reserve
  split
  · exact .refl s
  · refine .ite (State.invalid_keeps ..) (.ite (State.invalid_keeps ..) (.ite ?_ ?_))
    · exact (s.mapSession_keeps ..).trans (State.deferCmd_keeps ..)
    · split
      · exact State.refuse_keeps ..
      · exact State.refuse_keeps ..
      · exact State.grantReserve_keeps ..

theorem State.unsend_keeps (s : State) (c : Ctx) : Keeps s (s.unsend c) := .foldl (fun _ _ => State.mapPort_keeps ..) _ s

theorem State.dropPart_keeps (s : State) (c : Ctx) (b : Binding) : Keeps s (s.dropPart c b) := by
  unfold State.dropPart
  split
  · exact .refl s
  · exact (s.countDrop_keeps _).trans (State.mapPort_keeps ..)

theorem State.dropParts_keeps (s : State) (c : Ctx) : Keeps s (s.dropParts c) := .foldl (fun _ _ => State.dropPart_keeps ..) _ s

theorem State.unbind_keeps (s : State) (c : Ctx) : Keeps s (s.unbind c) :=
  (s.unsend_keeps c).trans (.foldl (fun _ _ => State.mapPort_keeps ..) _ _)

theorem State.finishRelease_keeps (s : State) (id : Nat) : Keeps s (s.finishRelease id) := by
  unfold State.finishRelease
  split
  · exact .refl s
  · next c _ =>
    have freed := s.discardWork_keeps id |>.trans (State.cancelHandles_keeps _ id)
      |>.trans (State.bringResidency_keeps _ id []) |>.trans (State.unbind_keeps _ c)
    exact Keeps.trans (Keeps.trans (freed.set (by rfl) (by rfl)) (.when (State.raise_keeps ..))) (State.sendTables_keeps ..)
      |>.trans (State.answerBusy_keeps ..)

/-! ## Attachments and grants of commons (R347, R348) -/

theorem State.attach_keeps (sl : Slot) (se : Session) (s : State) : Keeps s (State.attach sl se s) := by
  unfold State.attach
  split
  · exact .refl s
  · split
    · exact State.invalid_keeps ..
    · exact State.invalid_keeps ..
    · refine .ite (State.ok_keeps ..) (.ite ?_ (State.refuse_keeps ..))
      exact (s.mapCtx_keeps ..).trans (State.ok_keeps ..)

theorem State.changeGrant_keeps (sl : Slot) (f : List (BitVec 128) → List (BitVec 128)) (se : Session) (s : State) :
    Keeps s (State.changeGrant sl f se s) := by
  unfold State.changeGrant
  split
  · exact State.invalid_keeps ..
  · exact State.invalid_keeps ..
  · exact .ite (State.refuse_keeps ..) ((s.mapObject_keeps ..).trans (State.ok_keeps ..))

theorem State.detach_keeps (sl : Slot) (se : Session) (s : State) : Keeps s (State.detach sl se s) := by
  unfold State.detach
  split
  · exact .refl s
  · split
    · exact State.invalid_keeps ..
    · refine .ite ?_ (State.ok_keeps ..)
      exact Keeps.trans (.trans (.when (s.dropResidency_keeps ..)) (State.mapCtx_keeps ..)) (State.ok_keeps ..)

/-! ## Bulk data (R361 to R363) -/

theorem State.openHandle_keeps (s : State) (se : Session) (h : Handle) : Keeps s (s.openHandle se h).1 := .of_eq rfl rfl

theorem State.openIn_keeps (sl : Slot) (se : Session) (s : State) : Keeps s (State.openIn sl se s) := by
  unfold State.openIn
  split
  · exact .refl s
  · split
    · exact State.refuse_keeps ..
    · exact (s.openHandle_keeps ..).trans (State.answer_keeps ..)

theorem State.openOut_keeps (sl : Slot) (se : Session) (s : State) : Keeps s (State.openOut sl se s) := by
  unfold State.openOut
  split
  · exact .refl s
  · split
    · exact State.refuse_keeps ..
    · split
      · exact State.refuse_keeps ..
      · refine Keeps.trans ?_ (State.answer_keeps ..)
        exact .of_eq rfl rfl

theorem State.dropHandle_keeps (s : State) (se : Session) (id : Nat) : Keeps s (s.dropHandle se id) := .of_eq rfl rfl

theorem State.closeIn_keeps (s : State) (sl : Slot) (se : Session) (c : Ctx) (h : Handle) :
    Keeps s (s.closeIn sl se c h) := by
  unfold State.closeIn
  refine .ite (State.invalid_keeps ..) ((s.dropHandle_keeps se h.id).trans ?_)
  dsimp only
  split
  · exact State.refuse_keeps ..
  · refine .ite (Keeps.trans (.when (State.signal_keeps ..)) (State.ok_keeps ..)) ?_
    exact (State.undefHandle_keeps ..).trans (State.refuse_keeps ..)

theorem State.closeBulk_keeps (sl : Slot) (se : Session) (s : State) : Keeps s (State.closeBulk sl se s) := by
  unfold State.closeBulk
  split
  · exact .refl s
  · refine .ite (State.invalid_keeps ..) (.ite (State.invalid_keeps ..) ?_)
    split
    · exact State.invalid_keeps ..
    · exact .ite (State.closeIn_keeps ..) ((s.dropHandle_keeps ..).trans (State.answer_keeps ..))

theorem State.pokeArea_keeps (s : State) (c : Ctx) (start : Nat) (data : List Byte) : Keeps s (s.pokeArea c start data) := by
  have put (t : State) (off : Nat) (bs : List Byte) : Keeps t (match c.areaAddr off with
      | some a => if bs.isEmpty then t else t.pokes a bs
      | none => t) := by
    split
    · exact .skip (State.pokes_keeps ..)
    · exact .refl t
  exact (put s _ _).trans (put _ _ _)

theorem execBulkFrame_keeps (conn : Nat) (head : FrameHead) (b : BulkHead) (data : List Byte) (s : State) :
    KeepsOut s (execBulkFrame conn head b data s) := by
  unfold execBulkFrame
  refine .ite (.refl s) ?_
  split
  · exact .when (State.protocolError_keeps ..)
  · refine .ite (.next (State.protocolError_keeps ..)) (.ite (.next (State.pokeArea_keeps ..)) ?_)
    split
    · next t written => exact .next ((State.wrBytes_keeps ..).at_ok t written)
    · exact .refl s

end Sys2Proof.Machine
end

section
/-! PROOFS. What every row keeps: plans, records, runs and holds, snapshots and queries. -/

namespace Sys2Proof.Machine

/-! ## LOAD_PLAN and RESTORE (R250, R253, R356) -/

theorem State.initHistory_keeps (s : State) (id : Nat) (t : Tensor) : Keeps s (s.initHistory id t) := by
  unfold State.initHistory
  split
  · exact .refl s
  · split
    · exact .refl s
    · dsimp only
      split
      · next u written => exact ((State.wrPage_keeps ..).bind fun _ => State.wrBytes_keeps ..).at_ok u written
      · exact .refl s

theorem State.historyAbsent_keeps (s : State) (id n : Nat) : Keeps s (s.historyAbsent id n) := .skip (State.raise_keeps ..)

theorem State.installPlan_keeps (s : State) (id : Nat) (p : Plan) : Keeps s (s.installPlan id p) :=
  (s.dropGrant_keeps id).trans (State.mapCtx_keeps ..)

theorem State.acceptPlan_keeps (s : State) (id : Nat) (p : Plan) : Keeps s (s.acceptPlan id p) := by
  unfold State.acceptPlan
  split
  · exact .refl s
  · exact (s.installPlan_keeps id p).trans (.foldl (fun _ _ => State.initHistory_keeps ..) _ _)
      |>.trans (State.mapCtx_keeps ..) |>.trans (State.historyAbsent_keeps ..)

theorem State.loadPlan_keeps (sl : Slot) (se : Session) (s : State) : Keeps s (State.loadPlan sl se s) := by
  unfold State.loadPlan
  split
  · exact .refl s
  · refine .ite (State.invalid_keeps ..) (.ite (State.invalid_keeps ..) ?_)
    split
    · exact State.refuseWith_keeps ..
    · exact (s.acceptPlan_keeps ..).trans (State.ok_keeps ..)

theorem State.slotsBack_keeps (s : State) (c : Ctx) (slots : List Nat) : Keeps s (s.slotsBack c slots) :=
  .foldl (fun _ _ => State.restoreSlot_keeps ..) _ s

theorem State.takeImage_keeps (s : State) (id at_ : Nat) (img : ImageRec) (p : Plan) :
    Keeps s (s.takeImage id at_ img p) := by
  unfold State.takeImage
  split
  · exact .refl s
  · exact s.dropGrant_keeps id |>.trans (State.slotsBack_keeps ..) |>.trans (State.mapCtx_keeps ..)
      |>.trans (State.installPlan_keeps ..) |>.trans (State.mapCtx_keeps ..)
      |>.trans (.foldl (fun _ _ => State.initHistory_keeps ..) _ _) |>.trans (State.applyRecord_keeps ..)
      |>.trans (State.mapCtx_keeps ..) |>.trans (State.historyAbsent_keeps ..)

theorem State.restore_keeps (sl : Slot) (se : Session) (s : State) : Keeps s (State.restore sl se s) := by
  unfold State.restore
  split
  · exact .refl s
  · next c _ =>
    refine .ite (State.invalid_keeps ..) (.ite (State.invalid_keeps ..) ?_)
    have dropped (m : Ctx → Ctx) : Keeps s (if c.phase = .held then (s.discardWork c.id).mapCtx c.id m else s) :=
      .when ((s.discardWork_keeps _).trans (State.mapCtx_keeps ..))
    refine (dropped fun c => { c with steps := [], heldDegraded := false }).trans ?_
    generalize (if c.phase = .held then _ else s : State) = t
    dsimp only
    split
    · exact State.refuse_keeps ..
    · exact (t.takeImage_keeps ..).trans (State.ok_keeps ..)

/-! ## RUN_STEP, HOLD and RESUME (R350 to R353) -/

theorem State.placeStep_keeps (s : State) (id : Nat) (p : Plan) (step tag maxTokens : Nat) :
    Keeps s (s.placeStep id p step tag maxTokens) := by
  unfold State.placeStep
  split
  · exact .refl s
  · exact Keeps.trans (.when (s.noGrant_keeps ..)) (State.mapCtx_keeps ..)

theorem State.runStep_keeps (sl : Slot) (se : Session) (s : State) : Keeps s (State.runStep sl se s) := by
  unfold State.runStep
  split
  · exact .refl s
  · split
    · exact .refl s
    · refine .ite (State.invalid_keeps ..) (.ite (State.invalid_keeps ..) (.ite (State.refuse_keeps ..)
        (.ite (State.badState_keeps ..) (.ite ?_ ?_))))
      · exact (s.ok_keeps ..).trans (State.notify_keeps ..)
      · exact (s.placeStep_keeps ..).trans (State.ok_keeps ..)

theorem State.holdCmd_keeps (sl : Slot) (se : Session) (s : State) : Keeps s (State.holdCmd sl se s) := by
  unfold State.holdCmd
  split
  · exact .refl s
  · refine .ite (State.invalid_keeps ..) (.ite (State.invalid_keeps ..) (.ite (State.ok_keeps ..) ?_))
    exact (s.mapCtx_keeps ..).trans (State.setBusy_keeps ..)

theorem State.answerHold_keeps (s : State) (id status detail : Nat) : Keeps s (s.answerHold id status detail) :=
  State.answerBusy_keeps ..

theorem execHoldComplete_keeps (id : Nat) (s : State) : KeepsOut s (execHoldComplete id s) := by
  unfold execHoldComplete
  split
  · exact .refl s
  · exact .ite (.next (State.answerHold_keeps ..)) (.when ((s.mapCtx_keeps ..).trans (State.answerHold_keeps ..)))

theorem State.dropInstr_keeps (s : State) (r : InstrRef) : Keeps s (s.dropInstr r) := .of_eq rfl rfl

theorem State.discardRanges_keeps (s : State) (c : Ctx) (l : List (Nat × Nat)) : Keeps s (s.discardRanges c l) := by
  refine .foldl (fun t r => ?_) _ s
  exact (t.dropInstr_keeps r).trans (State.setPhase_keeps ..) |>.trans (State.signalAll_keeps ..)

theorem State.resumeBoundary_keeps (s : State) (id : Nat) : Keeps s (s.resumeBoundary id) := by
  unfold State.resumeBoundary
  split
  · exact .refl s
  · split
    · exact (s.boundary_keeps ..).trans (.when (State.loopNext_keeps ..))
    · exact .refl s

theorem State.newMask_keeps (s : State) (id : Nat) (mask : BitVec 256) : Keeps s (s.newMask id mask) := by
  unfold State.newMask
  split
  · exact .refl s
  · exact (s.mapCtx_keeps ..).trans (State.collMaskChanged_keeps ..)

theorem State.resumed_keeps (s : State) (sl : Slot) (c : Ctx) : Keeps s (s.resumed sl c) := by
  have masked (t : State) (mask : BitVec 256) : Keeps t (if bitOf (sl.w 5) 1 then t.newMask c.id mask else t) :=
    .when (t.newMask_keeps ..)
  have discarded (t : State) : Keeps t (if bitOf (sl.w 5) 2 then
      match t.ctx? c.id with
      | some c => t.discardRanges c (resumeRanges sl.payload)
      | none => t
    else t) := by
    refine .when ?_
    split
    · exact State.discardRanges_keeps ..
    · exact .refl t
  have paid (t : State) (m : Ctx → Ctx) : Keeps t (if c.heldDegraded then ((t.mapCtx c.id m).payOwed).resumeBoundary c.id
      else (t.mapCtx c.id m).payOwed) :=
    ((t.mapCtx_keeps ..).trans (State.payOwed_keeps _)).trans (.when (State.resumeBoundary_keeps ..))
  have went (m : Ctx → Ctx) (mask : BitVec 256) := ((s.mapCtx_keeps c.id m).trans (masked _ mask)).trans (discarded _)
  unfold State.resumed
  exact .ite (went _ _) ((went _ _).trans (paid _ _))

theorem State.resume_keeps (sl : Slot) (se : Session) (s : State) : Keeps s (State.resume sl se s) := by
  unfold State.resume
  split
  · exact .refl s
  · split
    · exact State.invalid_keeps ..
    · exact .ite (State.refuse_keeps ..) (.ite (State.badState_keeps ..) ((s.resumed_keeps ..).trans (State.ok_keeps ..)))

/-! ## Snapshots and exports (R354, R355) -/

theorem State.snapshotCmd_keeps (sl : Slot) (se : Session) (s : State) : Keeps s (State.snapshotCmd sl se s) := by
  unfold State.snapshotCmd
  split
  · exact .refl s
  · refine .ite (State.invalid_keeps ..) (.ite (State.invalid_keeps ..) (.ite ?_ ?_))
    · exact (s.ok_keeps ..).trans (State.takeSnapshot_keeps ..)
    · exact (s.mapCtx_keeps ..).trans (State.ok_keeps ..)

theorem execSnapshotFirstWrite_keeps (id page : Nat) (s : State) : KeepsOut s (execSnapshotFirstWrite id page s) := by
  unfold execSnapshotFirstWrite
  refine .ite ?_ (.refl s)
  split
  · exact .next (State.fault_keeps ..)
  · exact .next ((State.releaseSlot_keeps ..).trans (State.mapCtx_keeps ..))

theorem execSnapshotDrainPage_keeps (id : Nat) (s : State) : KeepsOut s (execSnapshotDrainPage id s) := by
  unfold execSnapshotDrainPage
  split
  · exact .refl s
  · split
    · refine .ite (.refl s) ?_
      split
      · exact .next (State.fault_keeps ..)
      · exact .next (State.releaseSlot_keeps ..)
    · exact .refl s

theorem State.drainAll_keeps (s : State) (id : Nat) : Keeps s (s.drainAll id) := by
  unfold State.drainAll
  split
  · exact .refl s
  · exact .foldl (fun _ _ => State.releaseSlot_keeps ..) _ s

theorem State.exportSnapshot_keeps (sl : Slot) (se : Session) (s : State) : Keeps s (State.exportSnapshot sl se s) := by
  unfold State.exportSnapshot
  split
  · exact .refl s
  · next c _ =>
    refine .ite (State.invalid_keeps ..) (.ite (State.invalid_keeps ..) ?_)
    split
    · exact State.badState_keeps ..
    · refine (s.drainAll_keeps c.id).trans ?_
      dsimp only
      split
      · exact State.refuse_keeps ..
      · refine Keeps.trans ?_ (State.answer_keeps ..)
        exact .of_eq rfl rfl

theorem execExportEnd_keeps (id : Nat) (s : State) : KeepsOut s (execExportEnd id s) := by
  unfold execExportEnd
  dsimp only
  split
  · exact .refl s
  · next se h _ =>
    have dropped (m : Ctx → Ctx) : Keeps s ((s.dropHandle se h).mapCtx id m) :=
      (s.dropHandle_keeps ..).trans (State.mapCtx_keeps ..)
    split
    · refine .ite (.next ?_) (.next (dropped _))
      exact (dropped _).trans (State.mapCtx_keeps ..) |>.trans (State.takeSnapshot_keeps ..)
    · exact .next (dropped _)

/-! ## Queries (R358, R359) -/

theorem State.okPayload_keeps (s : State) (id : Nat) (sl : Slot) (b : List Byte) : Keeps s (s.okPayload id sl b) :=
  State.answer_keeps ..

theorem State.queryStats_keeps (sl : Slot) (se : Session) (s : State) : Keeps s (State.queryStats sl se s) := by
  unfold State.queryStats
  refine .ite (State.invalid_keeps ..) (.ite (State.invalid_keeps ..) (.ite ?_ (.ite (State.invalid_keeps ..) ?_)))
  · split
    · exact State.okPayload_keeps ..
    · exact State.refuse_keeps ..
    · exact State.invalid_keeps ..
  · split
    · exact Keeps.trans (.when s.draw_keeps) (State.okPayload_keeps ..)
    · exact State.invalid_keeps ..

theorem State.queryCaps_keeps (sl : Slot) (se : Session) (s : State) : Keeps s (State.queryCaps sl se s) :=
  .ite (State.invalid_keeps ..) (State.answer_keeps ..)

end Sys2Proof.Machine
end

section
/-! PROOFS. What every row keeps: background work, and the resets of contexts, engines, partitions and the chip. -/

namespace Sys2Proof.Machine

/-! ## Background work -/

theorem Keeps.of_repairs {s t : State} (h : SameButRepairs s t) : Keeps s t := by
  obtain ⟨_, _, _, _, rfl⟩ := h
  exact .of_eq rfl rfl

theorem State.raiseError_keeps (s : State) (p code : Nat) : Keeps s (s.raiseError p code) := State.raise_keeps ..

theorem State.raiseCorrected_keeps (s : State) (p code : Nat) : Keeps s (s.raiseCorrected p code) := by
  unfold State.raiseCorrected
  split
  · exact State.raiseError_keeps ..
  · exact (s.raiseError_keeps ..).trans (State.mapCtx_keeps ..)

theorem State.retirePage_keeps (s : State) (p : Nat) : Keeps s (s.retirePage p) := .of_repairs (.retirePage s p)

theorem State.spareRow_keeps (s : State) (p row : Nat) : Keeps s (s.spareRow p row) := by
  unfold State.spareRow
  refine .ite (.of_eq rfl rfl) (.trans ?_ (State.retirePage_keeps ..))
  exact .of_eq rfl rfl

theorem State.repairPage_keeps (s : State) (p : Nat) : Keeps s (s.repairPage p) := .of_repairs (.repairPage s p)

theorem State.repairHealed_keeps (s : State) (p : Nat) : Keeps s (s.repairHealed p) :=
  .foldl (fun _ _ => State.spareRow_keeps ..) _ s

theorem State.clearPage_keeps (s : State) (p : Nat) : Keeps s (s.clearPage p) := ⟨rfl, fun w => Memory.wf_memZero w ..⟩

theorem State.withholdFree_keeps (s : State) (p : Nat) : Keeps s (s.withholdFree p) :=
  .skip ((s.repairPage_keeps p).set (by rfl) (by rfl))

theorem State.setForced_keeps (s : State) (task : Nat) (on : Bool) : Keeps s (s.setForced task on) := .of_eq rfl rfl

theorem execBgDeadlineForced_keeps (task : Nat) (s : State) : KeepsOut s (execBgDeadlineForced task s) :=
  .when ((s.raise_keeps ..).trans (State.setForced_keeps ..))

theorem State.rowCorrected_keeps (s : State) (p a : Nat) : Keeps s (s.rowCorrected p a) := by
  have passed (passes : List (Nat × Nat)) : Keeps s { s.raiseCorrected p 0x2201 with
      bg := { (s.raiseCorrected p 0x2201).bg with rowPasses := passes } } := (s.raiseCorrected_keeps ..).set (by rfl) (by rfl)
  exact .ite (passed _) ((passed _).trans (State.spareRow_keeps ..))

theorem State.beginScrub_keeps (s : State) (p task : Nat) : Keeps s ((s.scrubbedAt p).setForced task false) := .of_eq rfl rfl

theorem execPatrolScrub_keeps (p : Nat) (found : Finding) (s : State) : KeepsOut s (execPatrolScrub p found s) := by
  unfold execPatrolScrub
  refine .ite (.refl s) (.after (s.beginScrub_keeps p 1) (.ite (.refl _) ?_))
  split
  · exact .next (State.repairHealed_keeps ..)
  · exact .when ((State.rowCorrected_keeps ..).trans (State.repairHealed_keeps ..))
  · refine .when (.trans ?_ (State.withholdFree_keeps ..))
    exact .of_eq rfl rfl

theorem execTopsoilScrub_keeps (p : Nat) (found : Finding) (s : State) : KeepsOut s (execTopsoilScrub p found s) := by
  unfold execTopsoilScrub
  refine .ite (.refl s) (.after (s.beginScrub_keeps p 2) (.ite (.refl _) ?_))
  split
  · exact .refl _
  · exact .when (State.raiseCorrected_keeps ..)
  · refine .when (.trans ?_ (State.withholdFree_keeps ..))
    exact .of_eq rfl rfl

theorem execPageZeroDone_keeps (p : Nat) (s : State) : KeepsOut s (execPageZeroDone p s) := by
  have served (t : State) (b : Bool) (h : Keeps s t) : Keeps s (if b then t else t.setForced 5 false) :=
    .ite h (h.trans (t.setForced_keeps ..))
  refine .when (served _ _ (.trans ?_ (State.answerReserves_keeps _)))
  exact ((s.repairPage_keeps p).trans (State.clearPage_keeps ..)).set (by rfl) (by rfl)

theorem State.beginRecal_keeps (s : State) (p lane : Nat) (calOk forced : Bool) :
    Keeps s (s.beginRecal p lane calOk forced) := by
  unfold State.beginRecal
  refine .ite (State.mapPort_keeps ..) ?_
  exact Keeps.trans (.trans (.skip (s.raise_keeps ..)) (State.setForced_keeps ..)) (State.mapPort_keeps ..)

theorem State.endRecal_keeps (s : State) (p lane : Nat) : Keeps s (s.endRecal p lane) := .of_eq rfl rfl

theorem execEqualiserRecalibration_keeps (p lane : Nat) (s : State) : KeepsOut s (execEqualiserRecalibration p lane s) := by
  unfold execEqualiserRecalibration
  split
  · exact .refl s
  · refine .after (s.setForced_keeps 3 false) (.ite (.refl _) ?_)
    split
    · exact .next (.ite (.of_eq rfl rfl) (.when (State.beginRecal_keeps ..)))
    · refine .ite (.next (State.endRecal_keeps ..)) (.when ?_)
      exact (State.endRecal_keeps ..).trans (State.beginRecal_keeps ..)

theorem execSubsoilRetraining_keeps (stack channel : Nat) (s : State) : KeepsOut s (execSubsoilRetraining stack channel s) :=
  .when (.of_eq rfl rfl)

theorem execTelemetrySample_keeps (t : Telemetry) (s : State) : KeepsOut s (execTelemetrySample t s) := .when (.of_eq rfl rfl)

/-! ## Retirements (R380, R403) -/

theorem State.retireGrain_keeps (s : State) (g : Nat) : Keeps s (s.retireGrain g) := by
  unfold State.retireGrain
  refine Keeps.trans (.trans (.trans ?_ (State.saveRetired_keeps _)) (State.raise_keeps ..)) (State.notifyOps_keeps ..)
  exact .of_eq rfl rfl

theorem State.retireCopyEngine_keeps (s : State) (e : Nat) : Keeps s (s.retireCopyEngine e) := by
  unfold State.retireCopyEngine
  refine Keeps.trans (.trans ?_ (State.saveRetired_keeps _)) (State.raise_keeps ..)
  exact .of_eq rfl rfl

theorem State.repairTop_keeps (s : State) (d : Nat) : Keeps s (s.repairTop d) := by
  refine .foldl (fun t p => ?_) _ s
  exact .ite (.of_eq rfl rfl) (.of_eq rfl rfl)

theorem State.retireDie_keeps (s : State) (d : Nat) : Keeps s (s.retireDie d) :=
  .skip (.foldl (fun _ _ => State.retirePort_keeps ..) _ s)

theorem State.retireOn_keeps (s : State) (d : Nat) : Keeps s (s.retireOn d) :=
  s.repairTop_keeps d |>.trans (.foldl (fun _ _ => State.retireGrain_keeps ..) _ _)
    |>.trans (.foldl (fun _ _ => State.retireCopyEngine_keeps ..) _ _) |>.trans (State.retireDie_keeps ..)

theorem State.writeDump_keeps (s : State) (seq : Nat) : Keeps s (s.writeDump seq) := .skip (.of_eq rfl rfl)

theorem State.countFailure_keeps (s : State) : Keeps s s.countFailure := .of_eq rfl rfl

/-! ## Context resets (R377) -/

theorem State.mapReset_keeps (s : State) (id : Nat) (f : CtxReset → CtxReset) : Keeps s (s.mapReset id f) :=
  State.mapCtx_keeps ..

theorem State.stopCtx_keeps (s : State) (id : Nat) : Keeps s (s.stopCtx id) := by
  unfold State.stopCtx
  split
  · exact .refl s
  · exact s.discardWork_keeps id |>.trans (State.cancelHandles_keeps ..) |>.trans (State.unsend_keeps ..)
      |>.trans (State.dropParts_keeps ..) |>.trans (State.mapCtx_keeps ..)

theorem execContextResetStopDone_keeps (id : Nat) (s : State) : KeepsOut s (execContextResetStopDone id s) := by
  unfold execContextResetStopDone
  split
  · exact .skip (State.stopCtx_keeps ..)
  · exact .refl s

theorem State.answerReset_keeps (s : State) (id code : Nat) : Keeps s (s.answerReset id code) := State.answerBusy_keeps ..

theorem State.endCtxReset_keeps (s : State) (id : Nat) : Keeps s (s.endCtxReset id) := by
  unfold State.endCtxReset
  split
  · exact .refl s
  · next c _ =>
    split
    · exact .refl s
    · next r _ =>
      have ended (t : State) : Keeps t (if r.release then (t.answerReset id c.rst.code).finishRelease id
          else t.answerReset id c.rst.code) :=
        .trans (t.answerReset_keeps id c.rst.code) (.when (State.finishRelease_keeps ..))
      have restored (m : Ctx → Ctx) : Keeps s ((if r.lost then s.loseContext id 1 else s.restoreAfterReset id r.cause).mapCtx id m) :=
        Keeps.trans (.ite (s.loseContext_keeps ..) (s.restoreAfterReset_keeps ..)) (State.mapCtx_keeps ..)
      refine (restored fun c => { c with reset := none, holdAsked := false }).trans (.trans ?_ (ended _))
      generalize State.mapCtx _ id _ = t
      split
      · exact .skip ((State.raise_keeps ..).trans (State.notify_keeps ..))
      · exact .refl t

theorem execContextResetRestoreDone_keeps (id : Nat) (s : State) : KeepsOut s (execContextResetRestoreDone id s) := by
  unfold execContextResetRestoreDone
  split
  · exact .when (State.endCtxReset_keeps ..)
  · exact .refl s

theorem State.release_keeps (sl : Slot) (se : Session) (s : State) : Keeps s (State.release sl se s) := by
  unfold State.release
  split
  · exact .refl s
  · next c _ =>
    refine .ite (State.invalid_keeps ..) (.ite (State.invalid_keeps ..) (.ite (State.refuse_keeps ..) ?_))
    have asked (b : Bool) : Keeps s ((if b then s.notify c.id 0x5002 1 c.spr.step [] else s).setBusy se.id (.release c.id) sl) :=
      Keeps.trans (.when (s.notify_keeps ..)) (State.setBusy_keeps ..)
    refine (asked (c.config.owner != se.identity)).trans ?_
    dsimp only
    generalize State.setBusy _ se.id (.release c.id) sl = t
    split
    · exact (State.beginCtxReset_keeps ..).trans (State.mapReset_keeps ..)
    · exact (State.beginCtxReset_keeps ..).trans (State.mapReset_keeps ..)
    · exact State.mapReset_keeps ..
    · exact State.finishRelease_keeps ..

/-! ## Partition resets (R376 to R379) -/

theorem State.includeCtx_keeps (s : State) (d id : Nat) : Keeps s (s.includeCtx d id) := by
  unfold State.includeCtx
  split
  · exact .refl s
  · refine Keeps.trans ?_ (State.mapReset_keeps ..)
    split
    · exact State.mapCtx_keeps ..
    · exact .ite (State.mapCtx_keeps ..) (State.beginCtxReset_keeps ..)

theorem State.silenceDie_keeps (s : State) (d : Nat) : Keeps s (s.silenceDie d) :=
  .foldl (fun t _ => .skip ((t.portDown_keeps _).trans (State.mapPort_keeps ..))) _ s

theorem State.partitionReset_keeps (s : State) (d cause : Nat) : Keeps s (s.partitionReset d cause) := by
  have announced : Keeps s ((s.writeNow 0x5004 cause (diePath d) noCtx).notifyOps 0x5004 cause) :=
    (s.writeNow_keeps ..).trans (State.notifyOps_keeps ..)
  have included (ids : List Nat) := announced.trans (.trans (State.countFailure_keeps _) (.trans (State.silenceDie_keeps _ d)
    (.foldl (fun t id => t.includeCtx_keeps d id) ids _)))
  unfold State.partitionReset
  refine .skip ?_
  dsimp only
  generalize reached : List.foldl (fun (s : State) id => s.includeCtx d id) _ _ = t
  have kept : Keeps s t := reached ▸ included _
  exact kept.set (by rfl) (by rfl)

theorem State.partPhase_keeps (s : State) (d : Nat) (a b : PartPhase) {act : PartReset → State → State}
    (h : ∀ r s, Keeps s (act r s)) : Keeps s (s.partPhase d a b act) := by
  unfold State.partPhase
  split
  · exact .refl s
  · refine .when (.trans ?_ (h _ _))
    exact .of_eq rfl rfl

theorem execPartitionStopDone_keeps (d : Nat) (s : State) : KeepsOut s (execPartitionStopDone d s) :=
  .when (State.partPhase_keeps _ _ _ _ fun _ _ => .refl _)

theorem execPartitionTrainDone_keeps (t : DieTraining) (s : State) : KeepsOut s (execPartitionTrainDone t s) :=
  .next (State.partPhase_keeps _ _ _ _ fun _ u => .foldl (fun _ _ => .skip (State.selfTested_keeps ..)) _ u)

theorem State.zeroDie_keeps (s : State) (d : Nat) : Keeps s (s.zeroDie d) := by
  obtain ⟨free, flash, sed, bg, arbiter, zeroed⟩ := s.zeroDie_eq d
  rw [zeroed]
  exact ⟨rfl, fun w => Memory.wf_memZero (Memory.wf_memZero w ..) ..⟩

theorem State.answerPartition_keeps (s : State) (d : Nat) : Keeps s (s.answerPartition d) := State.answerBusy_keeps ..

theorem State.returnDie_keeps (s : State) (r : PartReset) : Keeps s (s.returnDie r) := by
  unfold State.returnDie
  refine Keeps.trans (.trans (.trans (.trans (.trans ?_ (.foldl (fun _ _ => State.mapPort_keeps ..) _ _))
    (State.raise_keeps ..)) (.foldl (fun t c => ?_) _ _)) (State.answerPartition_keeps ..)) (State.answerReserves_keeps _)
  · exact .of_eq rfl rfl
  · exact (t.mapReset_keeps ..).trans (.when (State.endCtxReset_keeps ..))

/-! ## Engine resets (R371 to R375) -/

theorem State.failIssued_keeps (s : State) (e : Engine) : Keeps s (s.failIssued e) :=
  .foldl (fun t _ => (t.beginCtxReset_keeps ..).trans (State.mapCtx_keeps ..)) _ s

theorem State.failFills_keeps (s : State) (e : Engine) : Keeps s (s.failFills e) := by
  unfold State.failFills
  split
  · exact .foldl (fun _ _ => State.fillFailed_keeps ..) _ s
  · exact .refl s

theorem State.stopEngine_keeps (s : State) (cause : Nat) (e : Engine) : Keeps s (s.stopEngine cause e) := by
  unfold State.stopEngine
  refine (s.failIssued_keeps e).trans (.trans (State.failFills_keeps _ e) (.trans ?_ (State.mapEngine_keeps ..)))
  split
  · exact State.setSched_keeps ..
  · exact .refl _

theorem State.judge_keeps (s : State) (g : Nat) : Keeps s (s.judge g) := .of_eq rfl rfl

theorem State.judgeEngine_keeps (s : State) (e : Engine) : Keeps s (s.judgeEngine e) := by
  unfold State.judgeEngine
  refine .skip ?_
  split
  · refine .trans ?_ (State.partitionReset_keeps ..)
    exact .of_eq rfl rfl
  · exact State.judge_keeps ..

theorem State.resetEngines_keeps (s : State) (path cause : Nat) (es : List Engine) : Keeps s (s.resetEngines path cause es) := by
  have announced : Keeps s ((s.writeNow 0x5003 cause path noCtx).notifyOps 0x5003 cause) :=
    (s.writeNow_keeps ..).trans (State.notifyOps_keeps ..)
  refine .skip (announced.trans (.trans (State.countFailure_keeps _) ?_))
  exact .trans (.foldl (fun _ _ => State.stopEngine_keeps ..) _ _) (.foldl (fun _ _ => State.judgeEngine_keeps ..) _ _)

theorem State.resetEngine_keeps (s : State) (e : Engine) (cause : Nat) : Keeps s (s.resetEngine e cause) :=
  State.resetEngines_keeps ..

theorem State.answerEngines_keeps (s : State) : Keeps s s.answerEngines := State.answerBusy_keeps ..

theorem execEngineResetDone_keeps (e : Engine) (s : State) : KeepsOut s (execEngineResetDone e s) := by
  unfold execEngineResetDone
  split
  · exact .refl s
  · exact .next ((s.raise_keeps ..).trans (.foldl (fun _ _ => State.mapEngine_keeps ..) _ _) |>.trans
      (State.answerEngines_keeps _))

theorem execItemRetry_keeps (e : Engine) (r : InstrRef) (s : State) : KeepsOut s (execItemRetry e r s) := by
  unfold execItemRetry
  split
  · exact .refl s
  · next g _ =>
    have retried (f : EngineRec → EngineRec) (b : Bool) : Keeps s (if b
        then ((s.raise 0x5011 0 g r.ctx).mapEngine e f).judge g else (s.raise 0x5011 0 g r.ctx).mapEngine e f) :=
      .ite (.of_eq rfl rfl) (.of_eq rfl rfl)
    refine .ite (.refl s) (.after (retried _ _) (.ite (.refl _) (.next ?_)))
    exact (State.draw_keeps _).trans (State.resetEngine_keeps ..)

theorem execEngineHang_keeps (e : Engine) (s : State) : KeepsOut s (execEngineHang e s) := by
  unfold execEngineHang
  dsimp only
  split
  · exact .next ((s.advanceTo_keeps _).trans (State.raise_keeps ..) |>.trans (State.resetEngine_keeps ..))
  · exact .refl s

/-! ## Chip resets and power cycles (R378, R395 to R399) -/

theorem State.powerCycle_keeps (s : State) : Keeps s s.powerCycle := by
  have cycled (t : State) (logged : t = (s.countFailure.writeNow 0x5006 0 pkgPath noCtx).flushLog) :
      Keeps t s.powerCycle := by
    unfold State.powerCycle
    rw [← logged]
    exact .of_eq rfl rfl
  exact s.countFailure_keeps.trans (State.writeNow_keeps ..) |>.trans (State.flushLog_keeps _) |>.trans (cycled _ rfl)

theorem State.retireAll_keeps (s : State) : Keeps s s.retireAll := .foldl (fun _ _ => State.retireOn_keeps ..) _ s

theorem State.chipReset_keeps (s : State) (cause : Nat) : Keeps s (s.chipReset cause) := by
  have logged := s.writeNow_keeps 0x5005 cause pkgPath noCtx |>.trans
    (State.writeDump_keeps _ ((s.writeNow 0x5005 cause pkgPath noCtx).seqOf 0x5005)) |>.trans (State.countFailure_keeps _)
    |>.trans (State.retireAll_keeps _) |>.trans (State.flushLog_keeps _)
  have restarted (t : State) (resets : Resets) :
      Keeps t (({ t with resets } : State).restart cause .romStart).withholdRecurring := .of_eq rfl rfl
  unfold State.chipReset
  exact logged.trans (.ite ((restarted _ _).trans (State.powerCycle_keeps _)) (restarted _ _))

theorem State.askReset_keeps (s : State) (cause : Nat) : Keeps s (s.askReset cause) := .of_eq rfl rfl

theorem State.dueReset_keeps (s : State) : Keeps s s.dueReset := by
  unfold State.dueReset
  split
  · exact .when (State.chipReset_keeps ..)
  · exact .refl s

theorem execControllerHeartbeatExpiry_keeps (path : Nat) (s : State) : KeepsOut s (execControllerHeartbeatExpiry path s) :=
  .when (State.partitionReset_keeps ..)

theorem execControlStateUe_keeps (path : Nat) (s : State) : KeepsOut s (execControlStateUe path s) :=
  .ite (.refl s) (.ite (.when (State.chipReset_keeps ..)) (.next (State.partitionReset_keeps ..)))

theorem execReadyWatchdogExpiry_keeps (s : State) : KeepsOut s (execReadyWatchdogExpiry s) :=
  .when ((s.advanceTo_keeps _).trans (State.chipReset_keeps ..))

theorem State.escalated_keeps (s : State) (level src ctx : Nat) : Keeps s (s.escalated level src ctx) := State.writeNow_keeps ..

theorem State.endFailed_keeps (s : State) (id : Nat) : Keeps s (s.endFailed id) := State.mapCtx_keeps ..

theorem State.escalateCtx_keeps (s : State) (c : Ctx) (r : CtxReset) : Keeps s (s.escalateCtx c r) := by
  have escalated : Keeps s ((s.advanceTo (r.start + 20000)).escalated 1 pkgPath c.id) :=
    (s.advanceTo_keeps _).trans (State.escalated_keeps ..)
  unfold State.escalateCtx
  refine escalated.trans (.ite ?_ ?_)
  · exact (State.draw_keeps _).trans (.foldl (fun _ _ => State.partitionReset_keeps ..) _ _)
  · exact (State.endFailed_keeps ..).trans (.foldl (fun _ _ => State.resetEngines_keeps ..) _ _) |>.trans
      (State.mapReset_keeps ..)

theorem execResetEscalated_keeps (level part : Nat) (s : State) : KeepsOut s (execResetEscalated level part s) := by
  have escalated (t level src ctx : Nat) : Keeps s ((s.advanceTo t).escalated level src ctx) :=
    (s.advanceTo_keeps t).trans (State.escalated_keeps ..)
  unfold execResetEscalated
  split
  · split
    · split
      · exact .when (State.escalateCtx_keeps ..)
      · exact .refl s
    · exact .refl s
  · split
    · exact .next ((escalated ..).trans (State.partitionReset_keeps ..))
    · exact .refl s
  · split
    · exact .next ((escalated ..).trans (State.chipReset_keeps ..))
    · exact .refl s
  · split
    · exact .next ((escalated ..).trans (State.powerCycle_keeps _))
    · exact .refl s
  · exact .refl s

/-! ## RESET_REQ (R360) -/

theorem State.requestCtx_keeps (s : State) (sl : Slot) (se : Session) (c : Ctx) : Keeps s (s.requestCtx sl se c) := by
  unfold State.requestCtx
  split
  · exact State.setBusy_keeps ..
  · exact (s.beginCtxReset_keeps ..).trans (State.setBusy_keeps ..)

theorem State.requestEngines_keeps (s : State) (sl : Slot) (se : Session) (path : Nat) :
    Keeps s (s.requestEngines sl se path) :=
  .ite (State.invalid_keeps ..) ((s.setBusy_keeps ..).trans (.skip (State.resetEngines_keeps ..)))

theorem State.requestDie_keeps (s : State) (sl : Slot) (se : Session) (d : Nat) : Keeps s (s.requestDie sl se d) :=
  .ite (State.invalid_keeps ..) ((s.partitionReset_keeps ..).trans (State.setBusy_keeps ..))

theorem State.resetReq_keeps (sl : Slot) (se : Session) (s : State) : Keeps s (State.resetReq sl se s) := by
  unfold State.resetReq
  refine .ite (State.invalid_keeps ..) ?_
  split
  · split
    · exact State.requestCtx_keeps ..
    · exact State.refuse_keeps ..
  · exact State.requestEngines_keeps ..
  · exact State.requestDie_keeps ..
  · exact (s.ok_keeps ..).trans (State.askReset_keeps ..)
  · exact State.invalid_keeps ..

end Sys2Proof.Machine
end

section
/-! PROOFS. What every row keeps: the log, boot and firmware, the package inputs, power and clocks. -/

namespace Sys2Proof.Machine

/-! ## The log (R425 to R442) -/

theorem State.setBucket_keeps (s : State) (b : Bucket) : Keeps s (s.setBucket b) := .of_eq rfl rfl

theorem State.postEvent_keeps (s : State) (src : Nat) : Keeps s (s.postEvent src) := by
  unfold State.postEvent
  split
  · exact .refl s
  · exact .ite (.of_eq rfl rfl) (.skip (.of_eq rfl rfl))

theorem execSedRecordWrite_keeps (s : State) : KeepsOut s (execSedRecordWrite s) := by
  unfold execSedRecordWrite
  split
  · exact .refl s
  · split
    · next t written =>
      have kept := State.writeEvent_keeps written
      exact .next ⟨kept.pending, kept.wf⟩
    · exact .refl s

theorem execSedRecordClose_keeps (s : State) : KeepsOut s (execSedRecordClose s) := by
  have closed (us : Nat) (sed : Sed) : Keeps s { s.advanceTo us with sed } := (s.advanceTo_keeps us).set (by rfl) (by rfl)
  exact .when (closed _ _)

theorem execSedTokenRefill_keeps (code : Nat) (s : State) : KeepsOut s (execSedTokenRefill code s) :=
  .when ((s.advanceTo_keeps _).trans (State.setBucket_keeps ..))

theorem State.readRecords_keeps (s : State) (id : Nat) (sl : Slot) (ring : List SedRec) (start count : Nat) :
    Keeps s (s.readRecords id sl ring start count) := by
  unfold State.readRecords
  exact s.draw_keeps.trans (State.draw_keeps _) |>.trans (State.draw_keeps _) |>.trans (State.answer_keeps ..)

theorem State.logReadRecords_keeps (sl : Slot) (se : Session) (s : State) : Keeps s (State.logReadRecords sl se s) :=
  .ite (State.invalid_keeps ..) (.ite (State.invalid_keeps ..) (State.readRecords_keeps ..))

theorem State.logReadConfig_keeps (sl : Slot) (se : Session) (s : State) : Keeps s (State.logReadConfig sl se s) :=
  .ite (State.invalid_keeps ..) (.ite (State.invalid_keeps ..) (State.answer_keeps ..))

theorem State.mapSettings_keeps (s : State) (f : Settings → Settings) : Keeps s (s.mapSettings f) :=
  .skip (.ite (.of_eq rfl rfl) (.of_eq rfl rfl))

theorem State.configure_keeps (s : State) (e : CodeCfg) : Keeps s (s.configure e) := by
  have written (ev : Event) (cfgs : List CodeCfg) :
      Keeps s { s.writeFirst ev with sed := { (s.writeFirst ev).sed with cfgs } } := (s.writeFirst_keeps ev).set (by rfl) (by rfl)
  exact .ite (written _ _) ((written _ _).trans (State.setBucket_keeps ..))

theorem State.logWriteConfig_keeps (sl : Slot) (se : Session) (s : State) : Keeps s (State.logWriteConfig sl se s) := by
  unfold State.logWriteConfig
  refine .ite (State.invalid_keeps ..) ?_
  split
  · exact State.invalid_keeps ..
  · refine .ite (State.invalid_keeps ..) ?_
    exact Keeps.foldl (fun _ _ => State.configure_keeps ..) _ s |>.trans (State.mapSettings_keeps ..)
      |>.trans (State.ok_keeps ..)

theorem State.logReadSet_keeps (sl : Slot) (se : Session) (s : State) : Keeps s (State.logReadSet sl se s) :=
  .ite (State.invalid_keeps ..) (.ite (State.invalid_keeps ..) (State.answer_keeps ..))

theorem State.logWriteSet_keeps (sl : Slot) (se : Session) (s : State) : Keeps s (State.logWriteSet sl se s) := by
  have written (ev : Event) (sets : List (Nat × List Nat)) :
      Keeps s { s.writeFirst ev with sed := { (s.writeFirst ev).sed with sets } } := (s.writeFirst_keeps ev).set (by rfl) (by rfl)
  refine .ite (State.invalid_keeps ..) (.ite (State.invalid_keeps ..) ?_)
  exact (written _ _).trans (State.mapSettings_keeps ..) |>.trans (State.ok_keeps ..)

theorem State.dumpRead_keeps (sl : Slot) (se : Session) (s : State) : Keeps s (State.dumpRead sl se s) := by
  unfold State.dumpRead
  refine .ite (State.invalid_keeps ..) (.ite (State.invalid_keeps ..) ?_)
  split
  · exact State.refuse_keeps ..
  · exact State.answer_keeps ..

/-! ## Boot (R405 to R411) -/

theorem execIdentityDone_keeps (powerUps : List (List Byte)) (s : State) : KeepsOut s (execIdentityDone powerUps s) :=
  .when (.ite (.of_eq rfl rfl) (.of_eq rfl rfl))

theorem execRecordsDone_keeps (s : State) : KeepsOut s (execRecordsDone s) := by
  have taken (bad : List FlashRec) : Keeps s (bad.foldl (fun s r => s.raise 0x600B r.kind pkgPath noCtx) s).takeRecords :=
    Keeps.trans (.foldl (fun _ _ => State.raise_keeps ..) _ s) (State.takeRecords_keeps _)
  have counted (t : State) : Keeps t (if t.boot.cold then { t with flash := { t.flash with pcc := t.flash.pcc + 1 } } else t) :=
    .when (.of_eq rfl rfl)
  have saved (t : State) : Keeps t (if t.boot.ident && t.flash.settingsOnly then
        ({ t with flash := { t.flash with settingsOnly := false } } : State).saveRetired.savePcc
      else if t.boot.cold then t.savePcc else t) := by
    refine .ite (.trans (.trans ?_ (State.saveRetired_keeps _)) (State.savePcc_keeps _)) (.when (State.savePcc_keeps _))
    exact .of_eq rfl rfl
  exact .when ((((taken _).trans (counted _)).trans (saved _)).set (by rfl) (by rfl))

theorem State.bootBank_keeps (s : State) (b : Nat) (upd : UpdPhase) : Keeps s (s.bootBank b upd) := .of_eq rfl rfl

theorem State.fallback_keeps (s : State) (detail : Nat) : Keeps s (s.fallback detail) := .of_eq rfl rfl

theorem State.recover_keeps (s : State) : Keeps s s.recover := .of_eq rfl rfl

theorem State.bankFailed_keeps (s : State) (b order : Nat) : Keeps s (s.bankFailed b order) := State.raise_keeps ..

theorem State.beginTrial_keeps (s : State) (c : BootCtl) (b : Nat) : Keeps s (s.beginTrial c b) :=
  (s.writeCtl_keeps { c with armed := false, staged := false, trial := true, tried := true, upd := 5 }).trans (.of_eq rfl rfl)

theorem State.raiseRollback_keeps (s : State) (v : Nat) : Keeps s (s.raiseRollback v) := .of_eq rfl rfl

theorem State.bootSecond_keeps (s : State) (c : BootCtl) (first : Bool) (b : Nat) : Keeps s (s.bootSecond c first b) := by
  have fellBack (c : BootCtl) (detail : Nat) (upd : UpdPhase) :
      Keeps s (((s.writeCtl c).fallback detail).bootBank b upd) :=
    (s.writeCtl_keeps c).trans (State.fallback_keeps ..) |>.trans (State.bootBank_keeps ..)
  refine .ite (fellBack ..) (.ite ?_ (fellBack ..))
  exact (s.writeCtl_keeps _).trans (State.raiseRollback_keeps ..) |>.trans (State.raise_keeps ..)
    |>.trans (State.bootBank_keeps ..)

theorem State.bootFirst_keeps (s : State) (c : BootCtl) (first : Bool) (b : Nat) : Keeps s (s.bootFirst c first b) := by
  refine .ite (State.beginTrial_keeps ..) (.ite ?_ (State.bootBank_keeps ..))
  exact (s.writeCtl_keeps _).trans (State.fallback_keeps ..) |>.trans (State.bootBank_keeps ..)

theorem execBankLoadDone_keeps (s : State) : KeepsOut s (execBankLoadDone s) := by
  unfold execBankLoadDone
  refine .ite (.refl s) ?_
  dsimp only
  generalize (if (s.boot.ident && (s.bootCtl.armed || (s.bootCtl.trial && !s.bootCtl.tried))) = true then
    1 - s.bootCtl.active else s.bootCtl.active) = bank
  split
  · exact .next (State.bootFirst_keeps ..)
  · next order _ =>
    refine .after (s.bankFailed_keeps bank order) ?_
    split
    · exact .next (State.bootSecond_keeps ..)
    · exact .next ((State.bankFailed_keeps ..).trans (State.recover_keeps _))

theorem execHandoverDone_keeps (s : State) : KeepsOut s (execHandoverDone s) := .when (.of_eq rfl rfl)

theorem State.setVoltages_keeps (s : State) : Keeps s s.setVoltages := .of_eq rfl rfl

/-- The firmware starts on empty memory, which is in canonical form. -/
theorem execFirmwareReady_keeps (s : State) : KeepsOut s (execFirmwareReady s) := by
  have zeroed : Keeps s ((List.range 4).foldl (fun s d => s.zeroDie d) s) := .foldl (fun _ _ => State.zeroDie_keeps ..) _ s
  unfold execFirmwareReady
  refine .when ?_
  generalize (List.range 4).foldl (fun s d => s.zeroDie d) s = t at zeroed
  exact ⟨zeroed.pending, fun _ => rfl⟩

/-! ## The package inputs (R404 to R406) -/

theorem State.pulse_keeps (s : State) (ns lo : Nat) : Keeps s (s.pulse ns lo).2 := by
  unfold State.pulse
  split
  · exact .refl s
  · split
    · exact .refl s
    · exact s.draw_keeps

theorem State.holdReset_keeps (s : State) : Keeps s s.holdReset := .skip (.of_eq rfl rfl)

theorem execPkgResetAssert_keeps (ns : Nat) (s : State) : KeepsOut s (execPkgResetAssert ns s) := by
  unfold execPkgResetAssert
  refine .after (s.pulse_keeps ns 490) ?_
  dsimp only
  refine .when (.ite (.trans (.trans ?_ (State.chipReset_keeps ..)) (State.holdReset_keeps _)) (.of_eq rfl rfl))
  exact .of_eq rfl rfl

theorem State.startRom_keeps (s : State) : Keeps s s.startRom := .when (.of_eq rfl rfl)

theorem execPkgResetRelease_keeps (ns : Nat) (s : State) : KeepsOut s (execPkgResetRelease ns s) := by
  unfold execPkgResetRelease
  refine .after (s.pulse_keeps ns 490) ?_
  dsimp only
  refine .when (.trans ?_ (State.startRom_keeps _))
  exact .of_eq rfl rfl

theorem State.powerUp_keeps (s : State) : Keeps s s.powerUp := .of_eq rfl rfl

theorem execPwrGoodRise_keeps (s : State) : KeepsOut s (execPwrGoodRise s) :=
  .skip (s.powerUp_keeps.trans (State.startRom_keeps _))

theorem execPwrGoodFall_keeps (s : State) : KeepsOut s (execPwrGoodFall s) := .when (.of_eq rfl rfl)

theorem execPowerDownStopDone_keeps (s : State) : KeepsOut s (execPowerDownStopDone s) := by
  have off (t : State) (h : t = s.flushLog) (boot : Boot) (sed : Sed) (power : Power) : Keeps s { t with boot, sed, power } := by
    have kept := s.flushLog_keeps
    rw [← h] at kept
    exact kept.set (by rfl) (by rfl)
  exact .when (off _ rfl _ _ _)

/-! ## Firmware update and attestation (R412 to R424) -/

theorem State.attest_keeps (sl : Slot) (se : Session) (s : State) : Keeps s (State.attest sl se s) := by
  unfold State.attest
  refine .ite (State.invalid_keeps ..) (.ite (State.refuse_keeps ..) ?_)
  exact (s.unitSign_keeps (s.report sl.payload)).trans (State.okPayload_keeps ..)

theorem State.fwState_keeps (s : State) (id : Nat) (sl : Slot) : Keeps s (s.fwState id sl) := State.refuse_keeps ..

theorem State.setUpd_keeps (s : State) (u : UpdPhase) : Keeps s (s.setUpd u) := .of_eq rfl rfl

theorem State.putBank_keeps (s : State) (b : Nat) (i : BankImage) : Keeps s (s.putBank b i) := .skip (.of_eq rfl rfl)

theorem State.putStaging_keeps (s : State) (b : Nat) (l : List Byte) : Keeps s (s.putStaging b l) := .skip (.of_eq rfl rfl)

theorem State.fwOffer_keeps (sl : Slot) (se : Session) (s : State) : Keeps s (State.fwOffer sl se s) := by
  unfold State.fwOffer
  refine .ite (State.invalid_keeps ..) (.ite (State.invalid_keeps ..) (.ite (State.refuse_keeps ..)
    (.ite (State.fwState_keeps ..) ?_)))
  split
  · exact State.refuse_keeps ..
  · have unstaged (c : BootCtl) : Keeps s (if s.boot.upd = .staged then s.writeCtl c else s) := .when (s.writeCtl_keeps c)
    have offered (t : State) (boot : Boot) :
        Keeps t (({ (t.putBank t.updBank .erased).putStaging t.updBank [] with boot } : State).ok se.id sl) :=
      (((t.putBank_keeps ..).trans (State.putStaging_keeps ..)).set (by rfl) (by rfl)).trans (State.ok_keeps ..)
    exact (unstaged _).trans (offered _ _)

theorem State.fwChunk_keeps (sl : Slot) (se : Session) (s : State) : Keeps s (State.fwChunk sl se s) := by
  unfold State.fwChunk
  refine .ite (State.invalid_keeps ..) ?_
  split
  · refine .ite (State.refuse_keeps ..) (.ite (State.invalid_keeps ..) ((s.putStaging_keeps ..).trans
      (.ite (State.ok_keeps ..) (.ite ?_ ?_))))
    · exact (State.setUpd_keeps ..).trans (State.ok_keeps ..)
    · exact ((State.putStaging_keeps _ _ []).set (by rfl) (by rfl)).trans (State.refuse_keeps ..)
  · exact State.fwState_keeps ..

theorem State.applyFailed_keeps (s : State) (code detail : Nat) : Keeps s (s.applyFailed code detail) := by
  have logged : Keeps s ((s.raise code detail pkgPath noCtx).notifyOps code detail) :=
    (s.raise_keeps ..).trans (State.notifyOps_keeps ..)
  exact (logged.trans (State.writeCtl_keeps ..)).set (by rfl) (by rfl)

theorem execFwApplyDone_keeps (s : State) : KeepsOut s (execFwApplyDone s) := by
  unfold execFwApplyDone
  refine .ite (.refl s) (.ite (.next (State.applyFailed_keeps ..)) (.after (State.putBank_keeps ..)
    (.ite (.next (State.applyFailed_keeps ..)) (.ite (.next (State.applyFailed_keeps ..)) (.next ?_)))))
  exact ((State.writeCtl_keeps ..).set (by rfl) (by rfl)).trans (State.notifyOps_keeps ..)

theorem State.fwActivate_keeps (sl : Slot) (se : Session) (s : State) : Keeps s (State.fwActivate sl se s) := by
  unfold State.fwActivate
  refine .ite (State.invalid_keeps ..) (.ite (State.invalid_keeps ..) (.ite (State.fwState_keeps ..) (.ite ?_ ?_)))
  · exact (s.ok_keeps ..).trans (State.askReset_keeps ..)
  · have armed (c : BootCtl) : Keeps s (((if s.boot.upd = .staged then s.writeCtl c else s).setUpd .armed).ok se.id sl) :=
      Keeps.trans (.trans (.when (s.writeCtl_keeps c)) (State.setUpd_keeps ..)) (State.ok_keeps ..)
    exact (armed _).trans (.when (State.askReset_keeps ..))

theorem State.fwConfirm_keeps (sl : Slot) (se : Session) (s : State) : Keeps s (State.fwConfirm sl se s) := by
  unfold State.fwConfirm
  refine .ite (State.invalid_keeps ..) (.ite (State.fwState_keeps ..) ?_)
  have raised := s.raiseRollback_keeps s.boot.sver
  exact ((raised.trans (State.writeCtl_keeps ..)).set (by rfl) (by rfl)).trans (State.ok_keeps ..)

/-! ## Power, clocks and heat (R455 to R475) -/

theorem State.returnAll_keeps (s : State) : Keeps s s.returnAll := State.returnPorts_keeps ..

theorem State.powerPolicy_keeps (sl : Slot) (se : Session) (s : State) : Keeps s (State.powerPolicy sl se s) := by
  unfold State.powerPolicy
  refine .ite (State.invalid_keeps ..) (.ite (State.invalid_keeps ..) ?_)
  have returned (t : State) (b : Prop) [Decidable b] (h : Keeps s t) :
      Keeps s ((if b then t.returnAll else t).setVoltages.ok se.id sl) :=
    Keeps.trans (.trans (h.trans (.when (State.returnAll_keeps _))) (State.setVoltages_keeps _)) (State.ok_keeps ..)
  exact returned _ _ ((s.mapSettings_keeps _).set (by rfl) (by rfl))

theorem execPowerBrakeApply_keeps (ns : Nat) (s : State) : KeepsOut s (execPowerBrakeApply ns s) := by
  unfold execPowerBrakeApply
  refine .after (s.pulse_keeps ns 90) ?_
  dsimp only
  exact .when (.of_eq rfl rfl)

theorem execPowerBrakeRelease_keeps (ns : Nat) (s : State) : KeepsOut s (execPowerBrakeRelease ns s) := by
  unfold execPowerBrakeRelease
  refine .after (s.pulse_keeps ns 90) ?_
  dsimp only
  exact .when ((State.advanceTo_keeps ..).set (by rfl) (by rfl))

theorem State.loseClock_keeps (s : State) (p : Nat) : Keeps s (s.loseClock p) := by
  unfold State.loseClock
  split
  · exact .when (State.portDown_keeps ..)
  · exact .refl s

theorem execRefclkLost_keeps (clock : Nat) (s : State) : KeepsOut s (execRefclkLost clock s) := by
  unfold execRefclkLost
  refine .ite (.skip (.of_eq rfl rfl)) (.when (.trans ?_ (.foldl (fun _ _ => State.loseClock_keeps ..) _ _)))
  exact .of_eq rfl rfl

theorem execRefclkReturn_keeps (clock : Nat) (s : State) : KeepsOut s (execRefclkReturn clock s) :=
  .ite (.when (.of_eq rfl rfl)) (.when (.of_eq rfl rfl))

theorem State.refresh_keeps (s : State) (st : Nat) (t : Int) : Keeps s (s.refresh st t) :=
  .ite (.of_eq rfl rfl) (.when (.of_eq rfl rfl))

theorem State.beginThrottle_keeps (s : State) (d : Nat) : Keeps s (s.beginThrottle d) := by
  unfold State.beginThrottle
  refine .skip (.trans ?_ (State.notifyOps_keeps ..))
  exact .of_eq rfl rfl

theorem State.trip_keeps (s : State) (sensor : Nat) : Keeps s (s.trip sensor) := by
  have logged : Keeps s ((s.writeNow 0x7002 sensor sensor noCtx).notifyOps 0x7002 sensor) :=
    (s.writeNow_keeps ..).trans (State.notifyOps_keeps ..)
  exact (logged.set (by rfl) (by rfl)).trans (State.chipReset_keeps ..) |>.trans (State.holdReset_keeps _)

theorem State.setTherm_keeps (s : State) : Keeps s s.setTherm := .of_eq rfl rfl

theorem execThermalSample_keeps (readings : List Reading) (s : State) : KeepsOut s (execThermalSample readings s) := by
  have refreshed (t : State) (r : Nat × Int) : Keeps t (if r.1 / 256 = 7 then t.refresh (r.1 % 256) r.2 else t) :=
    .when (t.refresh_keeps ..)
  have sampled (power : Power) (seen : List (Nat × Int)) :
      Keeps s (seen.foldl (fun t r => if r.1 / 256 = 7 then t.refresh (r.1 % 256) r.2 else t) { s with power }) := by
    refine .trans ?_ (.foldl refreshed seen _)
    exact .of_eq rfl rfl
  have cooled (t : State) (c : Prop) [Decidable c] (boot : Boot) :
      Keeps t (if c then ({ t with boot } : State).chipRuns else { t with boot }) := .ite (.of_eq rfl rfl) (.of_eq rfl rfl)
  unfold execThermalSample
  refine .ite (.next (.of_eq rfl rfl)) ?_
  dsimp only
  split
  · exact .next ((sampled _ _).trans (State.trip_keeps ..))
  · exact .next ((sampled _ _).trans (cooled _ _ _) |>.trans
      (.trans (.foldl (fun _ _ => State.beginThrottle_keeps ..) _ _) (State.setTherm_keeps _)))

theorem execThermalCapStep_keeps (d : Nat) (s : State) : KeepsOut s (execThermalCapStep d s) :=
  .ite (.refl s) (.ite (.next (.of_eq rfl rfl)) (.when (.of_eq rfl rfl)))

theorem execPowerLimitLoop_keeps (milliwatts : Nat) (s : State) : KeepsOut s (execPowerLimitLoop milliwatts s) := by
  refine .ite (.refl s) (.next (.trans ?_ (State.setVoltages_keeps _)))
  exact .ite (.of_eq rfl rfl) (.of_eq rfl rfl)

theorem execPowerStateEnter_keeps (p : Nat) (s : State) : KeepsOut s (execPowerStateEnter p s) :=
  .ite (.refl s) (.ite (.next (State.setUnit_keeps ..)) (.next (State.setUnit_keeps ..)))

theorem execPowerStateReached_keeps (p : Nat) (s : State) : KeepsOut s (execPowerStateReached p s) := by
  unfold execPowerStateReached
  split
  · exact .next ((s.advanceTo_keeps _).trans (State.setUnit_keeps ..))
  · exact .refl s

theorem execPowerWake_keeps (p : Nat) (s : State) : KeepsOut s (execPowerWake p s) := by
  unfold execPowerWake
  split
  · exact .next ((s.advanceTo_keeps _).trans (State.enable_keeps ..))
  · exact .refl s

theorem execPortPowerOff_keeps (p : Nat) (s : State) : KeepsOut s (execPortPowerOff p s) := by
  unfold execPortPowerOff
  split
  · exact .when (State.portLeave_keeps ..)
  · exact .refl s

theorem execPortOffReturnDone_keeps (p : Nat) (s : State) : KeepsOut s (execPortOffReturnDone p s) := by
  unfold execPortOffReturnDone
  split
  · exact .when ((s.mapPort_keeps ..).trans (State.answerReserves_keeps _))
  · exact .refl s

theorem execTapInstruction_keeps (i : TapInstr) (s : State) : KeepsOut s (execTapInstruction i s) := by
  unfold execTapInstruction
  split
  · exact .ite (.fault s _) (.next (.of_eq rfl rfl))
  · exact .next (.of_eq rfl rfl)
  · exact .next (.of_eq rfl rfl)
  · exact .next (.of_eq rfl rfl)
  · exact .next (.of_eq rfl rfl)

end Sys2Proof.Machine
end

section
/-! PROOFS. What every row keeps, put together: `exec`, and a step of the machine (R218). -/

namespace Sys2Proof.Machine

/-! ## Rows of a family -/

/-- A Ligil command keeps what its action keeps. -/
theorem KeepsOut.command {s : State} {c : Instr} {sl : Slot} {mine : Bool} {run : Session → State → State}
    (h : ∀ se t, Keeps t (run se t)) : KeepsOut s (.next (s.command c sl mine run)) := .next (State.command_keeps _ _ _ _ h)

/-- An instruction of the control processor keeps what its action keeps. -/
theorem KeepsOut.control {s : State} {r : InstrRef} {ok : Found → Bool} {act : Found → State → Except Fail State}
    (h : ∀ f t, KeepsOk t (act f t)) : KeepsOut s (.next (s.control r ok act)) := .next (State.control_keeps s r ok h)

/-- An instruction that stores through its context's window. -/
theorem KeepsOut.planInstruction (s : State) (r : InstrRef) {i : Instr} (h : i ∈ planInstructions r) : KeepsOut s (exec i s) :=
  ⟨fun t e => .of_stores ((exec_planInstruction_stores s h).at_next t e)⟩

theorem execSynWait_keeps (r : InstrRef) (s : State) : KeepsOut s (execSynWait r s) := .control fun _ _ => .ok (.refl _)

theorem execSynSignal_keeps (r : InstrRef) (s : State) : KeepsOut s (execSynSignal r s) := .control fun _ _ => .ok (.refl _)

theorem execNop_keeps (r : InstrRef) (s : State) : KeepsOut s (execNop r s) := .control fun _ _ => .ok (.refl _)

theorem execRegWrite_keeps (r : InstrRef) (s : State) : KeepsOut s (execRegWrite r s) :=
  .control fun _ _ => .ok (State.doRegWrite_keeps ..)

theorem execGrnFpcsrWrite_keeps (r : InstrRef) (s : State) : KeepsOut s (execGrnFpcsrWrite r s) :=
  .control fun _ _ => .ok (State.doRegWrite_keeps ..)

theorem execPwrHintWrite_keeps (r : InstrRef) (s : State) : KeepsOut s (execPwrHintWrite r s) :=
  .control fun _ _ => .ok (State.doRegWrite_keeps ..)

/-! ## Rows with one action of their own -/

theorem execFlashWearLevelling_keeps (block : Nat) (s : State) : KeepsOut s (execFlashWearLevelling block s) := by
  refine .next (.trans ?_ (State.setForced_keeps ..))
  exact .of_eq rfl rfl

theorem execDumpFlashCopyDone_keeps (s : State) : KeepsOut s (execDumpFlashCopyDone s) := .when (.of_eq rfl rfl)

theorem execPartitionDumpDone_keeps (d : Nat) (s : State) : KeepsOut s (execPartitionDumpDone d s) :=
  .next (State.partPhase_keeps _ _ _ _ fun _ _ => State.writeDump_keeps ..)

theorem execPartitionRetireDone_keeps (d : Nat) (s : State) : KeepsOut s (execPartitionRetireDone d s) :=
  .next (State.partPhase_keeps _ _ _ _ fun _ _ => State.retireOn_keeps ..)

theorem execPartitionZeroDone_keeps (d : Nat) (s : State) : KeepsOut s (execPartitionZeroDone d s) :=
  .next (State.partPhase_keeps _ _ _ _ fun _ _ => (State.zeroDie_keeps ..).trans (State.returnDie_keeps ..))

theorem execChipReset_keeps (cause : Nat) (s : State) : KeepsOut s (execChipReset cause s) := .when (s.chipReset_keeps cause)

theorem execPowerCycleRequest_keeps (s : State) : KeepsOut s (execPowerCycleRequest s) := .when s.powerCycle_keeps

theorem execManagementHeartbeatExpiry_keeps (s : State) : KeepsOut s (execManagementHeartbeatExpiry s) :=
  .when (s.chipReset_keeps 9)

theorem execRomStartDone_keeps (s : State) : KeepsOut s (execRomStartDone s) := .when (.of_eq rfl rfl)

theorem execIslandClockTrim_keeps (path : Nat) (s : State) : KeepsOut s (execIslandClockTrim path s) := .when (.of_eq rfl rfl)

theorem execPowerEnable_keeps (p : Nat) (s : State) : KeepsOut s (execPowerEnable p s) := .when (s.enable_keeps p)

theorem execPowerWakeDone_keeps (p : Nat) (s : State) : KeepsOut s (execPowerWakeDone p s) := .when (s.setUnit_keeps p _)

/-! ## Every row -/

/-- Whatever command the machine executes, memory in canonical form stays so. -/
theorem exec_keeps (s : State) : ∀ i : Instr, KeepsOut s (exec i s)
  | .mmFwd r => .planInstruction s r (by simp [planInstructions])
  | .mmBwd r => .planInstruction s r (by simp [planInstructions])
  | .vecElt r => .planInstruction s r (by simp [planInstructions])
  | .vecRowred r => .planInstruction s r (by simp [planInstructions])
  | .rowstatFwd r => .planInstruction s r (by simp [planInstructions])
  | .rowstatBwd r => .planInstruction s r (by simp [planInstructions])
  | .dropout r => .planInstruction s r (by simp [planInstructions])
  | .initTensor r => .planInstruction s r (by simp [planInstructions])
  | .sample r => .planInstruction s r (by simp [planInstructions])
  | .clipSum r => .planInstruction s r (by simp [planInstructions])
  | .clipFinish r => .planInstruction s r (by simp [planInstructions])
  | .convert r => .planInstruction s r (by simp [planInstructions])
  | .optimise r => .planInstruction s r (by simp [planInstructions])
  | .copy r => .planInstruction s r (by simp [planInstructions])
  | .copyComplete _ => execCopyComplete_keeps ..
  | .promote _ => execPromote_keeps ..
  | .evict _ => execEvict_keeps ..
  | .sealObject _ => execSealObject_keeps ..
  | .commonsFillDone _ => .next (State.fillDone_keeps ..)
  | .commonsDrainDone _ => execCommonsDrainDone_keeps ..
  | .copyPort _ => execCopyPort_keeps ..
  | .portCopyCompletion _ _ => execPortCopyCompletion_keeps ..
  | .synWait _ => execSynWait_keeps ..
  | .synSignal _ => execSynSignal_keeps ..
  | .allReduce _ => .next (State.startColl_keeps ..)
  | .reduceScatter _ => .next (State.startColl_keeps ..)
  | .allGather _ => .next (State.startColl_keeps ..)
  | .ringPass _ => .next (State.startColl_keeps ..)
  | .collMessageReceive _ _ _ => execCollMessageReceive_keeps ..
  | .nop _ => execNop_keeps ..
  | .regWrite _ => execRegWrite_keeps ..
  | .grnFpcsrWrite _ => execGrnFpcsrWrite_keeps ..
  | .pwrHintWrite _ => execPwrHintWrite_keeps ..
  | .lglBootLockClose => .next (.of_eq rfl rfl)
  | .sieveCommit _ => execSieveCommit_keeps ..
  | .stepEnd _ => execStepEnd_keeps ..
  | .loopEnd _ => execLoopEnd_keeps ..
  | .instructionAccept _ _ _ => execInstructionAccept_keeps ..
  | .itemEnterWindow _ _ => execItemEnterWindow_keeps ..
  | .itemIssue _ _ => execItemIssue_keeps ..
  | .itemComplete _ _ => execItemComplete_keeps ..
  | .laneIssue _ => execLaneIssue_keeps ..
  | .instructionComplete _ => execInstructionComplete_keeps ..
  | .itemRetry _ _ => execItemRetry_keeps ..
  | .waitTimeout _ => execWaitTimeout_keeps ..
  | .engineHang _ => execEngineHang_keeps ..
  | .collTimeout _ => execCollTimeout_keeps ..
  | .updateStall _ => execUpdateStall_keeps ..
  | .snapshotFirstWrite _ _ => execSnapshotFirstWrite_keeps ..
  | .snapshotDrainPage _ => execSnapshotDrainPage_keeps ..
  | .hello _ => .command fun _ _ => State.hello_keeps ..
  | .attest _ => .command fun _ _ => State.attest_keeps ..
  | .admitCtx _ => .command fun _ _ => State.makeContext_keeps ..
  | .reserve _ => .command fun _ _ => State.reserve_keeps ..
  | .release _ => .command fun _ _ => State.release_keeps ..
  | .attachCommons _ => .command fun _ _ => State.attach_keeps ..
  | .attachCommonsGrant _ => .command fun _ _ => State.changeGrant_keeps ..
  | .detachCommons _ => .command fun _ _ => State.detach_keeps ..
  | .detachCommonsRevoke _ => .command fun _ _ => State.changeGrant_keeps ..
  | .loadPlan _ => .command fun _ _ => State.loadPlan_keeps ..
  | .bindDataOpenIn _ => .command fun _ _ => State.openIn_keeps ..
  | .bindDataOpenOut _ => .command fun _ _ => State.openOut_keeps ..
  | .bindDataClose _ => .command fun _ _ => State.closeBulk_keeps ..
  | .bulkFrame _ _ _ _ => execBulkFrame_keeps ..
  | .runStep _ => .command fun _ _ => State.runStep_keeps ..
  | .hold _ => .command fun _ _ => State.holdCmd_keeps ..
  | .holdComplete _ => execHoldComplete_keeps ..
  | .resume _ => .command fun _ _ => State.resume_keeps ..
  | .snapshot _ => .command fun _ _ => State.snapshotCmd_keeps ..
  | .restore _ => .command fun _ _ => State.restore_keeps ..
  | .exportSnapshot _ => .command fun _ _ => State.exportSnapshot_keeps ..
  | .queryStats _ => .command fun _ _ => State.queryStats_keeps ..
  | .queryCaps _ => .command fun _ _ => State.queryCaps_keeps ..
  | .fwOffer _ => .command fun _ _ => State.fwOffer_keeps ..
  | .fwChunk _ => .command fun _ _ => State.fwChunk_keeps ..
  | .fwApplyDone => execFwApplyDone_keeps ..
  | .fwActivate _ => .command fun _ _ => State.fwActivate_keeps ..
  | .fwConfirm _ => .command fun _ _ => State.fwConfirm_keeps ..
  | .logReadRecords _ => .command fun _ _ => State.logReadRecords_keeps ..
  | .logReadConfig _ => .command fun _ _ => State.logReadConfig_keeps ..
  | .logWriteConfig _ => .command fun _ _ => State.logWriteConfig_keeps ..
  | .logReadSet _ => .command fun _ _ => State.logReadSet_keeps ..
  | .logWriteSet _ => .command fun _ _ => State.logWriteSet_keeps ..
  | .dumpRead _ => .command fun _ _ => State.dumpRead_keeps ..
  | .resetReq _ => .command fun _ _ => State.resetReq_keeps ..
  | .powerPolicy _ => .command fun _ _ => State.powerPolicy_keeps ..
  | .clientConnect _ _ _ => execClientConnect_keeps ..
  | .sessionEnd _ => .next (State.closeConn_keeps ..)
  | .eventSlotRelease _ _ _ => execEventSlotRelease_keeps ..
  | .eventDeliver _ => execEventDeliver_keeps ..
  | .flitSend _ => execFlitSend_keeps ..
  | .flitReceive _ _ _ => execFlitReceive_keeps ..
  | .retryRequest _ _ => .next (State.sendAgain_keeps ..)
  | .ackTimeout _ => execAckTimeout_keeps ..
  | .linkDown _ => execLinkDown_keeps ..
  | .laneLockLoss _ _ => execLaneLockLoss_keeps ..
  | .peerSlow _ _ => execPeerSlow_keeps ..
  | .laneErrorInterval _ _ => execLaneErrorInterval_keeps ..
  | .laneWidthChangeDone _ => execLaneWidthChangeDone_keeps ..
  | .probeBurst _ => .refl s
  | .portBurstHeard _ => execPortBurstHeard_keeps ..
  | .portTrainDone _ _ _ => execPortTrainDone_keeps ..
  | .portAuthDone _ _ => execPortAuthDone_keeps ..
  | .peerAuthTimeout _ => execPeerAuthTimeout_keeps ..
  | .quarantineExpiry _ => execQuarantineExpiry_keeps ..
  | .linkKeyUpdate _ => execLinkKeyUpdate_keeps ..
  | .bindingTableExchange _ _ => .next (State.mapPort_keeps ..)
  | .contextReset _ _ => .next (State.beginCtxReset_keeps ..)
  | .contextResetStopDone _ => execContextResetStopDone_keeps ..
  | .contextResetRestoreDone _ => execContextResetRestoreDone_keeps ..
  | .engineReset _ _ => .next (State.resetEngine_keeps ..)
  | .engineResetDone _ => execEngineResetDone_keeps ..
  | .partitionReset _ _ => .next (State.partitionReset_keeps ..)
  | .partitionStopDone _ => execPartitionStopDone_keeps ..
  | .partitionDumpDone _ => execPartitionDumpDone_keeps ..
  | .partitionRetireDone _ => execPartitionRetireDone_keeps ..
  | .partitionTrainDone _ => execPartitionTrainDone_keeps ..
  | .partitionZeroDone _ => execPartitionZeroDone_keeps ..
  | .chipReset _ => execChipReset_keeps ..
  | .resetEscalated _ _ => execResetEscalated_keeps ..
  | .powerCycleRequest => execPowerCycleRequest_keeps ..
  | .controllerHeartbeatExpiry _ => execControllerHeartbeatExpiry_keeps ..
  | .managementHeartbeatExpiry => execManagementHeartbeatExpiry_keeps ..
  | .readyWatchdogExpiry => execReadyWatchdogExpiry_keeps ..
  | .romStartDone => execRomStartDone_keeps ..
  | .identityDone _ => execIdentityDone_keeps ..
  | .recordsDone => execRecordsDone_keeps ..
  | .bankLoadDone => execBankLoadDone_keeps ..
  | .handoverDone => execHandoverDone_keeps ..
  | .firmwareReady => execFirmwareReady_keeps ..
  | .dumpFlashCopyDone => execDumpFlashCopyDone_keeps ..
  | .pkgResetAssert _ => execPkgResetAssert_keeps ..
  | .pkgResetRelease _ => execPkgResetRelease_keeps ..
  | .pwrGoodRise => execPwrGoodRise_keeps ..
  | .pwrGoodFall => execPwrGoodFall_keeps ..
  | .powerDownStopDone => execPowerDownStopDone_keeps ..
  | .powerBrakeApply _ => execPowerBrakeApply_keeps ..
  | .powerBrakeRelease _ => execPowerBrakeRelease_keeps ..
  | .refclkLost _ => execRefclkLost_keeps ..
  | .refclkReturn _ => execRefclkReturn_keeps ..
  | .islandClockTrim _ => execIslandClockTrim_keeps ..
  | .thermalSample _ => execThermalSample_keeps ..
  | .thermalCapStep _ => execThermalCapStep_keeps ..
  | .powerLimitLoop _ => execPowerLimitLoop_keeps ..
  | .powerStateEnter _ => execPowerStateEnter_keeps ..
  | .powerWake _ => execPowerWake_keeps ..
  | .powerEnable _ => execPowerEnable_keeps ..
  | .portPowerOff _ => execPortPowerOff_keeps ..
  | .patrolScrub _ _ => execPatrolScrub_keeps ..
  | .topsoilScrub _ _ => execTopsoilScrub_keeps ..
  | .equaliserRecalibration _ _ => execEqualiserRecalibration_keeps ..
  | .subsoilRetraining _ _ => execSubsoilRetraining_keeps ..
  | .pageZeroDone _ => execPageZeroDone_keeps ..
  | .flashWearLevelling _ => execFlashWearLevelling_keeps ..
  | .bgDeadlineForced _ => execBgDeadlineForced_keeps ..
  | .telemetrySample _ => execTelemetrySample_keeps ..
  | .sedEventPost _ => .next (State.postEvent_keeps ..)
  | .sedRecordWrite => execSedRecordWrite_keeps ..
  | .sedRecordClose => execSedRecordClose_keeps ..
  | .sedTokenRefill _ => execSedTokenRefill_keeps ..
  | .sedFlush => .next (State.flushLog_keeps ..)
  | .commandSlotRelease conn head slot => execCommandSlotRelease_keeps conn head slot s
  | .powerStateReached _ => execPowerStateReached_keeps ..
  | .powerWakeDone _ => execPowerWakeDone_keeps ..
  | .portOffReturnDone _ => execPortOffReturnDone_keeps ..
  | .exportEnd _ => execExportEnd_keeps ..
  | .controlStateUe _ => execControlStateUe_keeps ..
  | .tapInstruction _ => execTapInstruction_keeps ..
  | .tapReset => .next (.of_eq rfl rfl)

/-! ## A step -/

theorem State.stillWaiting_keeps (s : State) (l : List Instr) : Keeps s (s.stillWaiting l) := .of_eq rfl rfl

/-- With no command in front, the machine takes one that waited, or lets time pass. -/
theorem State.idle_keeps (s : State) : KeepsOut s s.idle := by
  unfold State.idle
  split
  · next before c after _ =>
    have taken : Keeps s { s with ligil := { s.ligil with deferred := [] } } := .of_eq rfl rfl
    split
    · next t run => exact .next (taken.trans ((exec_keeps _ c).at_next t run) |>.trans (State.stillWaiting_keeps ..))
    · next o other => exact ⟨fun t e => absurd e (other t)⟩
  · exact .next ((s.advanceTo_keeps _).trans (State.dueReset_keeps _))

/-- A step takes its command from the queue, which is all that it changes before the command is executed. -/
theorem step_keeps_wf {s t : State} (h : step s = .next t) (wf : Memory.wf s.mem = true) : Memory.wf t.mem = true := by
  unfold step at h
  split at h
  · exact (s.idle_keeps.at_next t h).wf wf
  · next c rest _ => exact ((exec_keeps { s with pending := rest } c).at_next t h).wf wf

/-- Settles O4: every operation of the model that stores puts memory back in canonical form, so every row keeps it, and a step
is one row. -/
theorem everyStepKeepsMemoryCanonical : Obligations.EveryStepKeepsMemoryCanonical := by
  unfold Obligations.EveryStepKeepsMemoryCanonical
  exact fun _ _ wf h => step_keeps_wf h wf

end Sys2Proof.Machine
end

section
/-! PROOFS. What completing an instruction signals (R259, R262, R377): its signals are one update of its context where no
counter overflows. -/

namespace Sys2Proof.Machine

/-! ## Signals that fit -/

theorem signalSum_cons (q : Nat × Nat) (l : List (Nat × Nat)) (k : Nat) :
    signalSum (q :: l) k = (if q.1 = k then q.2 else 0) + signalSum l k := by
  simp only [signalSum, sumNat, ← List.sum_eq_foldl]
  by_cases h : q.1 = k <;> simp [h]

/-- A context whose counter has taken one signal. -/
def Ctx.addSignal (c : Ctx) (q : Nat × Nat) : Ctx := { c with counters := setKey c.counters q.1 (c.counter q.1 + q.2) }

/-- A context whose counters have taken signals in order. -/
def Ctx.addSignals (c : Ctx) (l : List (Nat × Nat)) : Ctx := l.foldl Ctx.addSignal c

theorem Ctx.counter_addSignal (c : Ctx) (q : Nat × Nat) (k : Nat) :
    (c.addSignal q).counter k = c.counter k + if q.1 = k then q.2 else 0 := by
  by_cases h : q.1 = k
  · subst h
    simp [Ctx.addSignal, Ctx.counter]
  · simp [Ctx.addSignal, Ctx.counter, getKey_setKey, h, Ne.symm h]

theorem Ctx.counter_addSignals (c : Ctx) (l : List (Nat × Nat)) (k : Nat) :
    (c.addSignals l).counter k = c.counter k + signalSum l k := by
  induction l generalizing c with
  | nil => rfl
  | cons q l ih =>
    calc ((c.addSignal q).addSignals l).counter k
      _ = (c.addSignal q).counter k + signalSum l k := ih _
      _ = c.counter k + signalSum (q :: l) k := by rw [Ctx.counter_addSignal, signalSum_cons, Nat.add_assoc]

theorem Ctx.addSignals_eq (c : Ctx) (l : List (Nat × Nat)) : ∃ counters, c.addSignals l = { c with counters } := by
  refine List.foldlRecOn (motive := fun d : Ctx => ∃ counters, d = { c with counters }) l _ ⟨c.counters, rfl⟩ ?_
  rintro _ ⟨counters, rfl⟩ q _
  exact ⟨_, rfl⟩

theorem Ctx.addSignals_id (c : Ctx) (l : List (Nat × Nat)) : (c.addSignals l).id = c.id := by
  obtain ⟨_, h⟩ := c.addSignals_eq l
  rw [h]

/-- The first of several signals that fit fits, and the others fit after it. -/
theorem Ctx.fits_cons {c : Ctx} {q : Nat × Nat} {l : List (Nat × Nat)} (h : c.fits (q :: l)) :
    c.counter q.1 + q.2 ≤ 0xFFFFFFFF ∧ (c.addSignal q).fits l := by
  constructor
  · have first := h q.1
    rw [signalSum_cons, if_pos rfl] at first
    omega
  · intro k
    have all := h k
    rw [signalSum_cons] at all
    rw [Ctx.counter_addSignal]
    omega

theorem State.mapCtx_unchanged (s : State) (id : Nat) : s.mapCtx id (fun c => c) = s := by
  simp [State.mapCtx]

theorem State.signal_of_fit {s : State} {id : Nat} {c : Ctx} (hc : s.ctx? id = some c) {q : Nat × Nat}
    (fit : c.counter q.1 + q.2 ≤ 0xFFFFFFFF) (path : Nat) :
    s.signal id path q.1 q.2 = s.mapCtx id fun c => c.addSignal q := by
  simp only [State.signal, hc, if_neg (Nat.not_lt.mpr fit)]
  rfl

theorem State.signal_of_overflow {s : State} {id idx add : Nat} {c : Ctx} (hc : s.ctx? id = some c)
    (overflows : 0xFFFFFFFF < c.counter idx + add) (path : Nat) :
    s.signal id path idx add = s.fault id path (Fail.mk' 0x4002 0) := by
  simp only [State.signal, hc, if_pos overflows]

/-- Signals that fit are one update of the context (R262). -/
theorem State.signalAll_of_fits {s : State} {id : Nat} {c : Ctx} {l : List (Nat × Nat)} (hc : s.ctx? id = some c)
    (fits : c.fits l) (path : Nat) : s.signalAll id path l = s.mapCtx id fun c => c.addSignals l := by
  induction l generalizing s c with
  | nil => exact (s.mapCtx_unchanged id).symm
  | cons q l ih =>
    obtain ⟨first, others⟩ := Ctx.fits_cons fits
    have added : (s.mapCtx id fun c => c.addSignal q).ctx? id = some (c.addSignal q) :=
      State.ctx?_mapCtx_self hc fun _ => rfl
    calc (s.signal id path q.1 q.2).signalAll id path l
      _ = (s.mapCtx id fun c => c.addSignal q).signalAll id path l := by rw [State.signal_of_fit hc first]
      _ = (s.mapCtx id fun c => c.addSignal q).mapCtx id fun c => c.addSignals l := ih added others
      _ = s.mapCtx id fun c => c.addSignals (q :: l) := State.mapCtx_mapCtx s id _ _ fun _ => rfl

/-! ## Retirement -/

/-- A context of which an instruction has retired, with the waits that it then remembers (R463). -/
def Ctx.retired (waits : Ctx → List (Nat × Nat × Nat)) (r : InstrRef) (c : Ctx) : Ctx :=
  ({ c with waits := waits c } : Ctx).mapPlaced r fun p => { p with phase := .retired }

/-- A retirement is one update of the instruction's context. -/
theorem State.retire_eq (s : State) (r : InstrRef) : ∃ waits, s.retire r = s.mapCtx r.ctx (Ctx.retired waits r) := by
  refine ⟨_, State.mapCtx_mapCtx s r.ctx (fun c => { c with waits := _ }) _ fun _ => ?_⟩
  rfl

/-- No instruction that is retired wherever it stands is found. -/
theorem State.found?_of_retired {s : State} {r : InstrRef} {c : Ctx} (hc : s.ctx? r.ctx = some c)
    (retired : ∀ run ∈ c.steps, run.step = r.step → ∀ p ∈ run.placed, p.stream = r.stream → p.index = r.index →
      p.phase = .retired) : s.found? r = none := by
  cases h : s.found? r with
  | none => rfl
  | some f =>
    obtain ⟨found, hrun, hp⟩ := State.found?_eq_some h
    cases hc.symm.trans found
    have step := List.find?_some hrun
    have named := List.find?_some hp
    simp only [Bool.and_eq_true, beq_iff_eq, bne_iff_ne] at step named
    obtain ⟨⟨stream, index⟩, live⟩ := named
    exact absurd (retired _ (List.mem_of_find?_eq_some hrun) step _ (List.mem_of_find?_eq_some hp) stream index) live

theorem Ctx.phase_of_retired (waits : Ctx → List (Nat × Nat × Nat)) (r : InstrRef) (c : Ctx) :
    ∀ run ∈ (c.retired waits r).steps, run.step = r.step → ∀ p ∈ run.placed, p.stream = r.stream → p.index = r.index →
      p.phase = .retired := by
  intro run hrun step p hp stream index
  obtain ⟨x, -, rfl⟩ := List.mem_map.mp hrun
  split at hp
  · obtain ⟨q, -, rfl⟩ := List.mem_map.mp hp
    split
    · rfl
    · next other =>
      rw [if_neg other] at stream index
      exact absurd ⟨stream, index⟩ other
  · next other =>
    rw [if_neg other] at step
    exact absurd step other

/-! ## Completion -/

/-- The end of an instruction that reports no update: outside a context reset its flags are set and its signals performed
(R259, R377). -/
theorem State.completeInstr_of_no_report (s : State) (r : InstrRef) {f : Found} (upd : f.p.upd = none) :
    s.completeInstr r f = if f.ctx.phase = .resetting then s.retire r
      else ((s.retire r).raiseAll r.ctx f.p.flags).signalAll r.ctx f.path (signalsOf f.words) := by
  simp only [State.completeInstr, upd]

theorem KeepsSeen.retire_counters (s : State) (r : InstrRef) : KeepsSeen Ctx.counters s (s.retire r) := by
  obtain ⟨waits, h⟩ := s.retire_eq r
  rw [h]
  exact .mapCtx s r.ctx (fun _ => rfl) fun _ => rfl

theorem KeepsSeen.raiseAll_counters (s : State) (id : Nat) (l : List (Nat × Nat)) :
    KeepsSeen Ctx.counters s (s.raiseAll id l) := by
  refine List.foldlRecOn (motive := KeepsSeen Ctx.counters s) l _ (.refl s) fun t ht q _ => ht.trans ?_
  unfold State.raiseFlags
  split
  · exact .refl t
  · exact .mapCtx t id (fun _ => rfl) fun _ => rfl

theorem SameOthers.foldl {α : Type} {id : Nat} {g : State → α → State} (h : ∀ s a, SameOthers id s (g s a)) (l : List α)
    (s : State) : SameOthers id s (l.foldl g s) :=
  List.foldlRecOn (motive := SameOthers id s) l g (.refl id s) fun t ht a _ => ht.trans (h t a)

theorem SameOthers.retire (s : State) (r : InstrRef) : SameOthers r.ctx s (s.retire r) := by
  obtain ⟨waits, h⟩ := s.retire_eq r
  rw [h]
  exact .mapCtx s r.ctx fun _ => rfl

theorem SameOthers.raiseAll (s : State) (id : Nat) (l : List (Nat × Nat)) : SameOthers id s (s.raiseAll id l) := by
  refine .foldl (fun t q => ?_) l s
  unfold State.raiseFlags
  split
  · exact .refl id t
  · exact .mapCtx t id fun _ => rfl

theorem SameOthers.signal (s : State) (id path idx add : Nat) : SameOthers id s (s.signal id path idx add) := by
  unfold State.signal
  split
  · exact .refl id s
  · split
    · exact .fault s id path _
    · exact .mapCtx s id fun _ => rfl

theorem SameOthers.signalAll (s : State) (id path : Nat) (l : List (Nat × Nat)) : SameOthers id s (s.signalAll id path l) := by
  unfold State.signalAll
  exact .foldl (fun t q => .signal t id path q.1 q.2) l s

theorem SameOthers.completeInstr (s : State) (r : InstrRef) {f : Found} (upd : f.p.upd = none) :
    SameOthers r.ctx s (s.completeInstr r f) := by
  rw [State.completeInstr_of_no_report s r upd]
  split
  · exact .retire s r
  · exact ((SameOthers.retire s r).trans (.raiseAll _ r.ctx _)).trans (.signalAll _ r.ctx f.path _)

/-- Outside a context reset the context's counters take the signals of an instruction that completes (R259). -/
theorem State.counter_completeInstr {s : State} {r : InstrRef} {f : Found} (found : s.found? r = some f)
    (upd : f.p.upd = none) (notResetting : f.ctx.phase ≠ .resetting) (fits : f.ctx.fits (signalsOf f.words)) :
    ∃ c, (s.completeInstr r f).ctx? r.ctx = some c ∧
      ∀ k, c.counter k = f.ctx.counter k + signalSum (signalsOf f.words) k := by
  obtain ⟨d, hd, counters⟩ := ((KeepsSeen.retire_counters s r).trans (.raiseAll_counters _ r.ctx f.p.flags)).exists_after
    (State.ctx?_of_found found)
  have same (k : Nat) : d.counter k = f.ctx.counter k := by rw [Ctx.counter, counters, ← Ctx.counter]
  have fits' : d.fits (signalsOf f.words) := fun k => by rw [same]; exact fits k
  refine ⟨d.addSignals (signalsOf f.words), ?_, fun k => by rw [Ctx.counter_addSignals, same]⟩
  rw [State.completeInstr_of_no_report s r upd, if_neg notResetting, State.signalAll_of_fits hd fits']
  exact State.ctx?_mapCtx_self hd fun c => c.addSignals_id _

/-- Settles O16: a retirement and the flags touch no counter, and signals that fit are one update of the context. -/
theorem completionSignalsOrFaults : Obligations.CompletionSignalsOrFaults := by
  unfold Obligations.CompletionSignalsOrFaults
  refine ⟨fun s r f found upd => ⟨fun resetting => ?_, State.counter_completeInstr found upd, ?_, ?_, ?_⟩,
    fun s id path idx add c hc => ⟨fun overflows => State.signal_of_overflow hc overflows path, fun fit => ?_⟩⟩
  · rw [State.completeInstr_of_no_report s r upd, if_pos resetting]
    exact (KeepsSeen.retire_counters s r).exists_after (State.ctx?_of_found found)
  · exact (SameArbiter.completeInstr s r f).mem
  · exact (SameArbiter.completeInstr s r f).toSameDevice
  · exact .completeInstr s r upd
  · obtain ⟨d, hd, counter, rfl⟩ := State.signal_counter (path := path) hc fit
    refine ⟨_, hd, ?_, fun k other => ?_, rfl, rfl⟩
    · rw [counter, if_pos rfl]
    · rw [counter, if_neg other]

end Sys2Proof.Machine
end

section
/-! PROOFS. The control lane's NOP, SYN_WAIT and SYN_SIGNAL (R262, R263, R272): they complete, or wait where they stand. -/

namespace Sys2Proof.Machine

/-- A lane issues no instruction whose wait does not hold (R266). -/
theorem State.issuable_of_waits {s : State} {f : Found} (waits : s.waitHolds f = false) : s.issuable f = false := by
  simp [State.issuable, waits]

/-- A lane issues for a running context alone (R337). -/
theorem State.running_of_issuable {s : State} {f : Found} (h : s.issuable f = true) : f.ctx.phase = .running := by
  cases placing : f.ctx.placing with
  | true => exact Ctx.phase_of_placing placing
  | false => simp [State.issuable, State.atHead, placing] at h

/-- The row of a control instruction that its lane does not issue: it stays where it is (R263). -/
theorem exec_control_stays {s : State} {r : InstrRef} {f : Found} {ok : Found → Bool}
    {act : Found → State → Except Fail State} {i : Instr} (row : exec i s = .next (s.control r ok act))
    (found : (s.decideEntry r).found? r = some f) (stays : (s.decideEntry r).issuable f = false) :
    exec i s = .next (s.decideEntry r) := by
  simp [row, State.control, found, stays]

theorem State.not_endReady {s : State} {f : Found} (stays : s.issuable f = false) (op : Nat) :
    s.endReady f op = false := by
  simp [State.endReady, stays]

/-- The completion of an instruction without flags whose signals fit is one update of its context (R259). -/
theorem State.completeInstr_of_fits {s : State} {r : InstrRef} {f : Found} (found : s.found? r = some f)
    (upd : f.p.upd = none) (flags : f.p.flags = []) (notResetting : f.ctx.phase ≠ .resetting)
    (fits : f.ctx.fits (signalsOf f.words)) : ∃ waits,
      s.completeInstr r f = s.mapCtx r.ctx fun c => (c.retired waits r).addSignals (signalsOf f.words) := by
  obtain ⟨waits, retired⟩ := s.retire_eq r
  have left : (s.mapCtx r.ctx (Ctx.retired waits r)).ctx? r.ctx = some (f.ctx.retired waits r) :=
    State.ctx?_mapCtx_self (State.ctx?_of_found found) fun _ => rfl
  have fits' : (f.ctx.retired waits r).fits (signalsOf f.words) := fits
  refine ⟨waits, ?_⟩
  rw [State.completeInstr_of_no_report s r upd, if_neg notResetting, flags, retired]
  calc (s.mapCtx r.ctx (Ctx.retired waits r)).signalAll r.ctx f.path (signalsOf f.words)
    _ = (s.mapCtx r.ctx (Ctx.retired waits r)).mapCtx r.ctx fun c => c.addSignals (signalsOf f.words) :=
      State.signalAll_of_fits left fits' f.path
    _ = _ := State.mapCtx_mapCtx s r.ctx _ _ fun _ => rfl

/-- The row of a control instruction that has no effect but its completion. -/
theorem exec_control_completes {i : Instr} {s : State} {r : InstrRef} {op : Nat} {f : Found}
    (row : exec i s = .next (s.control r (fun f => wOp f.words == op) fun _ s => .ok s)) (hop : wOp f.words = op)
    (found : (s.decideEntry r).found? r = some f) (issuable : (s.decideEntry r).issuable f = true)
    (active : ((s.decideEntry r).workUnits f).all (s.decideEntry r).active = true) :
    exec i s = .next ((s.decideEntry r).completeInstr r f) := by
  refine exec_control_ok found issuable active row ?_ rfl
  exact beq_iff_eq.mpr hop

theorem State.decideEntry_sed_ligil (s : State) (r : InstrRef) :
    (s.decideEntry r).sed = s.sed ∧ (s.decideEntry r).ligil = s.ligil := by
  rcases s.decideEntry_cases r with e | ⟨f, -, e⟩ <;> simp [e]

/-- Settles O7: each of the three rows completes its instruction, which is one update of the context; a row whose instruction
waits stops at the decision of R268, and a step end before it. -/
theorem controlLaneInstructionsRetireAndSignal : Obligations.ControlLaneInstructionsRetireAndSignal := by
  unfold Obligations.ControlLaneInstructionsRetireAndSignal
  constructor
  · rintro s _ r f i rfl found issuable active upd flags fits named
    have row : exec i s = .next ((s.decideEntry r).completeInstr r f) := by
      rcases named with ⟨rfl, hop⟩ | ⟨rfl, hop⟩ | ⟨rfl, hop⟩ <;>
        exact exec_control_completes rfl hop found issuable active
    have notResetting : f.ctx.phase ≠ .resetting := by simp [State.running_of_issuable issuable]
    obtain ⟨waits, completes⟩ := State.completeInstr_of_fits found upd flags notResetting fits
    have hid (c : Ctx) := (c.retired waits r).addSignals_id (signalsOf f.words)
    have left := State.ctx?_mapCtx_self (State.ctx?_of_found found) hid
    obtain ⟨counters, same⟩ := (f.ctx.retired waits r).addSignals_eq (signalsOf f.words)
    obtain ⟨sed, ligil⟩ := s.decideEntry_sed_ligil r
    rw [completes] at row
    refine ⟨_, _, row, State.found?_of_retired left ?_, left, (f.ctx.retired waits r).counter_addSignals _, ?_, ?_, ?_, ?_, ?_,
      s.decideEntry_mem r, (SameOthers.decideEntry s r).trans (.mapCtx _ r.ctx hid),
      (SameDevice.decideEntry s r).trans (.mapCtx ..), sed, ligil⟩
    · rw [same]
      exact f.ctx.phase_of_retired waits r
    all_goals rw [same]; rfl
  · rintro s _ r f rfl
    constructor
    · intro found waits
      have stays := State.issuable_of_waits waits
      refine ⟨?_, ?_, ?_, ?_, ?_, ?_, ?_⟩ <;> exact exec_control_stays rfl found stays
    · intro found waits
      have notReady := State.not_endReady (State.issuable_of_waits waits)
      have stepRow : exec (.stepEnd r) s = execStepEnd r s := rfl
      have loopRow : exec (.loopEnd r) s = execLoopEnd r s := rfl
      exact ⟨by simp [stepRow, execStepEnd, found, notReady], by simp [loopRow, execLoopEnd, found, notReady]⟩

end Sys2Proof.Machine
end

section
/-! PROOFS. LANE_ISSUE (R266, R464), and the completions of INSTRUCTION_COMPLETE, COPY_COMPLETE and PORT_COPY_COMPLETION
(R259, R285, R312). -/

namespace Sys2Proof.Machine

/-! ## An issued instruction -/

/-- An instruction whose record is updated, and that is not retired by it, is found with the update of a record. -/
theorem State.found?_mapPlaced_live {s : State} {r : InstrRef} {f : Found} (h : s.found? r = some f) {m : Placed → Placed}
    (hm : ∀ p, (m p).stream = p.stream ∧ (m p).index = p.index ∧ (m p).phase ≠ .retired) :
    ∃ g p, (s.mapPlaced r m).found? r = some g ∧ g.p = m p := by
  obtain ⟨hc, hrun, hp⟩ := State.found?_eq_some h
  have step : f.run.step = r.step := by simpa using List.find?_some hrun
  have run := find?_map_if (c := fun run => decide (run.step = r.step)) (m := StepRun.mapPlaced r m) (fun _ => rfl) hrun
  simp only [decide_eq_true_eq, if_pos step] at run
  have named := List.find?_some hp
  simp only [Bool.and_eq_true, beq_iff_eq] at named
  obtain ⟨⟨stream, index⟩, -⟩ := named
  obtain ⟨sameStream, sameIndex, live⟩ := hm f.p
  obtain ⟨p, found, fits⟩ := exists_find?_map
    (q := fun p => p.stream == r.stream && p.index == r.index && p.phase != .retired)
    (m := fun p => if p.stream = r.stream ∧ p.index = r.index then m p else p)
    (List.mem_of_find?_eq_some hp) (by simp [stream, index, sameStream, sameIndex, live])
  have updated : p.stream = r.stream ∧ p.index = r.index := by
    by_contra other
    simp only [if_neg other, Bool.and_eq_true, beq_iff_eq] at fits
    obtain ⟨named, -⟩ := fits
    exact other named
  rw [if_pos updated] at found
  obtain ⟨g, hg, e⟩ := State.found?_of (s := s.mapPlaced r m) (State.ctx?_mapCtx_self hc fun _ => rfl) run found
  exact ⟨g, p, hg, e⟩

theorem State.words_of_found {s : State} {r : InstrRef} {f : Found} (h : s.found? r = some f) :
    f.words = f.ctx.words r.stream r.index := by
  unfold State.found? at h
  split at h
  · cases h
  · split at h
    · cases h
    · split at h
      · cases h
      · cases h
        rfl

theorem Ctx.words_congr {c d : Ctx} (h : d.plan = c.plan) (stream index : Nat) : d.words stream index = c.words stream index := by
  unfold Ctx.words Ctx.stream?
  rw [h]

/-- The plan, counters and grain registers of a context. -/
def Ctx.loaded (c : Ctx) : Option Plan × List (Nat × Nat) × List (Nat × GrainRegs) := (c.plan, c.counters, c.grains)

theorem KeepsSeen.meetKeys_loaded (s : State) (id : Nat) (draws : Bool) : KeepsSeen Ctx.loaded s (s.meetKeys id draws) := by
  cases draws with
  | false => exact .refl s
  | true =>
    refine KeepsSeen.trans (t := s.draw.2) (.of_ctxs rfl) (.mapCtx _ id ?_ ?_)
    all_goals exact fun _ => rfl

theorem KeepsSeen.issue_loaded (s : State) (r : InstrRef) (f : Found) (l : Lane) :
    KeepsSeen Ctx.loaded s (s.issue r f l) := by
  refine (KeepsSeen.meetKeys_loaded s r.ctx _).trans (KeepsSeen.trans (.mapCtx _ r.ctx (m := fun c =>
    c.workArrives f.path (s.unitGrains f)) (fun _ => rfl) fun _ => rfl) (.mapCtx _ r.ctx (fun _ => rfl) fun _ => rfl))

theorem SameOthers.issue (s : State) (r : InstrRef) (f : Found) (l : Lane) : SameOthers r.ctx s (s.issue r f l) :=
  (SameOthers.meetKeys s r.ctx _).trans (SameOthers.trans (.mapCtx _ r.ctx (f := fun c =>
    c.workArrives f.path (s.unitGrains f)) fun _ => rfl) (.mapCtx _ r.ctx fun _ => rfl))

theorem SameDevice.issue (s : State) (r : InstrRef) (f : Found) (l : Lane) : SameDevice s (s.issue r f l) :=
  (SameDevice.meetKeys s r.ctx _).trans (SameDevice.trans (.mapCtx ..) (.mapCtx ..))

theorem State.issue_mem (s : State) (r : InstrRef) (f : Found) (l : Lane) : (s.issue r f l).mem = s.mem :=
  s.meetKeys_mem r.ctx _

/-- An instruction that a lane issues is found issued at this moment, with its words as they were (R266). -/
theorem State.found?_issue {s : State} {r : InstrRef} {f : Found} (h : s.found? r = some f) (l : Lane) :
    ∃ g, (s.issue r f l).found? r = some g ∧ g.p.phase = .issued ∧ g.p.issuedAt = s.now ∧ g.words = f.words ∧
      g.ctx.counters = f.ctx.counters ∧ g.ctx.grains = f.ctx.grains := by
  obtain ⟨f₁, found₁, -⟩ := State.found?_meetKeys h (f.ctx.plan.any fun p => p.drawsKey f.words)
  obtain ⟨f₂, found₂, -⟩ := State.found?_mapCtx found₁ (m := fun c => c.workArrives f.path (s.unitGrains f))
    (fun _ => rfl) fun _ => rfl
  obtain ⟨g, p, found, updated⟩ := State.found?_mapPlaced_live found₂ (m := fun p =>
    { p with phase := .issued, issuedAt := s.now
             rdir := if l = .vector then s.sampleRdir f.ctx f.path else p.rdir
             since := if wOp f.words = 0x32 then none else p.since
             gateDue := if wOp f.words = 0x32 then some (s.now + f.ctx.stallUs) else none }) fun _ => ⟨rfl, rfl, nofun⟩
  have issued : (s.issue r f l).found? r = some g := found
  obtain ⟨d, hd, same⟩ := (KeepsSeen.issue_loaded s r f l).exists_after (State.ctx?_of_found h)
  cases hd.symm.trans (State.ctx?_of_found issued)
  simp only [Ctx.loaded, Prod.mk.injEq] at same
  obtain ⟨plan, counters, grains⟩ := same
  refine ⟨g, issued, by rw [updated], by rw [updated], ?_, counters, grains⟩
  rw [State.words_of_found issued, State.words_of_found h, Ctx.words_congr plan]

/-! ## LANE_ISSUE -/

theorem State.decideEntry_now (s : State) (r : InstrRef) : (s.decideEntry r).now = s.now := by
  rcases s.decideEntry_cases r with e | ⟨f, -, e⟩ <;> simp [e]

/-- Waking units changes their power records alone (R464). -/
theorem State.wake_eq (s : State) (l : List Nat) : ∃ power, s.wake l = { s with power } := by
  refine List.foldlRecOn (motive := fun t : State => ∃ power, t = { s with power }) l _ ⟨s.power, rfl⟩ ?_
  rintro _ ⟨power, rfl⟩ p _
  rcases State.enable_cases { s with power } p with e | ⟨u, e⟩
  · exact ⟨power, e⟩
  · exact ⟨_, e⟩

theorem State.wake_ctxs (s : State) (l : List Nat) : (s.wake l).ctxs = s.ctxs := by
  obtain ⟨power, h⟩ := s.wake_eq l
  rw [h]

/-- The division among the grains in service depends on which those are alone (R280). -/
theorem State.shares_congr {s t : State} (h : t.caps = s.caps) (fuel path lo hi : Nat) :
    t.shares fuel path lo hi = s.shares fuel path lo hi := by
  have grains : t.grainOk = s.grainOk := funext fun g => by rw [State.grainOk, h, ← State.grainOk]
  have children (path : Nat) : t.children path = s.children path := by rw [State.children, grains, ← State.children]
  induction fuel generalizing path lo hi with
  | zero => rfl
  | succ fuel ih => simp only [State.shares, children, ih]

/-- Waking units leaves which units take up an instruction. -/
theorem State.workUnits_wake (s : State) (l : List Nat) (f : Found) : (s.wake l).workUnits f = s.workUnits f := by
  obtain ⟨power, h⟩ := s.wake_eq l
  have shares : (s.wake l).shares = s.shares := by
    funext fuel path lo hi
    exact State.shares_congr (by rw [h]) fuel path lo hi
  simp only [State.workUnits, State.unitGrains, State.shareGrains, State.divide, shares]

section
variable {s : State} {r : InstrRef} {f : Found} {l : Lane} (found : (s.decideEntry r).found? r = some f)
  (lane : laneOf f.words = some l)
include found lane

theorem exec_laneIssue_issues (stream : l.isArray = false) (other : l ≠ .control)
    (issuable : (s.decideEntry r).issuable f = true)
    (active : ((s.decideEntry r).workUnits f).all (s.decideEntry r).active = true) :
    exec (.laneIssue r) s = .next ((s.decideEntry r).issue r f l) := by
  change execLaneIssue r s = _
  simp [execLaneIssue, found, lane, stream, other, issuable, State.wake_of_active active, active]

theorem exec_laneIssue_wakes (stream : l.isArray = false) (other : l ≠ .control)
    (issuable : (s.decideEntry r).issuable f = true)
    (asleep : ((s.decideEntry r).workUnits f).all ((s.decideEntry r).wake ((s.decideEntry r).workUnits f)).active = false) :
    exec (.laneIssue r) s = .next ((s.decideEntry r).wake ((s.decideEntry r).workUnits f)) := by
  change execLaneIssue r s = _
  simp only [execLaneIssue, found, lane, State.workUnits_wake, asleep]
  simp [stream, other, issuable]

theorem exec_laneIssue_stays (stays : (s.decideEntry r).issuable f = false) :
    exec (.laneIssue r) s = .next (s.decideEntry r) := by
  change execLaneIssue r s = _
  simp [execLaneIssue, found, lane, stays]

end

/-! ## The completions of executed instructions -/

/-- A product of which no grain queues, holds or runs an item has none left (R161). -/
theorem State.itemsLeft_of_none {s : State} {r : InstrRef}
    (h : ∀ q ∈ s.scheds, ∀ i ∈ q.2.queue ++ q.2.fwd ++ q.2.bwd ++ q.2.running.map (fun x => x.2.1), i.ref ≠ r) :
    s.itemsLeft r = false := by
  rw [State.itemsLeft, List.any_eq_false]
  intro q hq
  rw [Bool.not_eq_true, List.any_eq_false]
  exact fun i hi => by simpa using h q hq i hi

section
variable {s : State} {r : InstrRef} {f : Found} (found : s.found? r = some f) (executed : f.p.phase = .executed)
include found executed

theorem exec_instructionComplete_unit (lane : laneOf f.words = some .vector ∨ laneOf f.words = some .conversion) :
    exec (.instructionComplete r) s = .next ((s.unitsRetire f).completeInstr r f) := by
  change execInstructionComplete r s = _
  rcases lane with lane | lane <;> simp [execInstructionComplete, found, lane, executed]

theorem exec_instructionComplete_array (lane : laneOf f.words = some .forward ∨ laneOf f.words = some .backward)
    (done : s.itemsLeft r = false) : exec (.instructionComplete r) s = .next (s.completeInstr r f) := by
  change execInstructionComplete r s = _
  rcases lane with lane | lane <;> simp [execInstructionComplete, found, lane, executed, done]

theorem exec_copyComplete (hop : wOp f.words = 0x40) :
    exec (.copyComplete r) s = .next ((s.copyRetires f.words (copyLen f.words)).completeInstr r f) := by
  change execCopyComplete r s = _
  simp [execCopyComplete, found, hop, executed]

/-- What the end of a port copy comes to, by how it ended (R312, R313). -/
theorem exec_portCopyCompletion (hop : wOp f.words = 0x44) :
    exec (.portCopyCompletion r .written) s =
      .next ((s.copyRetires f.words (portLines f.words * 64)).completeInstr r f) ∧
    exec (.portCopyCompletion r .notReceiving) s = .next (s.copyEnded r (copyPortOf f.words)) ∧
    exec (.portCopyCompletion r .violation) s = .next (s.fault r.ctx f.path windowViolation) := by
  have row (how : CopyEnd) : exec (.portCopyCompletion r how) s = execPortCopyCompletion r how s := rfl
  simp [row, execPortCopyCompletion, found, hop, executed]

end

/-- Settles O10: the issue updates the instruction's own context alone, waking touches no context, and each completion's row
is one lemma above. -/
theorem lanesIssueAndComplete : Obligations.LanesIssueAndComplete := by
  unfold Obligations.LanesIssueAndComplete
  constructor
  · rintro s _ r f l rfl found lane stream other
    refine ⟨fun issuable active => ?_, fun issuable => ⟨State.wake_ctxs .., fun asleep => ?_⟩,
      exec_laneIssue_stays found lane⟩
    · obtain ⟨g, hg, phase, at_, words, counters, grains⟩ := State.found?_issue found l
      exact ⟨_, g, exec_laneIssue_issues found lane stream other issuable active, hg, phase,
        at_.trans (s.decideEntry_now r), words, counters, grains, (State.issue_mem ..).trans (s.decideEntry_mem r),
        (SameOthers.decideEntry s r).trans (.issue _ r f l), (SameDevice.decideEntry s r).trans (.issue _ r f l)⟩
    · exact exec_laneIssue_wakes found lane stream other issuable asleep
  · intro s r f found executed
    exact ⟨exec_instructionComplete_unit found executed,
      fun lane none => exec_instructionComplete_array found executed lane (State.itemsLeft_of_none none),
      exec_copyComplete found executed, exec_portCopyCompletion found executed⟩

end Sys2Proof.Machine
end

section
/-! PROOFS. What writes through a context's window, the end of a grant and an initialised history leave alone (R134, R139,
R222, R244): the course of the context's plan, every other context, the time, and which sessions are open. -/

namespace Sys2Proof.Machine

/-- Both of two operations in succession succeed where the second one's answer is reached. -/
theorem ok_of_bind_eq_ok {α β : Type} {x : Except Fail α} {g : α → Except Fail β} {b : β} (h : (x >>= g) = .ok b) :
    ∃ a, x = .ok a ∧ g a = .ok b := by
  cases x with
  | error e => cases h
  | ok a => exact ⟨a, rfl, h⟩

/-- An event queued for a session leaves every session open, with the responses in its slots (R336). -/
theorem State.session?_notifySession {s : State} {k : Nat} {x : Session} (hx : s.session? k = some x) (j : Nat) (n : Notice) :
    ∃ y, (s.notifySession j n).session? k = some y ∧ y.slots = x.slots := by
  have after := State.session?_mapSession s j k (f := fun se => { se with
    events := (pushNotice se.events se.lost n).1, lost := (pushNotice se.events se.lost n).2 }) fun _ => rfl
  rw [hx] at after
  by_cases e : k = j
  · exact ⟨_, after.trans (if_pos e), rfl⟩
  · exact ⟨x, after.trans (if_neg e), rfl⟩

/-- The plan, phase, steps and counters of a context, and the step it expects next. -/
def Ctx.planCourse (c : Ctx) : Option Plan × CtxPhase × List StepRun × List (Nat × Nat) × Nat :=
  (c.plan, c.phase, c.steps, c.counters, c.lgl.nextStep)

/-- An operation on a context that leaves the course of its plan. -/
structure KeepsCourse (id : Nat) (s t : State) : Prop extends KeepsSeen Ctx.planCourse s t where
  others : SameOthers id s t
  now : t.now = s.now
  sessions : ∀ j x, s.session? j = some x → ∃ y, t.session? j = some y

namespace KeepsCourse

variable {id : Nat}

theorem refl (s : State) : KeepsCourse id s s := ⟨.refl s, .refl id s, rfl, fun _ x h => ⟨x, h⟩⟩

theorem trans {s t u : State} (h : KeepsCourse id s t) (k : KeepsCourse id t u) : KeepsCourse id s u := by
  refine ⟨h.toKeepsSeen.trans k.toKeepsSeen, h.others.trans k.others, k.now.trans h.now, fun j x hx => ?_⟩
  obtain ⟨y, hy⟩ := h.sessions j x hx
  exact k.sessions j y hy

theorem foldl {α : Type} {g : State → α → State} (h : ∀ s a, KeepsCourse id s (g s a)) (l : List α) (s : State) :
    KeepsCourse id s (l.foldl g s) :=
  List.foldlRecOn (motive := KeepsCourse id s) l g (.refl s) fun t ht a _ => ht.trans (h t a)

/-- An operation that touches neither contexts nor sessions nor the time. -/
theorem of_eq {s t : State} (hc : t.ctxs = s.ctxs) (hn : t.now = s.now) (hl : t.ligil = s.ligil) : KeepsCourse id s t := by
  refine ⟨.of_ctxs hc, fun j _ => ?_, hn, fun j x hx => ⟨x, ?_⟩⟩
  · rw [State.ctx?, hc, ← State.ctx?]
  · rwa [State.session?, hl]

theorem mapCtx (s : State) {m : Ctx → Ctx} (hid : ∀ c, (m c).id = c.id) (hm : ∀ c, (m c).planCourse = c.planCourse) :
    KeepsCourse id s (s.mapCtx id m) :=
  ⟨.mapCtx s id hid hm, .mapCtx s id hid, rfl, fun _ x hx => ⟨x, hx⟩⟩

theorem raise (s : State) (code detail src ctx : Nat) : KeepsCourse id s (s.raise code detail src ctx) := of_eq rfl rfl rfl

/-! ### Notices and snapshot pages -/

theorem notifySession (s : State) (j : Nat) (n : Notice) : KeepsCourse id s (s.notifySession j n) := by
  refine ⟨.of_ctxs rfl, fun _ _ => rfl, rfl, fun k x hx => ?_⟩
  obtain ⟨y, hy, -⟩ := State.session?_notifySession hx j n
  exact ⟨y, hy⟩

theorem notify (s : State) (code detail step : Nat) (data : List Nat) :
    KeepsCourse id s (s.notify id code detail step data) := by
  unfold State.notify
  split
  · exact .refl s
  · dsimp only
    split
    · exact notifySession s ..
    · exact mapCtx s (fun _ => rfl) fun _ => rfl

theorem snapComplete (s : State) : KeepsCourse id s (s.snapComplete id) := by
  have noted (snap : Option Snapshot) (rst : Ctx → ResetRegs) :
      KeepsCourse id s (s.mapCtx id fun c => { c with snap, rst := rst c }) := mapCtx s (fun _ => rfl) fun _ => rfl
  unfold State.snapComplete
  split
  · exact .refl s
  · split
    · split
      · dsimp only
        split
        · exact (noted ..).trans (notify ..)
        · exact noted ..
      · exact .refl s
    · exact .refl s

theorem mapSnap (s : State) (m : Option Snapshot → Option Snapshot) :
    KeepsCourse id s (s.mapCtx id fun c => { c with snap := m c.snap }) := mapCtx s (fun _ => rfl) fun _ => rfl

theorem releaseSlot (s : State) (win : Nat) : KeepsCourse id s (s.releaseSlot id win) := by
  unfold State.releaseSlot
  split
  · exact .refl s
  · split
    · exact .refl s
    · split
      · dsimp only
        refine (trans ?_ (mapSnap ..)).trans (snapComplete _)
        split
        · exact of_eq rfl rfl rfl
        · exact .refl s
      · exact .refl s

theorem firstWrite (s : State) (off : Nat) : KeepsCourse id s (s.firstWrite id off) := by
  unfold State.firstWrite
  split
  · split
    · dsimp only
      split
      · exact ((mapSnap ..).trans (releaseSlot ..)).trans (mapCtx _ (m := Ctx.countTouch) (fun _ => rfl) fun _ => rfl)
      · exact mapSnap ..
    · exact .refl s
  · exact .refl s

/-! ### Writes through a window -/

theorem wrPage {s t : State} {off : Nat} {bs : List Byte} (h : s.wrPage id off bs = .ok t) : KeepsCourse id s t := by
  unfold State.wrPage at h
  split at h
  · cases h
  · split at h
    · split at h <;> cases h
      exact (firstWrite ..).trans (of_eq rfl rfl rfl)
    · cases h
    · split at h <;> cases h
      exact .refl s

theorem wrPages {k : Nat} {s t : State} {off : Nat} {bs : List Byte} (h : State.wrPages k s id off bs = .ok t) :
    KeepsCourse id s t := by
  induction k generalizing s off bs with
  | zero =>
    cases h
    exact .refl _
  | succ k ih =>
    unfold State.wrPages at h
    split at h
    · cases h
      exact .refl _
    · dsimp only at h
      split at h
      · cases h
      · next s' first => exact (wrPage first).trans (ih h)

theorem setRecFlags {s t : State} {off : Nat} {mark wide hist : Bool} (h : s.setRecFlags id off mark wide hist = .ok t) :
    KeepsCourse id s t := wrPages h

/-- A succession of steps that may fail, where none does. -/
theorem foldlM {α : Type} {g : State → α → Except Fail State} (h : ∀ s a t, g s a = .ok t → KeepsCourse id s t) {l : List α}
    {s t : State} (ran : l.foldlM g s = .ok t) : KeepsCourse id s t := by
  induction l generalizing s with
  | nil =>
    cases ran
    exact .refl _
  | cons a l ih =>
    rw [List.foldlM_cons] at ran
    obtain ⟨u, first, others⟩ := ok_of_bind_eq_ok ran
    exact (h s a u first).trans (ih others)

/-! ### Grants (R134, R135) -/

/-- A context without fall-back pages, which are zeroed. -/
theorem clearFallback (s : State) (mem : List Host.Cell) (bg : Background) :
    KeepsCourse id s (State.mapCtx { s with mem, bg } id fun c => { c with pages := { c.pages with fallback := [] } }) :=
  (of_eq rfl rfl rfl : KeepsCourse id s { s with mem, bg }).trans (mapCtx _ (fun _ => rfl) fun _ => rfl)

theorem dropFallback (s : State) : KeepsCourse id s (s.dropFallback id) := by
  unfold State.dropFallback
  split
  · exact .refl s
  · exact clearFallback ..

theorem endGrant {s t : State} {p : Plan} (h : s.endGrant id p = .ok t) : KeepsCourse id s t := by
  unfold State.endGrant at h
  split at h
  · cases h
  · refine (clearFallback s ..).trans (foldlM (fun u x v ran => ?_) h)
    obtain ⟨rc, ran⟩ := exists_of_bind_eq_ok ran
    split at ran
    · exact setRecFlags ran
    · cases ran
      exact .refl u

theorem mapSieve (s : State) (m : Ctx → SieveRegs) : KeepsCourse id s (s.mapCtx id fun c => { c with sieve := m c }) :=
  mapCtx s (fun _ => rfl) fun _ => rfl

theorem dropGrant (s : State) : KeepsCourse id s (s.dropGrant id) := by
  unfold State.dropGrant
  refine trans ?_ (mapSieve ..)
  split
  · exact dropFallback s
  · split
    · next t ended => exact endGrant ended
    · exact dropFallback s

theorem noGrant (s : State) (step : Nat) : KeepsCourse id s (s.noGrant id step) := by
  unfold State.noGrant
  split
  · exact .refl s
  · split
    · exact .refl s
    · exact (dropGrant s).trans (mapSieve ..)

/-! ### Sieve history (R139) -/

theorem initHistory (s : State) (x : Tensor) : KeepsCourse id s (s.initHistory id x) := by
  unfold State.initHistory
  split
  · exact .refl s
  · split
    · exact .refl s
    · dsimp only
      split
      · next t written =>
        obtain ⟨u, first, blocks⟩ := ok_of_bind_eq_ok written
        exact (wrPage first).trans (wrPages blocks)
      · exact .refl s

theorem historyAbsent (s : State) (n : Nat) : KeepsCourse id s (s.historyAbsent id n) := by
  unfold State.historyAbsent
  split
  · exact .refl s
  · exact raise ..

end KeepsCourse

end Sys2Proof.Machine
end

section
/-! PROOFS. LOAD_PLAN (R253, R254, R349): the plan that an image offers is installed, or the image is refused. -/

namespace Sys2Proof.Machine

/-! ## The plan is installed -/

/-- A context whose plan is replaced (R254, R349). -/
def Ctx.withPlan (p : Plan) (c : Ctx) : Ctx :=
  { c with
    phase := .ready, plan := some p, steps := [], counters := [], early := [], waits := []
    snap := c.snap.map fun q => { q with ofPlan := false }
    lgl := { c.lgl with nextStep := p.nFirst }
    rst := { c.rst with reference := none } }

/-- An accepted plan replaces the old one once its grant has ended, and what follows leaves the new one's course. -/
theorem State.acceptPlan_course {s : State} {id : Nat} {c : Ctx} (hc : s.ctx? id = some c) (p : Plan) :
    KeepsCourse id ((s.dropGrant id).mapCtx id (Ctx.withPlan p)) (s.acceptPlan id p) := by
  unfold State.acceptPlan
  rw [hc]
  refine (KeepsCourse.trans (.foldl (fun t x => .initHistory t x) _ _) (.mapCtx _ ?_ ?_)).trans (.historyAbsent ..)
  all_goals exact fun _ => rfl

/-- The context as an accepted plan leaves it: READY at the plan's first step, with every counter 0 (R254). -/
theorem State.ctx?_acceptPlan {s : State} {id : Nat} {c : Ctx} (hc : s.ctx? id = some c) (p : Plan) :
    ∃ d, (s.acceptPlan id p).ctx? id = some d ∧ d.planCourse = (some p, .ready, [], [], p.nFirst) := by
  obtain ⟨c', hc', -⟩ := (KeepsCourse.dropGrant (id := id) s).exists_after hc
  exact (State.acceptPlan_course hc p).exists_after (State.ctx?_mapCtx_self hc' fun _ => rfl)

theorem SameOthers.acceptPlan {s : State} {id : Nat} {c : Ctx} (hc : s.ctx? id = some c) (p : Plan) :
    SameOthers id s (s.acceptPlan id p) :=
  ((KeepsCourse.dropGrant s).others.trans (.mapCtx _ id (f := Ctx.withPlan p) fun _ => rfl)).trans
    (State.acceptPlan_course hc p).others

theorem State.session?_acceptPlan {s : State} {id j : Nat} {c : Ctx} {x : Session} (hc : s.ctx? id = some c)
    (hx : s.session? j = some x) (p : Plan) : ∃ y, (s.acceptPlan id p).session? j = some y := by
  obtain ⟨y, hy⟩ := (KeepsCourse.dropGrant (id := id) s).sessions j x hx
  exact (State.acceptPlan_course hc p).sessions j y hy

/-! ## The command -/

theorem exec_loadPlan {s : State} {sl : Slot} {se : Session} (h : Accepted s sl se) (code : sl.cmd = 0x20) :
    exec (.loadPlan sl) s = .next (State.loadPlan sl se (s.advanceSeq se.id sl)) := by
  have row : exec (.loadPlan sl) s = execLoadPlan sl s := rfl
  rw [row, execLoadPlan, code, beq_self_eq_true, State.command_of_accepted h]

/-- The arguments that LOAD_PLAN asks for (R349). -/
structure PlanArgs (sl : Slot) : Prop where
  empty : sl.len = 0
  named : sl.ctxOk = true
  offset : sl.w 6 < 65536
  nonzero : sl.w 7 ≠ 0
  offsetAligned : sl.w48 5 % 64 = 0
  lengthAligned : sl.w 7 % 64 = 0

section
variable {s : State} {sl : Slot} {c : Ctx} (se : Session) (hc : s.ctx? (sl.w 4 % 256) = some c) (args : PlanArgs sl)
include hc args

theorem State.loadPlan_installs {p : Plan} (offered : s.offered c (sl.w48 5) (sl.w 7) = .ok p) :
    State.loadPlan sl se s = (s.acceptPlan c.id p).ok se.id sl := by
  obtain ⟨empty, named, offset, nonzero, offsetAligned, lengthAligned⟩ := args
  simp [State.loadPlan, hc, empty, named, offset, nonzero, offsetAligned, lengthAligned, offered]

theorem State.loadPlan_refuses {e : PlanRefusal} (offered : s.offered c (sl.w48 5) (sl.w 7) = .error e) :
    State.loadPlan sl se s = s.refuseWith se.id sl e.bad.1 e.bad.2 [(4, e.stream), (5, e.index)] := by
  obtain ⟨empty, named, offset, nonzero, offsetAligned, lengthAligned⟩ := args
  simp [State.loadPlan, hc, empty, named, offset, nonzero, offsetAligned, lengthAligned, offered]

end

/-- An image in mapped subsoil pages, whose bytes can be read and pass every check, offers its plan (R253, R349). -/
theorem State.offered_ok {s : State} {c : Ctx} {off len : Nat} {image : List Byte} {p : Plan}
    (mapped : subsoilRange c.mappedPage off len = true) (read : s.rdBytes c off len = .ok image)
    (checks : s.checkPlan c off image = .ok p) (rules : State.imageRules c p = none) : s.offered c off len = .ok p := by
  simp [State.offered, mapped, read, checks, rules]

/-- Settles O32: an accepted plan ends the old grant, replaces the plan, and initialises history, which leaves the plan's
course; a refusal is logged and answered. -/
theorem loadPlanInstallsOrRefuses : Obligations.LoadPlanInstallsOrRefuses := by
  unfold Obligations.LoadPlanInstallsOrRefuses
  rintro s _ sl se c accepted code rfl hc empty named offset nonzero offsetAligned lengthAligned
  have args : PlanArgs sl := ⟨empty, named, offset, nonzero, offsetAligned, lengthAligned⟩
  have row := exec_loadPlan accepted code
  have session := State.session?_advanceSeq accepted
  constructor
  · intro p image mapped read checks rules
    have self : (s.advanceSeq se.id sl).ctx? c.id = some c := by rwa [State.ctx?_id hc]
    obtain ⟨d, hd, course⟩ := State.ctx?_acceptPlan self p
    obtain ⟨y, hy⟩ := State.session?_acceptPlan self session p
    simp only [Ctx.planCourse, Prod.mk.injEq] at course
    obtain ⟨plan, phase, steps, counters, nextStep⟩ := course
    rw [State.loadPlan_installs se hc args (State.offered_ok mapped read checks rules)] at row
    refine ⟨_, d, row, rfl, (State.ctx?_answer ..).trans hd, plan, phase, nextStep, steps, counters,
      State.responded_answer _ _ _ _ _ hy, fun j other => (State.ctx?_answer ..).trans ?_⟩
    exact SameOthers.acceptPlan self p j other
  · intro e offered
    rw [State.loadPlan_refuses se hc args offered] at row
    exact ⟨_, row, State.responded_answer _ _ _ _ _ session, State.answer_ctxs .., State.answer_mem ..⟩

end Sys2Proof.Machine
end

section
/-! PROOFS. RUN_STEP (R266, R286, R351): the step is placed behind those in flight, or the command is answered without one. -/

namespace Sys2Proof.Machine

/-! ## The step is placed -/

/-- A context with one more step in flight (R351, R389). -/
def Ctx.withStep (p : Plan) (run : StepRun) (now : Nat) (c : Ctx) : Ctx :=
  { c with
    phase := .running
    steps := c.steps ++ [run]
    lgl := { c.lgl with nextStep := if p.kind = 2 then c.lgl.nextStep else run.step + 1 }
    rst := { c.rst with reference := some (c.rst.reference.getD now) } }

theorem State.noGrant_of_granted {s : State} {id step : Nat} {c : Ctx} (hc : s.ctx? id = some c)
    (granted : c.sieve.grantStep = some step) : s.noGrant id step = s := by
  simp only [State.noGrant, hc, if_pos granted]

/-- A step is placed by one update of its context, once a context without a step has its grant settled (R134). -/
theorem State.placeStep_eq {s : State} {id : Nat} {c : Ctx} (hc : s.ctx? id = some c) (p : Plan) (step tag maxTokens : Nat) :
    ∃ v, KeepsCourse id s v ∧ (c.steps ≠ [] ∨ c.sieve.grantStep = some step → v.mem = s.mem) ∧
      s.placeStep id p step tag maxTokens = v.mapCtx id
        (Ctx.withStep p (p.place step tag s.now (p.iteration step) (p.iteration step) maxTokens) s.now) := by
  have placed (v : State) (kept : KeepsCourse id s v) (h : v = if c.steps.isEmpty then s.noGrant id step else s) :
      s.placeStep id p step tag maxTokens = v.mapCtx id
        (Ctx.withStep p (p.place step tag s.now (p.iteration step) (p.iteration step) maxTokens) s.now) := by
    rw [State.placeStep, hc]
    dsimp only
    rw [← h, kept.now]
    rfl
  cases idle : c.steps.isEmpty with
  | false => exact ⟨s, .refl s, fun _ => rfl, placed s (.refl s) (by simp [idle])⟩
  | true =>
    refine ⟨s.noGrant id step, .noGrant s step, fun settled => ?_, placed _ (.noGrant s step) (by simp [idle])⟩
    have granted := settled.resolve_left fun busy => busy (List.isEmpty_iff.mp idle)
    rw [State.noGrant_of_granted hc granted]

/-! ## The command -/

theorem exec_runStep {s : State} {sl : Slot} {se : Session} (h : Accepted s sl se) (code : sl.cmd = 0x30) :
    exec (.runStep sl) s = .next (State.runStep sl se (s.advanceSeq se.id sl)) := by
  have row : exec (.runStep sl) s = execRunStep sl s := rfl
  rw [row, execRunStep, code, beq_self_eq_true, State.command_of_accepted h]

/-- A RUN_STEP with the right arguments for a context's plan (R351). -/
structure RunsPlan (s : State) (sl : Slot) (c : Ctx) (p : Plan) : Prop where
  known : s.ctx? (sl.w 4 % 256) = some c
  plan : c.plan = some p
  empty : sl.len = 0
  named : sl.ctxOk = true
  number : sl.w 6 < 65536
  tokens : ((p.kind == 2) == (sl.w 9 == 0)) = false

/-- The context has room for one more step: a generation run takes the whole context (R286, R351). -/
def Ctx.stepRoom (c : Ctx) (p : Plan) : Prop := (p.kind = 2 → c.phase ≠ .running) ∧ (p.kind ≠ 2 → c.steps.length < 2)

namespace RunsPlan

variable {s : State} {sl : Slot} {c : Ctx} {p : Plan} (h : RunsPlan s sl c p) (se : Session)
include h

theorem wrongNumber (other : sl.w48 5 ≠ c.lgl.nextStep) :
    State.runStep sl se s = s.refuse se.id sl 0x4404 (c.lgl.nextStep % 65536) := by
  obtain ⟨known, plan, empty, named, number, tokens⟩ := h
  simp only [State.runStep, known, plan, empty, named, number, tokens]
  simp [other]

/-- With the number expected and room, the step is placed unless it finds no row of a grow tensor left. -/
theorem inTurn (next : sl.w48 5 = c.lgl.nextStep) (room : c.stepRoom p) : State.runStep sl se s =
    if p.kind = 2 ∧ p.growPast (p.iteration (sl.w48 5)) then (s.ok se.id sl).notify c.id 0x0011 1 (sl.w48 5) [0]
    else (s.placeStep c.id p (sl.w48 5) (sl.w64 7) (sl.w 9)).ok se.id sl := by
  obtain ⟨known, plan, empty, named, number, tokens⟩ := h
  obtain ⟨alone, two⟩ := room
  have free : (if p.kind = 2 then c.phase == .running else decide (2 ≤ c.steps.length)) = false := by
    split
    · next gen => simp [alone gen]
    · next gen => simpa using two gen
  simp only [State.runStep, known, plan, empty, named, number, tokens, free]
  simp [next]

end RunsPlan

/-- An event queued after an answer leaves the answer (R331, R336). -/
theorem State.responded.notify {s : State} {j : Nat} {sl : Slot} {status : Nat} (h : s.responded j sl status)
    (id code detail step : Nat) (data : List Nat) : (s.notify id code detail step data).responded j sl status := by
  unfold State.notify
  split
  · exact h
  · dsimp only
    split
    · obtain ⟨x, y, hx, hy, answered⟩ := h
      obtain ⟨x', hx', slots⟩ := State.session?_notifySession hx _ _
      exact ⟨x', y, hx', slots ▸ hy, answered⟩
    · exact h

/-- Settles O35: a step that is placed is one update of its context, in front of which at most a grant ends; an answer and a
notice place none. -/
theorem runStepPlacesTheStep : Obligations.RunStepPlacesTheStep := by
  unfold Obligations.RunStepPlacesTheStep
  rintro s _ sl se c p accepted code rfl hc plan empty named number tokens
  have runs : RunsPlan (s.advanceSeq se.id sl) sl c p := ⟨hc, plan, empty, named, number, tokens⟩
  have self : (s.advanceSeq se.id sl).ctx? c.id = some c := by rwa [State.ctx?_id hc]
  have row := exec_runStep accepted code
  have session := State.session?_advanceSeq accepted
  refine ⟨fun next alone two grows => ?_, fun next gen alone past => ?_, fun other => ?_⟩
  · obtain ⟨v, kept, mem, placed⟩ := State.placeStep_eq self p (sl.w48 5) (sl.w64 7) (sl.w 9)
    obtain ⟨e, he, course⟩ := kept.exists_after self
    obtain ⟨y, hy⟩ := kept.sessions _ _ session
    simp only [Ctx.planCourse, Prod.mk.injEq] at course
    obtain ⟨-, -, steps, -, -⟩ := course
    rw [runs.inTurn se next ⟨alone, two⟩, if_neg (by simpa using grows), placed] at row
    refine ⟨_, _, _, row, (State.ctx?_answer ..).trans (State.ctx?_mapCtx_self he fun _ => rfl), rfl,
      List.mem_append_right _ (List.mem_singleton_self _), rfl, ?_, fun other => if_neg other,
      State.responded_answer _ _ _ _ _ hy, fun settled => (State.answer_mem ..).trans (mem settled),
      fun j different => (State.ctx?_answer ..).trans ?_⟩
    · rw [Ctx.withStep, List.length_append, steps, List.length_singleton]
    · exact (kept.others.trans (.mapCtx v c.id (f := Ctx.withStep p _ _) fun _ => rfl)) j different
  · have stands : ((s.advanceSeq se.id sl).ok se.id sl).ctx? c.id = some c := (State.ctx?_answer ..).trans self
    obtain ⟨events, lost, noticed⟩ := State.ctx?_notify stands 0x0011 1 (sl.w48 5) [0]
    rw [runs.inTurn se next ⟨fun _ => alone, fun other => absurd gen other⟩, if_pos ⟨gen, past⟩] at row
    exact ⟨_, _, row, State.responded.notify (State.responded_answer _ _ _ _ _ session) .., noticed, rfl, rfl,
      (State.notify_mem ..).trans (State.answer_mem ..)⟩
  · rw [runs.wrongNumber se other] at row
    exact ⟨_, row, State.responded_answer _ _ _ _ _ session, State.answer_ctxs .., State.answer_mem ..⟩

end Sys2Proof.Machine
end

section
/-! PROOFS. What the rows of a port (R300 to R306) leave as they were, and a quarantine (R306). -/

namespace Sys2Proof.Machine

/-! ## Time -/

/-- The passing of time updates contexts, and nothing else beside the time itself. -/
theorem State.advanceTo_eq (s : State) (t : Nat) : ∃ ctxs now, s.advanceTo t = { s with ctxs, now } ∧ t ≤ now := by
  have cycled (u : State) (same : ∃ ctxs, u = { s with ctxs }) (id g a n : Nat) (starved : Bool) :
      ∃ ctxs, u.addCycles id g a n starved = { s with ctxs } := by
    obtain ⟨ctxs, rfl⟩ := same
    exact ⟨_, rfl⟩
  have accrued (u : State) (same : ∃ ctxs, u = { s with ctxs }) (g us : Nat) (q : Sched) :
      ∃ ctxs, u.accrueGrain g us q = { s with ctxs } := by
    refine List.foldlRecOn (motive := fun u : State => ∃ ctxs, u = { s with ctxs }) _ _ same fun v hv a _ => ?_
    refine List.foldlRecOn (motive := fun u : State => ∃ ctxs, u = { s with ctxs }) _ _ ?_ fun w hw id _ => cycled w hw ..
    split
    · exact cycled v hv ..
    · exact hv
  unfold State.advanceTo
  split
  · next late => exact ⟨s.ctxs, s.now, rfl, late⟩
  · obtain ⟨ctxs, h⟩ := List.foldlRecOn (motive := fun u : State => ∃ ctxs, u = { s with ctxs })
      (s.armTimers (t - s.now)).scheds
      (fun u (q : Nat × Sched) => u.accrueGrain q.1 (t - (s.armTimers (t - s.now)).now) q.2)
      (b := s.armTimers (t - s.now)) ⟨_, rfl⟩ fun u hu q _ => accrued u hu ..
    exact ⟨ctxs, t, congrArg (fun u : State => { u with now := t }) h, le_rfl⟩

theorem State.le_advanceTo_now (s : State) (t : Nat) : t ≤ (s.advanceTo t).now := by
  obtain ⟨_, _, h, le⟩ := s.advanceTo_eq t
  rwa [h]

@[simp] theorem State.advanceTo_ports (s : State) (t : Nat) : (s.advanceTo t).ports = s.ports := by
  obtain ⟨_, _, h, -⟩ := s.advanceTo_eq t
  rw [h]

@[simp] theorem State.advanceTo_sed (s : State) (t : Nat) : (s.advanceTo t).sed = s.sed := by
  obtain ⟨_, _, h, -⟩ := s.advanceTo_eq t
  rw [h]

/-! ## One port's state -/

theorem State.port?_congr {s t : State} (h : t.ports = s.ports) (p : Nat) : t.port? p = s.port? p := by
  rw [State.port?, h, ← State.port?]

theorem State.port?_mapPort_self {s : State} {p : Nat} {q : Port} (h : s.port? p = some q) (f : Port → Port) :
    (s.mapPort p f).port? p = some (f q) := by
  rw [State.port?_mapPort, if_pos rfl, h, Option.map_some]

@[simp] theorem State.port?_advanceTo (s : State) (t p : Nat) : (s.advanceTo t).port? p = s.port? p :=
  State.port?_congr (s.advanceTo_ports t) p

/-! ## What the operations of one port leave -/

theorem SameOtherPorts.of_ports {p : Nat} {s t : State} (h : t.ports = s.ports) : SameOtherPorts p s t := fun _ _ => by rw [h]

/-- The other ports, memory and the units in service are as before. -/
structure OnPort (p : Nat) (s t : State) : Prop where
  others : SameOtherPorts p s t
  mem : t.mem = s.mem
  base : SameBase s t

namespace OnPort

variable {p : Nat}

theorem refl (s : State) : OnPort p s s := ⟨fun _ _ => rfl, rfl, .refl s⟩

theorem trans {s t u : State} (h : OnPort p s t) (k : OnPort p t u) : OnPort p s u :=
  ⟨fun q hq => (k.others q hq).trans (h.others q hq), k.mem.trans h.mem, h.base.trans k.base⟩

theorem of_device {s t : State} (h : SameDevice s t) (mem : t.mem = s.mem) : OnPort p s t :=
  ⟨.of_ports h.ports, mem, h.toSameBase⟩

theorem mapPort (s : State) (f : Port → Port) : OnPort p s (s.mapPort p f) :=
  ⟨.mapPort s p f, rfl, ⟨rfl, rfl, rfl, rfl, rfl, rfl⟩⟩

theorem raise (s : State) (code detail src ctx : Nat) : OnPort p s (s.raise code detail src ctx) :=
  of_device (.of_log (.of_sed s _)) rfl

theorem advanceTo (s : State) (t : Nat) : OnPort p s (s.advanceTo t) := by
  obtain ⟨_, _, h, -⟩ := s.advanceTo_eq t
  rw [h]
  exact of_device ⟨⟨rfl, rfl, rfl, rfl, rfl, rfl⟩, rfl, rfl, rfl⟩ rfl

theorem foldl {α : Type} {f : State → α → State} (h : ∀ s a, OnPort p s (f s a)) (l : List α) (s : State) :
    OnPort p s (l.foldl f s) :=
  List.foldlRecOn (motive := OnPort p s) l f (.refl s) fun t ht a _ => ht.trans (h t a)

theorem copyEnded (s : State) (r : InstrRef) (port : Nat) : OnPort p s (s.copyEnded r port) :=
  (raise s ..).trans (of_device (SameArbiter.retire _ r).toSameDevice rfl)

theorem portLeave (s : State) (dst : PortPhase) : OnPort p s (s.portLeave p dst) :=
  (mapPort s _).trans (foldl (fun t r => copyEnded t r p) _ _)

theorem portDown (s : State) : OnPort p s (s.portDown p) := by
  unfold State.portDown
  split
  · exact refl s
  · dsimp only
    split
    · exact (raise s ..).trans (portLeave _ .probe)
    · exact portLeave s .probe

theorem quarantine (s : State) : OnPort p s (s.quarantine p) := by
  unfold State.quarantine
  split
  · exact refl s
  · exact (((raise s ..).trans (raise ..)).trans (portLeave _ .quarantine)).trans (mapPort ..)

end OnPort

/-- Beside `OnPort`: the contexts are as before. -/
structure PortOnly (p : Nat) (s t : State) : Prop extends OnPort p s t where
  ctxs : t.ctxs = s.ctxs

namespace PortOnly

variable {p : Nat}

theorem refl (s : State) : PortOnly p s s := ⟨.refl s, rfl⟩

theorem trans {s t u : State} (h : PortOnly p s t) (k : PortOnly p t u) : PortOnly p s u :=
  ⟨h.toOnPort.trans k.toOnPort, k.ctxs.trans h.ctxs⟩

theorem mapPort (s : State) (f : Port → Port) : PortOnly p s (s.mapPort p f) := ⟨.mapPort s f, rfl⟩

theorem raise (s : State) (code detail src ctx : Nat) : PortOnly p s (s.raise code detail src ctx) := ⟨.raise s .., rfl⟩

theorem foldl {α : Type} {f : State → α → State} (h : ∀ s a, PortOnly p s (f s a)) (l : List α) (s : State) :
    PortOnly p s (l.foldl f s) :=
  List.foldlRecOn (motive := PortOnly p s) l f (.refl s) fun t ht a _ => ht.trans (h t a)

end PortOnly

/-! ## Quarantines (R306) -/

/-- A port as a quarantine that begins at a moment leaves it. -/
def Port.quarantined (now : Nat) (q : Port) : Port :=
  { q.left .quarantine with
    quarHold := q.hold now, quarUntil := now + q.hold now * 1000000, quarantines := satAdd 0xFF q.quarantines 1 }

theorem State.port?_quarantine {s : State} {p : Nat} {q : Port} (h : s.port? p = some q) :
    (s.quarantine p).port? p = some (q.quarantined s.now) := by
  have left (t : State) (same : t.ports = s.ports) : (t.portLeave p .quarantine).port? p = some (q.left .quarantine) := by
    rw [State.port?_portLeave, if_pos rfl, State.port?_congr same, h, Option.map_some]
  simp only [State.quarantine, h]
  exact State.port?_mapPort_self (left ((s.raisePort p 0x3103 0).raisePort p 0x3001 0) rfl) _

/-- QUARANTINE_EXPIRY of a port in quarantine (R301, R306). -/
theorem exec_quarantineExpiry {s : State} {p : Nat} {q : Port} (h : s.port? p = some q) (held : q.phase = .quarantine) :
    exec (.quarantineExpiry p) s =
      .next ((s.advanceTo q.quarUntil).mapPort p fun q => { q with phase := .probe }) := by
  change execQuarantineExpiry p s = _
  simp only [execQuarantineExpiry, h, if_pos held]

theorem quarantineExpiry_effect {s : State} {p : Nat} {q : Port} (h : s.port? p = some q) (held : q.phase = .quarantine) :
    ∃ t, exec (.quarantineExpiry p) s = .next t ∧ t.port? p = some { q with phase := .probe } ∧ q.quarUntil ≤ t.now ∧
      OnPort p s t :=
  ⟨_, exec_quarantineExpiry h held, State.port?_mapPort_self (by simpa using h) _, State.le_advanceTo_now ..,
    (OnPort.advanceTo s _).trans (.mapPort ..)⟩

/-- Settles O60: the hold time of a quarantine is its port's, and leaving service for it touches no other port, no unit in
service and no flash. -/
theorem quarantinesLastAndDouble : Obligations.QuarantinesLastAndDouble := by
  unfold Obligations.QuarantinesLastAndDouble
  refine ⟨rfl, fun s p q h => ?_, fun s p q h held => ?_⟩
  · have kept := OnPort.quarantine (p := p) s
    refine ⟨_, State.port?_quarantine h, rfl, rfl, ?_, rfl, kept.others, kept.base.caps, kept.base.flash⟩
    simp only [Port.quarantined, Port.hold, Nat.pos_iff_ne_zero, Nat.reduceMul]
  · obtain ⟨t, row, probe, waited, -⟩ := quarantineExpiry_effect h held
    exact ⟨t, row, probe, waited⟩

end Sys2Proof.Machine
end

section
/-! PROOFS. LINK_DOWN, LANE_LOCK_LOSS, PEER_SLOW, LANE_ERROR_INTERVAL and LANE_WIDTH_CHANGE_DONE (R301, R302, R304, R305). -/

namespace Sys2Proof.Machine

/-! ## Going down (R302) -/

theorem State.portDown_effect {s : State} {p : Nat} {q : Port} (h : s.port? p = some q) :
    (s.portDown p).port? p = some (q.left .probe) ∧ OnPort p s (s.portDown p) :=
  ⟨by rw [State.port?_portDown, if_pos rfl, h, Option.map_some], .portDown s⟩

theorem exec_linkDown {s : State} {p : Nat} {q : Port} (h : s.port? p = some q) (up : q.phase = .up) :
    exec (.linkDown p) s = .next (s.portDown p) := by
  change execLinkDown p s = _
  simp only [execLinkDown, h, if_pos up]

theorem exec_laneLockLoss {s : State} {p : Nat} {q : Port} (h : s.port? p = some q) (up : q.phase = .up) (lanes : Nat) :
    exec (.laneLockLoss p lanes) s = if 4 ≤ laneCount (q.lanes &&& lanes) then .next (s.portDown p) else .next s := by
  change execLaneLockLoss p lanes s = _
  simp only [execLaneLockLoss, h, up, true_and]

/-! ## Starved VCs (R304) -/

/-- PEER_SLOW: the first report of an episode of starvation. -/
theorem exec_peerSlow_reports {s : State} {p vc : Nat} {q : Port} (h : s.port? p = some q) (up : q.phase = .up) (hvc : vc < 4)
    (dry : q.link.credits.getD vc 0 = 0) (waits : (s.nextMsg p vc q.link).isSome = true)
    (first : q.starved.getD vc false = false) :
    exec (.peerSlow p vc) s = .next (((s.advanceTo (q.link.drySince vc + q.cfg.starveMs * 1000)).raisePort p 0x3105 0).mapPort p
      fun q => { q with starved := q.starved.set vc true }) := by
  change execPeerSlow p vc s = _
  simp only [execPeerSlow, h, up, first, dry, hvc, waits, and_self, if_true]

/-- PEER_SLOW: a VC that was reported starved is not reported again. -/
theorem exec_peerSlow_once {s : State} {p vc : Nat} {q : Port} (h : s.port? p = some q)
    (reported : q.starved.getD vc false = true) : exec (.peerSlow p vc) s = .next s := by
  change execPeerSlow p vc s = _
  simp only [execPeerSlow, h, reported, Bool.true_eq_false, false_and, and_false, if_false]

/-! ## Sending again on other lanes (R299, R302, R305) -/

/-- The sequence number of the oldest unacknowledged flit. -/
abbrev Link.oldest (l : Link) : Nat := (l.replay.head?.map fun x => x.1.seq).getD 0

/-- From the oldest unacknowledged flit on, every one is sent again. -/
theorem Link.fromSeq_oldest (l : Link) : l.fromSeq l.oldest = l.replay := by
  unfold Link.fromSeq Link.oldest
  cases l.replay with
  | nil => rfl
  | cons x xs => simp

/-- A port that goes on with other lanes and sends again what is unacknowledged. -/
def Port.restriped (lanes : Nat) (q : Port) : Port :=
  { q with
    lanes, recal := q.recal.filter fun l => bitOf lanes l || !(bitOf q.lanes l), widthChange := true
    link := q.link.again q.link.oldest }

theorem Port.restriped_resend (lanes : Nat) (q : Port) : (q.restriped lanes).link.resend = q.link.replay.map Prod.fst :=
  congrArg (List.map Prod.fst) q.link.fromSeq_oldest

theorem State.restripe_of_spent {s : State} {p : Nat} {q : Port} (h : s.port? p = some q)
    (spent : q.link.spent q.link.oldest = true) (lanes : Nat) : s.restripe p lanes = s.portDown p := by
  simp only [State.restripe, h, if_pos spent]

theorem State.restripe_effect {s : State} {p : Nat} {q : Port} (h : s.port? p = some q)
    (room : q.link.spent q.link.oldest = false) (lanes : Nat) :
    (s.restripe p lanes).port? p = some (q.restriped lanes) ∧ PortOnly p s (s.restripe p lanes) := by
  simp only [State.restripe, h, room, Bool.false_eq_true, if_false]
  constructor
  · rw [State.port?_mapPort_self h]
    rfl
  · exact .mapPort s _

/-! ## Failing lanes (R305) -/

/-- The lanes of a port that fail their limits in an interval. -/
def Port.badLanes (q : Port) (errs : List LaneErrors) : List Nat :=
  (List.range 8).filter fun i => bitOf q.lanes i && (errs[i]?).any fun e => laneFails e q.cfg

/-- The state in which the retirements of lanes have been logged and counted. -/
def State.lanesRetired (s : State) (p : Nat) (bad : List Nat) : State :=
  (bad.foldl (fun s _ => s.raisePort p 0x3102 0) s).mapPort p fun q => { q with laneRet := satAdd 0xFF q.laneRet bad.length }

theorem State.lanesRetired_effect {s : State} {p : Nat} {q : Port} (h : s.port? p = some q) (bad : List Nat) :
    (s.lanesRetired p bad).port? p = some { q with laneRet := satAdd 0xFF q.laneRet bad.length } ∧
      PortOnly p s (s.lanesRetired p bad) := by
  have ports : (bad.foldl (fun s _ => s.raisePort p 0x3102 0) s).ports = s.ports :=
    List.foldlRecOn (motive := fun t : State => t.ports = s.ports) _ _ rfl fun _ ht _ _ => ht
  exact ⟨State.port?_mapPort_self ((State.port?_congr ports p).trans h) _,
    (PortOnly.foldl (fun t _ => .raise t ..) bad s).trans (.mapPort ..)⟩

/-- LANE_ERROR_INTERVAL: with too few lanes left the port goes down, and else it re-stripes over those left. -/
theorem exec_laneErrorInterval {s : State} {p : Nat} {q : Port} (h : s.port? p = some q) (up : q.phase = .up)
    {errs : List LaneErrors} (failing : q.badLanes errs ≠ []) :
    exec (.laneErrorInterval p errs) s =
      if laneCount q.lanes < 4 + (q.badLanes errs).length then .next (s.portDown p)
      else .next ((s.lanesRetired p (q.badLanes errs)).restripe p ((q.badLanes errs).foldl (fun m i => m - 2 ^ i) q.lanes)) := by
  change execLaneErrorInterval p errs s = _
  simp only [execLaneErrorInterval, h]
  rw [← Port.badLanes, if_neg (by simp [up, failing])]
  rfl

/-! ## The partner's width (R301, R305) -/

section
variable {s : State} {p : Nat} {q : Port} (h : s.port? p = some q) {kept : Nat}
include h

theorem exec_laneWidthChangeDone_stays (down : q.phase ≠ .up) : exec (.laneWidthChangeDone ⟨p, kept⟩) s = .next s := by
  change execLaneWidthChangeDone ⟨p, kept⟩ s = _
  simp only [execLaneWidthChangeDone, h, if_pos down]

variable (up : q.phase = .up)
include up

theorem exec_laneWidthChangeDone_falls (few : laneCount (q.lanes &&& kept) < 4) :
    exec (.laneWidthChangeDone ⟨p, kept⟩) s = .next (s.portDown p) := by
  change execLaneWidthChangeDone ⟨p, kept⟩ s = _
  simp only [execLaneWidthChangeDone, h, up, ne_eq, not_true_eq_false, if_false, if_pos few]

theorem exec_laneWidthChangeDone (enough : 4 ≤ laneCount (q.lanes &&& kept)) :
    exec (.laneWidthChangeDone ⟨p, kept⟩) s =
      .next ((if q.lanes &&& kept = q.lanes then s else s.restripe p (q.lanes &&& kept)).mapPort p fun q =>
        { q with widthChange := false }) := by
  change execLaneWidthChangeDone ⟨p, kept⟩ s = _
  simp only [execLaneWidthChangeDone, h, up, ne_eq, not_true_eq_false, if_false, if_neg (Nat.not_lt.mpr enough)]

end

/-! ## What becomes of the port -/

/-- PEER_SLOW: the first report is logged, and the VC's episode marked. -/
theorem peerSlow_reports {s : State} {p vc : Nat} {q : Port} (h : s.port? p = some q) (up : q.phase = .up) (hvc : vc < 4)
    (dry : q.link.credits.getD vc 0 = 0) (waits : (s.nextMsg p vc q.link).isSome = true)
    (first : q.starved.getD vc false = false) : ∃ t, exec (.peerSlow p vc) s = .next t ∧
      t.port? p = some { q with starved := q.starved.set vc true } ∧
      t.sed.bus = s.sed.bus ++ [{ code := 0x3105, detail := 0, src := 0x600 + p, ctx := 0xFF, words := [] }] ∧
      q.link.drySince vc + q.cfg.starveMs * 1000 ≤ t.now ∧ OnPort p s t := by
  have waited : ((s.advanceTo (q.link.drySince vc + q.cfg.starveMs * 1000)).raisePort p 0x3105 0).port? p = some q :=
    (State.port?_advanceTo s _ p).trans h
  refine ⟨_, exec_peerSlow_reports h up hvc dry waits first, State.port?_mapPort_self waited _, ?_,
    State.le_advanceTo_now .., ((OnPort.advanceTo s _).trans (.raise ..)).trans (.mapPort ..)⟩
  simp [State.raisePort, portPath, noCtx]

section
variable {s : State} {p : Nat} {q : Port} (h : s.port? p = some q) (up : q.phase = .up)
include h up

section
variable {errs : List LaneErrors} (failing : q.badLanes errs ≠ [])
include failing

/-- LANE_ERROR_INTERVAL with lanes enough left: the failing ones are retired. -/
theorem laneErrorInterval_narrows (enough : 4 + (q.badLanes errs).length ≤ laneCount q.lanes)
    (room : q.link.spent q.link.oldest = false) :
    ∃ t, exec (.laneErrorInterval p errs) s = .next t ∧
      t.port? p = some (Port.restriped ((q.badLanes errs).foldl (fun m i => m - 2 ^ i) q.lanes)
        { q with laneRet := satAdd 0xFF q.laneRet (q.badLanes errs).length }) ∧ PortOnly p s t := by
  obtain ⟨counted, retired⟩ := State.lanesRetired_effect h (q.badLanes errs)
  obtain ⟨narrow, restriped⟩ :=
    State.restripe_effect counted room ((q.badLanes errs).foldl (fun m i => m - 2 ^ i) q.lanes)
  exact ⟨_, (exec_laneErrorInterval h up failing).trans (if_neg (Nat.not_lt.mpr enough)), narrow, retired.trans restriped⟩

/-- LANE_ERROR_INTERVAL with too few lanes left, or a flit that may not be sent again: the port goes down. -/
theorem laneErrorInterval_falls
    (short : laneCount q.lanes < 4 + (q.badLanes errs).length ∨ q.link.spent q.link.oldest = true) :
    ∃ t r, exec (.laneErrorInterval p errs) s = .next t ∧ t.port? p = some r ∧ r.phase = .probe ∧ OnPort p s t := by
  have row := exec_laneErrorInterval h up failing
  by_cases few : laneCount q.lanes < 4 + (q.badLanes errs).length
  · obtain ⟨down, fell⟩ := State.portDown_effect h
    exact ⟨_, _, row.trans (if_pos few), down, rfl, fell⟩
  · obtain ⟨counted, retired⟩ := State.lanesRetired_effect h (q.badLanes errs)
    obtain ⟨down, fell⟩ := State.portDown_effect counted
    rw [if_neg few, State.restripe_of_spent counted (short.resolve_left few)] at row
    exact ⟨_, _, row, down, rfl, retired.toOnPort.trans fell⟩

end

/-- LANE_WIDTH_CHANGE_DONE with the partner's lanes retired: this side narrows with it. -/
theorem laneWidthChangeDone_narrows {kept : Nat} (enough : 4 ≤ laneCount (q.lanes &&& kept))
    (other : q.lanes &&& kept ≠ q.lanes) (room : q.link.spent q.link.oldest = false) :
    ∃ t, exec (.laneWidthChangeDone ⟨p, kept⟩) s = .next t ∧
      t.port? p = some { q.restriped (q.lanes &&& kept) with widthChange := false } ∧ PortOnly p s t := by
  have row := exec_laneWidthChangeDone h up enough
  rw [if_neg other] at row
  obtain ⟨narrow, restriped⟩ := State.restripe_effect h room (q.lanes &&& kept)
  exact ⟨_, row, State.port?_mapPort_self narrow _, restriped.trans (.mapPort ..)⟩

theorem laneWidthChangeDone_same {kept : Nat} (enough : 4 ≤ laneCount (q.lanes &&& kept))
    (same : q.lanes &&& kept = q.lanes) :
    exec (.laneWidthChangeDone ⟨p, kept⟩) s = .next (s.mapPort p fun q => { q with widthChange := false }) := by
  rw [exec_laneWidthChangeDone h up enough, if_pos same]

end

/-- Settles O53: each row takes the port down, re-stripes it, or reports a VC, by the lemmas above. -/
theorem portsGoDownOrLoseLanes : Obligations.PortsGoDownOrLoseLanes := by
  unfold Obligations.PortsGoDownOrLoseLanes
  rintro s p q _ h rfl
  obtain ⟨down, fell⟩ := State.portDown_effect h
  refine ⟨fun up => ⟨_, _, exec_linkDown h up, down, rfl, rfl, rfl, rfl, fell.others, fell.mem⟩,
    fun lanes up => ⟨fun many => ?_, fun few => ?_⟩, fun vc up hvc dry waits => ⟨fun first => ?_, exec_peerSlow_once h⟩,
    fun errs _ up bad failing => ?_, fun kept _ up narrowed => ?_, fun kept => exec_laneWidthChangeDone_stays h⟩
  · exact ⟨_, _, (exec_laneLockLoss h up lanes).trans (if_pos many), down, rfl, rfl, rfl, fell.others, fell.mem⟩
  · exact (exec_laneLockLoss h up lanes).trans (if_neg (Nat.not_le.mpr few))
  · obtain ⟨t, row, marked, logged, waited, frame⟩ := peerSlow_reports h up hvc dry waits first
    exact ⟨t, row, marked, logged, waited, frame.others, frame.mem⟩
  · subst bad
    refine ⟨fun enough room => ?_, fun short => ?_⟩
    · obtain ⟨t, row, narrow, only⟩ := laneErrorInterval_narrows h up failing enough room
      exact ⟨t, _, row, narrow, up, rfl, rfl, rfl, Port.restriped_resend .., only.others, only.ctxs, only.mem⟩
    · obtain ⟨t, r, row, fallen, probe, frame⟩ := laneErrorInterval_falls h up failing short
      exact ⟨t, r, row, fallen, probe, frame.others, frame.mem⟩
  · subst narrowed
    refine ⟨fun enough same => ?_, fun enough other room => ?_, fun few => ?_⟩
    · exact ⟨_, laneWidthChangeDone_same h up enough same, State.port?_mapPort_self h _, .mapPort s p _, rfl, rfl⟩
    · obtain ⟨t, row, narrow, only⟩ := laneWidthChangeDone_narrows h up enough other room
      exact ⟨t, _, row, narrow, up, rfl, rfl, q.restriped_resend (q.lanes &&& kept), only.others, only.ctxs, only.mem⟩
    · exact ⟨_, _, exec_laneWidthChangeDone_falls h up few, down, rfl, fell.others, fell.mem⟩

end Sys2Proof.Machine
end

section
/-! PROOFS. A port's way through TRAIN, AUTH and UP (R300, R301, R303, R307, R309 to R311), and the renewal of its keys. -/

namespace Sys2Proof.Machine

/-! ## Burst and training (R300, R301, R307) -/

theorem exec_portBurstHeard {s : State} {p : Nat} {q : Port} (h : s.port? p = some q) (probe : q.phase = .probe)
    (clock : s.power.sdsLost.getD (p / 8) false = false) (alive : s.dieResetting (p / 8) = false) :
    ∃ t, exec (.portBurstHeard p) s = .next t ∧ t.port? p = some { q with phase := .train } ∧ PortOnly p s t := by
  have row : exec (.portBurstHeard p) s = execPortBurstHeard p s := rfl
  rw [execPortBurstHeard, alive, if_neg Bool.false_ne_true] at row
  refine ⟨_, row, ?_, .mapPort ..⟩
  rw [State.port?_mapPort_self h, if_pos ⟨probe, by rw [clock]; rfl⟩]

/-- A port that has passed its training on some lanes (R301, R307, R467). -/
def Port.trained (lanes : Nat) (q : Port) : Port :=
  { q with phase := .auth, selfTestFails := 0, lanes := lanes % 256, calOk := bitOf lanes 8 }

section
variable {s : State} {p : Nat} {q : Port} (h : s.port? p = some q) (train : q.phase = .train) (lanes : Nat)
include h train

theorem exec_portTrainDone_passed (enough : 4 ≤ laneCount lanes) :
    exec (.portTrainDone p true lanes) s = .next ((s.mapPort p (Port.trained lanes)).sendHello p) := by
  change execPortTrainDone p true lanes s = _
  simp only [execPortTrainDone, h, train, ne_eq, not_true_eq_false, if_false, Bool.not_true, Bool.false_eq_true, if_pos enough]
  rfl

theorem exec_portTrainDone_narrow (few : laneCount lanes < 4) :
    exec (.portTrainDone p true lanes) s = .next (s.mapPort p fun q => { q with phase := .probe, selfTestFails := 0 }) := by
  change execPortTrainDone p true lanes s = _
  simp only [execPortTrainDone, h, train, ne_eq, not_true_eq_false, if_false, Bool.not_true, Bool.false_eq_true,
    if_neg (Nat.not_le.mpr few)]

theorem exec_portTrainDone_failed :
    exec (.portTrainDone p false lanes) s =
      .next (if 1 ≤ q.selfTestFails then (s.mapPort p fun q => { q with phase := .probe }).retirePort p
        else (s.mapPort p fun q => { q with phase := .probe }).mapPort p fun q => { q with selfTestFails := 1 }) := by
  have probed := State.port?_mapPort_self h fun q => { q with phase := .probe }
  change execPortTrainDone p false lanes s = _
  simp only [execPortTrainDone, h, train, ne_eq, not_true_eq_false, if_false, Bool.not_false, if_true, State.selfTested, probed,
    Bool.false_eq_true]

end

/-! ## A port's retirement (R8, R307) -/

theorem filter_kind_ne_replaced {l recs : List FlashRec} {kind : Nat} (hr : ∀ r ∈ recs, r.kind = kind) :
    (((l.filter fun q => q.kind != kind) ++ recs).filter fun q => q.kind != kind) = l.filter fun q => q.kind != kind := by
  have none_new : (recs.filter fun q => q.kind != kind) = [] := List.filter_eq_nil_iff.mpr fun r h => by simp [hr r h]
  rw [List.filter_append, none_new, List.append_nil, List.filter_filter]
  simp

/-- The record of the retirements takes the place of the older ones of its kind on both copies, or settings alone keep them. -/
theorem State.saveRetired_cases (s : State) : ∃ free records0 records1 settingsOnly,
    s.saveRetired = { s with free, flash := { s.flash with records0, records1, settingsOnly } } ∧
    (records0.filter fun r => r.kind != 0x11) = s.flash.records0.filter (fun r => r.kind != 0x11) ∧
    (records1.filter fun r => r.kind != 0x11) = s.flash.records1.filter (fun r => r.kind != 0x11) := by
  unfold State.saveRetired
  split
  · obtain h | ⟨recs, free, kinds, h⟩ := s.writeUnitRec_cases 0x11 s.flash.retiredBody <;> rw [h]
    · exact ⟨s.free, _, _, _, rfl, rfl, rfl⟩
    · exact ⟨free, _, _, _, rfl, filter_kind_ne_replaced kinds, filter_kind_ne_replaced kinds⟩
  · exact ⟨s.free, _, _, true, rfl, rfl, rfl⟩

/-- A notice to the operators changes sessions alone. -/
theorem State.notifyOps_eq (s : State) (code detail : Nat) : ∃ ligil, s.notifyOps code detail = { s with ligil } := by
  refine List.foldlRecOn (motive := fun t : State => ∃ ligil, t = { s with ligil }) _ _ ⟨s.ligil, rfl⟩ ?_
  rintro _ ⟨ligil, rfl⟩ se _
  exact ⟨_, rfl⟩

/-- What a port's retirement changes before it is recorded and announced (R8, R307). -/
def State.withoutPort (s : State) (p : Nat) : State :=
  { s with
    caps := { s.caps with ports := s.caps.ports &&& ~~~(BitVec.ofNat 32 (2 ^ p)) }
    flash := { s.flash with retiredPorts := s.flash.retiredPorts ||| BitVec.ofNat 32 (2 ^ p) } }

theorem State.retirePort_eq (s : State) (p : Nat) : s.retirePort p =
    (((s.portLeave p .retired).withoutPort p).saveRetired.raisePort p 0x3106 0).notifyOps 0x3106 0 := rfl

theorem State.retirePort_caps_flash (s : State) (p : Nat) :
    (s.retirePort p).caps = ((s.portLeave p .retired).withoutPort p).caps ∧
      (s.retirePort p).flash.retiredPorts = ((s.portLeave p .retired).withoutPort p).flash.retiredPorts := by
  obtain ⟨free, records0, records1, settingsOnly, saved, -, -⟩ := ((s.portLeave p .retired).withoutPort p).saveRetired_cases
  obtain ⟨ligil, told⟩ := (((s.portLeave p .retired).withoutPort p).saveRetired.raisePort p 0x3106 0).notifyOps_eq 0x3106 0
  rw [State.retirePort_eq, told, saved]
  exact ⟨rfl, rfl⟩

/-- A port that is retired leaves the capability block and enters the retirements in flash. -/
theorem State.retirePort_effect {s : State} {p : Nat} {q : Port} (h : s.port? p = some q) (hp : p < 32) :
    (s.retirePort p).port? p = some (q.left .retired) ∧ (s.retirePort p).caps.ports.getLsbD p = false ∧
      (s.retirePort p).flash.retiredPorts.getLsbD p = true ∧ SameOtherPorts p s (s.retirePort p) ∧
      (s.retirePort p).mem = s.mem := by
  obtain ⟨caps, flash⟩ := s.retirePort_caps_flash p
  refine ⟨?_, ?_, ?_, fun j other => (s.port?_retirePort p j).trans (if_neg other), (KeepsParts.retirePort s p).mem⟩
  · rw [State.port?_retirePort, if_pos rfl, h, Option.map_some]
  · rw [caps, State.withoutPort, BitVec.getLsbD_and, BitVec.getLsbD_not, BitVec.getLsbD_ofNat, Nat.testBit_two_pow]
    simp [hp]
  · rw [flash, State.withoutPort, BitVec.getLsbD_or, BitVec.getLsbD_ofNat, Nat.testBit_two_pow]
    simp [hp]

/-! ## The handshake (R309) -/

theorem PortOnly.draw (p : Nat) (s : State) : PortOnly p s s.draw.2 := ⟨⟨fun _ _ => rfl, rfl, rfl, rfl, rfl, rfl, rfl, rfl⟩, rfl⟩

/-- A message of the management VC. -/
def mgmtMsg (now : Nat) (bytes : List Byte) : OutMsg := { vc := 3, bind := 0, started := false, since := now, peer := none, bytes }

/-- A port with messages behind those that wait. -/
def Port.queue (q : Port) (msgs : List OutMsg) : Port := { q with link := { q.link with waiting := q.link.waiting ++ msgs } }

theorem State.port?_enqueue_mgmt {s : State} {p : Nat} {q : Port} (h : s.port? p = some q) (bytes : List Byte) :
    (s.enqueue p 3 0 bytes).port? p = some (q.queue [mgmtMsg s.now bytes]) := State.port?_mapPort_self h _

/-- A port that has sent its hello and its chain with a fresh handshake. -/
def Port.greeted (nonce : List Byte) (secret now : Nat) (hello : List Byte) (q : Port) : Port :=
  { q with handshake := { nonce, secret, sent := [hello, Config.unitChain] } }.queue
    [mgmtMsg now hello, mgmtMsg now Config.unitChain]

/-- The state in which a port has drawn a fresh nonce and a fresh key for a handshake. -/
def State.handshakeDrawn (s : State) (p : Nat) : State :=
  s.draw.2.draw.2.mapPort p fun q => { q with handshake :=
    { nonce := (List.range 32).map (Config.freeByte s.free)
      secret := Config.freeNat (s.free + 1) % (p384N - 1) + 1, sent := [] } }

/-- The state in which a port has sent a hello and its chain. -/
def State.greeted (s : State) (p : Nat) (hello : List Byte) : State :=
  ((s.mapPort p fun q => { q with handshake := { q.handshake with sent := [hello, Config.unitChain] } }).enqueue p 3 0 hello).enqueue
    p 3 0 Config.unitChain

theorem State.sendHello_eq {s : State} {p : Nat} {x : Port} (h : (s.handshakeDrawn p).port? p = some x) :
    s.sendHello p = (s.handshakeDrawn p).greeted p ((s.handshakeDrawn p).ownHello x) := by
  have begun : s.sendHello p = (match (s.handshakeDrawn p).port? p with
    | none => s.handshakeDrawn p
    | some port => (s.handshakeDrawn p).greeted p ((s.handshakeDrawn p).ownHello port)) := rfl
  rw [begun, h]

theorem State.port?_greeted {s : State} {p : Nat} {q : Port} (h : s.port? p = some q) (hello : List Byte) :
    (s.greeted p hello).port? p = some (q.greeted q.handshake.nonce q.handshake.secret s.now hello) := by
  rw [State.greeted, State.port?_enqueue_mgmt (State.port?_enqueue_mgmt (State.port?_mapPort_self h _) hello)]
  simp [Port.queue, Port.greeted]

theorem State.sendHello_effect {s : State} {p : Nat} {q : Port} (h : s.port? p = some q) :
    ∃ nonce secret hello, nonce.length = 32 ∧ (s.sendHello p).port? p = some (q.greeted nonce secret s.now hello) ∧
      (s.sendHello p).now = s.now ∧ PortOnly p s (s.sendHello p) := by
  have drawn := State.port?_mapPort_self (s := s.draw.2.draw.2) h fun q => { q with handshake :=
    { nonce := (List.range 32).map (Config.freeByte s.free)
      secret := Config.freeNat (s.free + 1) % (p384N - 1) + 1, sent := [] } }
  rw [State.sendHello_eq drawn]
  refine ⟨_, _, _, ?_, State.port?_greeted drawn _, rfl, ?_⟩
  · simp
  · exact (((PortOnly.draw p s).trans (.draw p _)).trans (.mapPort ..)).trans
      (((PortOnly.mapPort ..).trans (.mapPort ..)).trans (.mapPort ..))

/-- What a port has sent before the handshake is judged: its proof, where it may sign. -/
def State.answered (s : State) (p : Nat) (q : Port) (x : LinkHello) : State :=
  if s.maySign then s.sendProof p q x else s

/-- A port with other messages sent in its handshake and others waiting. -/
def Port.withSent (sent : List (List Byte)) (waiting : List OutMsg) (q : Port) : Port :=
  { q with handshake := { q.handshake with sent }, link := { q.link with waiting } }

/-- The proof waits on the management VC, and no link-up carries it over (R303). -/
theorem State.answered_effect {s : State} {p : Nat} {q : Port} (h : s.port? p = some q) (x : LinkHello) :
    ∃ sent waiting, (s.answered p q x).port? p = some (q.withSent sent waiting) ∧
      (q.withSent sent waiting).link.restart = q.link.restart ∧ (s.answered p q x).now = s.now ∧
      PortOnly p s (s.answered p q x) := by
  unfold State.answered
  split
  · refine ⟨_, _, State.port?_enqueue_mgmt (State.port?_mapPort_self (s := s.draw.2) h _) _, ?_, rfl, ?_⟩
    · simp [Port.withSent, Link.restart, mgmtMsg]
    · exact ((PortOnly.draw p s).trans (.mapPort ..)).trans (.mapPort ..)
  · exact ⟨q.handshake.sent, q.link.waiting, h, rfl, rfl, .refl s⟩

/-- Whether a handshake fails rests on the units in service, the boot state and flash alone. -/
theorem State.authFailure_congr {s t : State} (h : SameBase s t) (p : Nat) (q : Port) (x : LinkHello) :
    t.authFailure p q x = s.authFailure p q x := by
  have sign : t.maySign = s.maySign := by rw [State.maySign, h.boot, ← State.maySign]
  have anchor : t.applying 3 = s.applying 3 := State.applying_congr (by rw [h.boot]) (by rw [h.flash]) (by rw [h.flash])
  have script : t.transcript p q x = s.transcript p q x := by
    simp only [State.transcript, State.ownHello, h.caps]
  simp only [State.authFailure, sign, anchor, script, h.caps]

/-! ## Link-up, and a handshake that fails (R301, R303, R309 to R311) -/

theorem State.authFailed_effect {s : State} {p : Nat} {q : Port} (h : s.port? p = some q) (detail : Nat) :
    (s.authFailed p detail).port? p = some (q.left .probe) ∧ OnPort p s (s.authFailed p detail) := by
  obtain ⟨down, fell⟩ := State.portDown_effect (s := s.raisePort p 0x3104 detail) h
  exact ⟨down, (OnPort.raise ..).trans fell⟩

/-- A port that comes up after a handshake. -/
def Port.linkedUp (x : LinkHello) (now : Nat) (q : Port) : Port :=
  { q.takeKeys x now with
    phase := .up, epoch := (max q.epoch x.epoch + 1) % 2 ^ 32, crypt := q.cfg.cryptReq || x.cryptReq
    fabric := x.fabric, peer := x.digest, partner := x.table, keyGen := 0
    link := q.link.restart }

theorem State.linkUp_effect {s : State} {p : Nat} {q : Port} (h : s.port? p = some q) (x : LinkHello) :
    (s.linkUp p x).port? p = some ((q.linkedUp x s.now).queue [mgmtMsg s.now (tableBytes (s.bindingTable p))]) ∧
      PortOnly p s (s.linkUp p x) := by
  have up := State.port?_mapPort_self h (Port.linkedUp x s.now)
  have sends : s.linkUp p x = ((s.mapPort p (Port.linkedUp x s.now)).raisePort p 0x3002 0).enqueue p 3 0
      (tableBytes (s.bindingTable p)) := by
    have isUp : (((s.mapPort p (Port.linkedUp x s.now)).raisePort p 0x3002 0).port? p).any (fun q => q.phase == .up) = true := by
      exact congrArg (Option.any fun q : Port => q.phase == .up) up
    exact if_pos isUp
  rw [sends]
  exact ⟨State.port?_enqueue_mgmt up _, ((PortOnly.mapPort ..).trans (.raise ..)).trans (.mapPort ..)⟩

section
variable {s : State} {p : Nat} {q : Port} (h : s.port? p = some q) (auth : q.phase = .auth) {x : LinkHello}
include h auth

/-- PORT_AUTH_DONE: a handshake that passes brings the port up with the keys and the partner's table. -/
theorem exec_portAuthDone_passed (passes : s.authFailure p q x = none) :
    ∃ t sent waiting, exec (.portAuthDone p x) s = .next t ∧
      t.port? p = some (((q.withSent sent waiting).linkedUp x s.now).queue [mgmtMsg s.now (tableBytes (s.bindingTable p))]) ∧
      (q.withSent sent waiting).link.restart = q.link.restart ∧ PortOnly p s t := by
  obtain ⟨sent, waiting, answered, restart, now, only⟩ := State.answered_effect h x
  obtain ⟨up, linked⟩ := State.linkUp_effect answered x
  have row : exec (.portAuthDone p x) s = .next ((s.answered p q x).linkUp p x) := by
    change execPortAuthDone p x s = _
    simp only [execPortAuthDone, h, auth, ne_eq, not_true_eq_false, if_false]
    rw [← State.answered, State.authFailure_congr only.base, passes]
  have table : (s.answered p q x).bindingTable p = s.bindingTable p := by
    rw [State.bindingTable, only.ctxs, ← State.bindingTable]
  rw [now, table] at up
  exact ⟨_, sent, waiting, row, up, restart, only.trans linked⟩

theorem exec_portAuthDone_failed (fails : (s.authFailure p q x).isSome = true) :
    ∃ t sent waiting, exec (.portAuthDone p x) s = .next t ∧ t.port? p = some ((q.withSent sent waiting).left .probe) ∧
      OnPort p s t := by
  obtain ⟨sent, waiting, answered, -, -, only⟩ := State.answered_effect h x
  obtain ⟨detail, failure⟩ := Option.isSome_iff_exists.mp fails
  obtain ⟨down, fell⟩ := State.authFailed_effect answered detail
  have row : exec (.portAuthDone p x) s = .next ((s.answered p q x).authFailed p detail) := by
    change execPortAuthDone p x s = _
    simp only [execPortAuthDone, h, auth, ne_eq, not_true_eq_false, if_false]
    rw [← State.answered, State.authFailure_congr only.base, failure]
  exact ⟨_, sent, waiting, row, down, only.toOnPort.trans fell⟩

theorem exec_peerAuthTimeout : exec (.peerAuthTimeout p) s = .next (s.authFailed p 4) := by
  change execPeerAuthTimeout p s = _
  simp only [execPeerAuthTimeout, h, if_pos auth]

end

/-! ## New keys (R309, R310) -/

/-- The state at the moment at which a port's keys are due for renewal. -/
def State.keysDue (s : State) (q : Port) : State :=
  if 2 ^ 40 ≤ q.keyFlits ∨ 2 ^ 40 ≤ q.rxFlits then s else s.advanceTo (q.keyAt + 86400000000)

theorem State.keysDue_effect {s : State} {p : Nat} {q : Port} (h : s.port? p = some q) (q' : Port) :
    (s.keysDue q').port? p = some q ∧ OnPort p s (s.keysDue q') := by
  unfold State.keysDue
  split
  · exact ⟨h, .refl s⟩
  · exact ⟨by rw [State.port?_advanceTo, h], .advanceTo ..⟩

/-- A port that goes on with the keys of a handshake. -/
def Port.renewed (x : LinkHello) (now : Nat) (q : Port) : Port :=
  { q.takeKeys x now with keyGen := (q.keyGen + 1) % 2 ^ 16 }

/-- A renewal leaves the port's state, its epoch and its sequence numbers. -/
theorem Port.renewed_course (q : Port) (nonce : List Byte) (secret now : Nat) (hello : List Byte) (sent : List (List Byte))
    (waiting : List OutMsg) (x : LinkHello) (at_ : Nat) :
    let r := ((q.greeted nonce secret now hello).withSent sent waiting).renewed x at_
    r.phase = q.phase ∧ r.keyGen = (q.keyGen + 1) % 2 ^ 16 ∧ r.epoch = q.epoch ∧ r.link.txSeq = q.link.txSeq ∧
      r.link.rxSeq = q.link.rxSeq := by
  simp only [Port.renewed, Port.takeKeys, Port.withSent, Port.greeted, Port.queue, and_self]

section
variable {s : State} {p : Nat} {q : Port} (h : s.port? p = some q) (up : q.phase = .up) (crypt : q.crypt = true) {x : LinkHello}
  {y : Port} (begun : ((s.keysDue q).sendHello p).port? p = some y)
include h

/-- A renewal begins with a hello, at the moment at which it is due. -/
theorem State.renewalBegun_effect : ∃ nonce secret now hello,
    ((s.keysDue q).sendHello p).port? p = some (q.greeted nonce secret now hello) ∧
      OnPort p s ((s.keysDue q).sendHello p) := by
  obtain ⟨due, waited⟩ := State.keysDue_effect h q
  obtain ⟨nonce, secret, hello, -, greets, -, only⟩ := State.sendHello_effect due
  exact ⟨nonce, secret, _, hello, greets, waited.trans only.toOnPort⟩

include up crypt begun

/-- LINK_KEY_UPDATE: the port's proof is judged. -/
theorem exec_linkKeyUpdate : exec (.linkKeyUpdate ⟨p, x⟩) s =
    (match ((s.keysDue q).sendHello p).authFailure p y x with
     | some d => .next ((((s.keysDue q).sendHello p).answered p y x).authFailed p d)
     | none => .next ((((s.keysDue q).sendHello p).answered p y x).mapPort p
         (Port.renewed x (((s.keysDue q).sendHello p).answered p y x).now))) := by
  obtain ⟨_, _, -, -, -, only⟩ := State.answered_effect begun x
  change execLinkKeyUpdate ⟨p, x⟩ s = _
  simp only [execLinkKeyUpdate, h, up, crypt, and_self, if_true]
  rw [← State.keysDue, begun]
  dsimp only
  rw [← State.answered, State.authFailure_congr only.base]
  rfl

/-- The port goes on with new keys. -/
theorem linkKeyUpdate_renews (passes : ((s.keysDue q).sendHello p).authFailure p y x = none) :
    ∃ t sent waiting, exec (.linkKeyUpdate ⟨p, x⟩) s = .next t ∧
      t.port? p = some ((y.withSent sent waiting).renewed x t.now) ∧ OnPort p s t := by
  obtain ⟨_, _, _, _, -, kept⟩ := State.renewalBegun_effect h
  obtain ⟨sent, waiting, answered, -, -, only⟩ := State.answered_effect begun x
  have row := exec_linkKeyUpdate h up crypt begun (x := x)
  rw [passes] at row
  exact ⟨_, sent, waiting, row, State.port?_mapPort_self answered _, (kept.trans only.toOnPort).trans (.mapPort ..)⟩

theorem linkKeyUpdate_fails (fails : (((s.keysDue q).sendHello p).authFailure p y x).isSome = true) :
    ∃ t sent waiting, exec (.linkKeyUpdate ⟨p, x⟩) s = .next t ∧ t.port? p = some ((y.withSent sent waiting).left .probe) ∧
      OnPort p s t := by
  obtain ⟨_, _, _, _, -, kept⟩ := State.renewalBegun_effect h
  obtain ⟨sent, waiting, answered, -, -, only⟩ := State.answered_effect begun x
  obtain ⟨detail, failure⟩ := Option.isSome_iff_exists.mp fails
  obtain ⟨down, fell⟩ := State.authFailed_effect answered detail
  have row := exec_linkKeyUpdate h up crypt begun (x := x)
  rw [failure] at row
  exact ⟨_, sent, waiting, row, down, (kept.trans only.toOnPort).trans fell⟩

end

theorem exec_bindingTableExchange {s : State} {p : Nat} {q : Port} (h : s.port? p = some q) (up : q.phase = .up)
    (table : List (Nat × Nat)) :
    ∃ t, exec (.bindingTableExchange p table) s = .next t ∧ t.port? p = some { q with partner := table } ∧ PortOnly p s t :=
  ⟨_, rfl, by rw [State.port?_mapPort_self h, if_pos up], .mapPort ..⟩

/-- Settles O54: each row moves the port from one state to the next, by the lemmas above. -/
theorem portsTrainAndComeUp : Obligations.PortsTrainAndComeUp := by
  unfold Obligations.PortsTrainAndComeUp
  intro s p q h
  refine ⟨rfl, fun probe clock alive => ?_, fun lanes train => ⟨fun enough => ?_, fun few => ?_, fun first => ?_, fun again hp => ?_⟩,
    fun x auth => ⟨fun passes => ?_, fun fails => ?_⟩, fun auth => ?_, fun held => ?_, fun x u y up crypt hu begun => ?_,
    fun table up => ?_⟩
  · obtain ⟨t, row, trains, only⟩ := exec_portBurstHeard h probe clock alive
    exact ⟨t, row, trains, only.others, only.ctxs, only.mem⟩
  · obtain ⟨nonce, secret, hello, length, greets, -, only⟩ :=
      State.sendHello_effect (State.port?_mapPort_self h (Port.trained lanes))
    have frame := (PortOnly.mapPort s (Port.trained lanes)).trans only
    exact ⟨_, _, hello, exec_portTrainDone_passed h train lanes enough, greets, rfl, rfl, rfl, rfl, rfl, length, rfl,
      by simp [Port.greeted, Port.queue, Port.trained, mgmtMsg], frame.others, frame.ctxs, frame.mem⟩
  · exact ⟨_, exec_portTrainDone_narrow h train lanes few, State.port?_mapPort_self h _, .mapPort s p _, rfl⟩
  · have row := exec_portTrainDone_failed h train lanes
    rw [if_neg (by omega)] at row
    have frame := (PortOnly.mapPort (p := p) s fun q => { q with phase := .probe }).trans
      (.mapPort _ fun q => { q with selfTestFails := 1 })
    exact ⟨_, row, State.port?_mapPort_self (State.port?_mapPort_self h _) _, frame.others, frame.ctxs⟩
  · have row := exec_portTrainDone_failed h train lanes
    rw [if_pos again] at row
    obtain ⟨retired, caps, flash, others, mem⟩ :=
      State.retirePort_effect (State.port?_mapPort_self h fun q => { q with phase := .probe }) hp
    exact ⟨_, _, row, retired, rfl, caps, flash, fun j other => (others j other).trans (SameOtherPorts.mapPort s p _ j other), mem⟩
  · obtain ⟨t, sent, waiting, row, linked, restart, only⟩ := exec_portAuthDone_passed h auth passes
    refine ⟨t, _, row, linked, rfl, rfl, rfl, rfl, rfl, rfl, rfl, rfl, rfl, rfl, ?_, only.others, only.ctxs, only.mem⟩
    simp only [Port.queue, Port.linkedUp, restart, mgmtMsg]
  · obtain ⟨t, sent, waiting, row, down, kept⟩ := exec_portAuthDone_failed h auth fails
    exact ⟨t, _, row, down, rfl, rfl, kept.others, kept.mem⟩
  · obtain ⟨down, kept⟩ := State.authFailed_effect h 4
    exact ⟨_, _, exec_peerAuthTimeout h auth, down, rfl, rfl, kept.others, kept.mem⟩
  · obtain ⟨t, row, probe, waited, kept⟩ := quarantineExpiry_effect h held
    exact ⟨t, row, probe, waited, kept.others, kept.mem⟩
  · replace hu : u = (s.keysDue q).sendHello p := hu
    subst hu
    obtain ⟨nonce, secret, now, hello, greets, -⟩ := State.renewalBegun_effect h
    cases begun.symm.trans greets
    refine ⟨fun passes => ?_, fun fails => ?_⟩
    · obtain ⟨t, sent, waiting, row, renewed, kept⟩ := linkKeyUpdate_renews h up crypt begun passes
      obtain ⟨phase, gen, epoch, tx, rx⟩ := q.renewed_course nonce secret now hello sent waiting x t.now
      exact ⟨t, _, row, renewed, phase.trans up, gen, rfl, rfl, rfl, rfl, rfl, epoch, tx, rx, kept.others, kept.mem⟩
    · obtain ⟨t, sent, waiting, row, down, kept⟩ := linkKeyUpdate_fails h up crypt begun fails
      exact ⟨t, _, row, down, rfl, rfl, kept.others, kept.mem⟩
  · obtain ⟨t, row, taken, only⟩ := exec_bindingTableExchange h up table
    exact ⟨t, row, taken, only.others, only.ctxs, only.mem⟩

end Sys2Proof.Machine
end

section
/-! PROOFS. Background tasks beside the scrubs (R293, R438, R466, R467) and TELEMETRY_SAMPLE (R448). -/

namespace Sys2Proof.Machine

/-! ## Forced slots (R466) -/

/-- A task's bit is set, and no other one changes. -/
theorem getLsbD_setBit (x : BitVec 8) {k : Nat} (hk : k < 8) (j : Nat) :
    (x ||| BitVec.ofNat 8 (2 ^ k)).getLsbD j = if j = k then true else x.getLsbD j := by
  rw [BitVec.getLsbD_or, BitVec.getLsbD_ofNat, Nat.testBit_two_pow]
  by_cases h : j = k
  · simp [h, hk]
  · simp [h, Ne.symm h]

theorem State.setForced_set (s : State) {k : Nat} (hk : k < 8) (j : Nat) :
    (s.setForced k true).bg.forced.getLsbD j = if j = k then true else s.bg.forced.getLsbD j := getLsbD_setBit _ hk j

theorem State.setForced_clear (s : State) (k : Nat) : (s.setForced k false).bg.forced.getLsbD k = false := getLsbD_clear ..

theorem exec_bgDeadlineForced {s : State} {task : Nat} (deadline : 1 ≤ task ∧ task ≤ 6) :
    exec (.bgDeadlineForced task) s = .next ((s.raise 0x7101 task pkgPath noCtx).setForced task true) := if_pos deadline

/-! ## EQUALISER_RECALIBRATION (R293, R467) -/

theorem PortOnly.of_bg (p : Nat) (s : State) (bg : Background) : PortOnly p s { s with bg } :=
  ⟨⟨fun _ _ => rfl, rfl, rfl, rfl, rfl, rfl, rfl, rfl⟩, rfl⟩

/-- A port whose lane is out of service for its recalibration. -/
def Port.laneOut (lane : Nat) (q : Port) : Port :=
  { q with recal := some lane, lanes := q.lanes - 2 ^ lane, widthChange := true }

/-- A port whose lane's recalibration has ended. -/
def Port.laneBack (lane : Nat) (q : Port) : Port :=
  { q with recal := none, lanes := if bitOf q.lanes lane then q.lanes else q.lanes + 2 ^ lane
           widthChange := q.widthChange || !(bitOf q.lanes lane) }

/-- The state in which a forced slot of the recalibration has been logged, unless it was logged already. -/
def State.recalForced (s : State) (forced : Bool) : State := if forced then s else s.raise 0x7101 3 pkgPath noCtx

theorem State.recalForced_effect (s : State) (forced : Bool) (p : Nat) :
    (s.recalForced forced).port? p = s.port? p ∧ PortOnly p s (s.recalForced forced) := by
  cases forced with
  | true => exact ⟨rfl, .refl s⟩
  | false => exact ⟨rfl, .raise s ..⟩

section
variable {s : State} {p lane : Nat} {q : Port} (h : s.port? p = some q) (up : q.phase = .up)
include h up

/-- The turn of a data lane that no recalibration is in progress for. -/
theorem exec_equaliserRecalibration_begins (hl : lane < 8) (data : bitOf q.lanes lane = true) (idle : q.recal = none) :
    exec (.equaliserRecalibration p lane) s =
      .next ((s.setForced 3 false).beginRecal p lane q.calOk (s.bg.forced.getLsbD 3)) := by
  change execEqualiserRecalibration p lane s = _
  simp [execEqualiserRecalibration, h, up, hl, data, idle, Nat.ne_of_lt hl]

theorem exec_equaliserRecalibration_ends (busy : q.recal = some lane) :
    exec (.equaliserRecalibration p lane) s = .next ((s.setForced 3 false).endRecal p lane) := by
  change execEqualiserRecalibration p lane s = _
  simp [execEqualiserRecalibration, h, up, busy]

theorem recalibration_moves_traffic (hl : lane < 8) (data : bitOf q.lanes lane = true) (idle : q.recal = none)
    (calOk : q.calOk = true) :
    ∃ t, exec (.equaliserRecalibration p lane) s = .next t ∧ t.port? p = some { q with recal := some lane } ∧
      t.bg.forced.getLsbD 3 = false ∧ PortOnly p s t := by
  have row := exec_equaliserRecalibration_begins h up hl data idle
  rw [calOk] at row
  exact ⟨_, row, State.port?_mapPort_self (s := s.setForced 3 false) h _, s.setForced_clear 3,
    (PortOnly.of_bg p s _).trans (.mapPort ..)⟩

theorem recalibration_takes_lane_out (hl : lane < 8) (data : bitOf q.lanes lane = true) (idle : q.recal = none)
    (calFailed : q.calOk = false) :
    ∃ t, exec (.equaliserRecalibration p lane) s = .next t ∧ t.port? p = some (q.laneOut lane) ∧
      t.bg.forced.getLsbD 3 = true ∧ PortOnly p s t := by
  have row := exec_equaliserRecalibration_begins h up hl data idle
  rw [calFailed] at row
  obtain ⟨same, logged⟩ := (s.setForced 3 false).recalForced_effect (s.bg.forced.getLsbD 3) p
  refine ⟨_, row, State.port?_mapPort_self (s := State.setForced _ 3 true) (same.trans h) (Port.laneOut lane), ?_,
    (((PortOnly.of_bg p s _).trans logged).trans (.of_bg p _ _)).trans (.mapPort ..)⟩
  exact (State.setForced_set _ (by omega) 3).trans (if_pos rfl)

theorem recalibration_ends (busy : q.recal = some lane) :
    ∃ t, exec (.equaliserRecalibration p lane) s = .next t ∧ t.port? p = some (q.laneBack lane) ∧
      getKey 0 t.bg.recals (9 * p + lane) = s.now ∧ t.bg.forced.getLsbD 3 = false ∧ PortOnly p s t :=
  ⟨_, exec_equaliserRecalibration_ends h up busy,
    State.port?_mapPort_self (s := (s.setForced 3 false).recalDone p lane) h (Port.laneBack lane), getKey_setKey_self ..,
    s.setForced_clear 3, ((PortOnly.of_bg p s _).trans (.of_bg p _ _)).trans (.mapPort ..)⟩

end

/-! ## Stacks, flash and samples (R221, R438, R448) -/

theorem leBytes_length (n v : Nat) : (leBytes n v).length = n := by
  induction n generalizing v with
  | zero => rfl
  | succ n ih => simp [leBytes, ih]

/-- A sample begins with its number (R448). -/
theorem State.sampleImage_number (s : State) (tm : Telemetry) (number k : Nat) :
    (s.sampleImage tm number k).take 8 = leBytes 8 number := by
  simp only [State.sampleImage, List.append_assoc]
  rw [List.take_append_of_le_length (leBytes_length 8 number).ge, List.take_of_length_le (leBytes_length 8 number).le]

theorem exec_subsoilRetraining {s : State} {st ch : Nat} (hst : st < 12) (hch : ch < 32) (ok : s.stackOk st = true) :
    exec (.subsoilRetraining st ch) s =
      .next ({ s with bg := { s.bg with retrained := setKey s.bg.retrained (32 * st + ch) s.now } }.setForced 4 false) :=
  if_pos ⟨hst, hch, ok⟩

/-- TELEMETRY_SAMPLE, with the number that follows those taken and those skipped (R448, R466). -/
theorem exec_telemetrySample {s : State} (running : s.boot.phase = .running) (tm : Telemetry) :
    exec (.telemetrySample tm) s = .next { s.draw.2 with bg := { s.bg with
      samples := s.bg.samples + tm.skipped + 1
      sample := s.draw.2.sampleImage tm (s.bg.samples + tm.skipped + 1) s.free } } := if_pos running

/-- Settles O50: each task's row clears its own bit, which only its deadline sets, and a sample's first bytes are its
number. -/
theorem backgroundTasksServeTheirSlots : Obligations.BackgroundTasksServeTheirSlots := by
  unfold Obligations.BackgroundTasksServeTheirSlots
  intro s
  refine ⟨fun p lane q h up hl data => ⟨fun idle calOk => ?_, fun busy => ?_, fun idle calFailed => ?_⟩,
    fun p lane q h up busy out => ?_, fun st ch hst hch ok => ?_, fun b => ?_, fun task lo hi => ?_, fun tm running => ?_⟩
  · obtain ⟨t, row, moved, served, only⟩ := recalibration_moves_traffic h up hl data idle calOk
    exact ⟨t, _, row, moved, rfl, rfl, rfl, served, only.others, only.ctxs, only.mem⟩
  · obtain ⟨t, row, back, at_, served, only⟩ := recalibration_ends h up busy
    exact ⟨t, _, row, back, rfl, if_pos data, rfl, at_, served, only.others, only.ctxs, only.mem⟩
  · obtain ⟨t, row, out, forced, only⟩ := recalibration_takes_lane_out h up hl data idle calFailed
    exact ⟨t, _, row, out, rfl, rfl, rfl, rfl, forced, only.others, only.ctxs, only.mem⟩
  · obtain ⟨t, row, back, -, served, only⟩ := recalibration_ends h up busy
    exact ⟨t, _, row, back, rfl, if_neg (by simp [out]), by simp [Port.laneBack, out], served, only.others, only.ctxs,
      only.mem⟩
  · exact ⟨_, exec_subsoilRetraining hst hch ok, getKey_setKey_self .., State.setForced_clear .., rfl, rfl, rfl⟩
  · exact ⟨_, rfl, contains_insertNew .., State.setForced_clear .., rfl, rfl, rfl⟩
  · have forced := (s.raise 0x7101 task pkgPath noCtx).setForced_set (show task < 8 by omega)
    refine ⟨_, exec_bgDeadlineForced ⟨lo, hi⟩, (forced task).trans (if_pos rfl), fun k other => (forced k).trans (if_neg other),
      ?_, rfl, rfl⟩
    simp [pkgPath, noCtx, show min task 0xFFFF = task by omega]
  · exact ⟨_, exec_telemetrySample running tm, rfl, State.sampleImage_number .., rfl, rfl, rfl, rfl⟩

end Sys2Proof.Machine
end

section
/-! PROOFS. COPY_PORT at its sender (R312, R313). -/

namespace Sys2Proof.Machine

section
variable {s : State} {r : InstrRef} {f : Found} {q : Port} (found : s.found? r = some f) (hop : wOp f.words = 0x44)
  (issued : f.p.phase = .issued) (runs : s.engineStopped f = false) (h : s.port? (copyPortOf f.words) = some q)
include found hop issued runs h

/-- On a port that is not UP the copy ends at once (R313). -/
theorem exec_copyPort_ends (down : q.phase ≠ .up) :
    exec (.copyPort r) s = .next (s.copyEnded r (copyPortOf f.words)) := by
  change execCopyPort r s = _
  simp [execCopyPort, found, hop, issued, runs, h, down]

/-- On an UP port with a matched binding the copy waits there as one message (R312). -/
theorem exec_copyPort_sends (up : q.phase = .up) {b : Binding} (bound : f.ctx.lowestBinding (copyPortOf f.words) = some b)
    (matched : (s.partnerOf (copyPortOf f.words) b.number).isSome = true) {data : List Byte}
    (reads : s.copyBytes f.ctx (copySrc f.words) (portLines f.words * 64) = .ok data) :
    exec (.copyPort r) s = .next
      ((s.enqueue (copyPortOf f.words) 0 b.number (copyMessage f.words r.step data)).setPhase r .executed) := by
  have isMatched : (s.partnerOf (copyPortOf f.words) b.number).isNone = false := by
    rw [← Option.not_isSome, matched]
    rfl
  change execCopyPort r s = _
  simp [execCopyPort, found, hop, issued, runs, h, up, bound, isMatched, reads]

end

/-- Settles O21: sending is one update of the port and one of the instruction's phase. -/
theorem portCopyIsSentOrEnds : Obligations.PortCopyIsSentOrEnds := by
  unfold Obligations.PortCopyIsSentOrEnds
  intro s r f q b data found hop issued runs h
  refine ⟨exec_copyPort_ends found hop issued runs h, fun up bound matched reads => ?_⟩
  obtain ⟨g, found', executed⟩ := State.found?_setPhase
    (s := s.enqueue (copyPortOf f.words) 0 b.number (copyMessage f.words r.step data)) found (ph := .executed) nofun
  have frame : OnPort (copyPortOf f.words) s
      ((s.enqueue (copyPortOf f.words) 0 b.number (copyMessage f.words r.step data)).setPhase r .executed) :=
    (OnPort.mapPort s _).trans (.of_device (SameArbiter.setPhase _ r .executed).toSameDevice rfl)
  exact ⟨_, g, _, exec_copyPort_sends found hop issued runs h up bound matched reads, found', executed,
    State.port?_mapPort_self h _, rfl, rfl, .mapCtx _ r.ctx fun _ => rfl, frame.others, frame.base⟩

end Sys2Proof.Machine
end

section
/-! PROOFS. Collectives (R313 to R320): a start, a start that is too small, and a message at its context. -/

namespace Sys2Proof.Machine

/-! ## Notices -/

theorem SameOthers.notify (s : State) (id code detail step : Nat) (data : List Nat) :
    SameOthers id s (s.notify id code detail step data) := by
  unfold State.notify
  split
  · exact .refl id s
  · dsimp only
    split
    · exact fun _ _ => rfl
    · exact .mapCtx s id fun _ => rfl

theorem SameDevice.notify (s : State) (id code detail step : Nat) (data : List Nat) :
    SameDevice s (s.notify id code detail step data) := by
  unfold State.notify
  split
  · exact .refl s
  · dsimp only
    split
    · exact ⟨⟨rfl, rfl, rfl, rfl, rfl, rfl⟩, rfl, rfl, rfl⟩
    · exact .mapCtx s id _

theorem Ctx.notesUnseen_early : Ctx.NotesUnseen Ctx.early := fun _ _ _ _ _ _ => rfl

/-! ## Messages that came early (R315) -/

/-- Where no message came early nothing is handed out. -/
theorem State.collEarly_of_none {s : State} {id : Nat} {c : Ctx} (h : s.ctx? id = some c) (none_ : c.early = []) :
    s.collEarly id = s.mapCtx id fun c => { c with early := [] } := by
  simp [State.collEarly, h, none_]

/-! ## A start (R314) -/

section
variable {s : State} {r : InstrRef} {f : Found} {e : CollEnv} (found : s.found? r = some f) (issued : f.p.phase = .issued)
  (placing : f.ctx.placing = true) (env : f.collEnv = some e)
include found issued placing env

/-- A start that succeeds is followed by the messages that came early. -/
theorem State.startColl_of_begins {u : State} {op : Nat} (begins : s.collBegin e r false = .ok u) (hop : wOp f.words = op) :
    s.startColl r op = u.collEarly r.ctx := by
  simp [State.startColl, found, issued, placing, env, hop, State.collTry, begins]

end

/-! ## A collective with too few members (R319) -/

/-- The event, the hold and the notice of a collective with too few members. -/
def State.undersized (s : State) (e : CollEnv) (r : InstrRef) : State :=
  ((s.raise 0x3203 e.g.serial (s.collSource e.f.path) r.ctx).mapCtx r.ctx fun c => c.holdWith 0x3203 e.g.serial).notify
    r.ctx 0x3203 e.g.serial r.step []

theorem State.collBegin_of_undersized {s : State} {e : CollEnv} {r : InstrRef} {restart : Bool}
    (member : e.eff.testBit (e.g.groupOf e.g.rank) = true) (reduces : e.mode ≠ .ring)
    (few : e.present.length < e.g.size - e.g.budget) : s.collBegin e r restart = .ok (s.undersized e r) := by
  simp only [State.collBegin, member, bne_iff_ne.mpr reduces, few, decide_true, Bool.not_true, Bool.and_self,
    Bool.false_eq_true, if_false, if_true]
  rfl

section
variable (s : State) (e : CollEnv) (r : InstrRef)

theorem State.undersized_mem : (s.undersized e r).mem = s.mem := State.notify_mem ..

theorem SameOthers.undersized : SameOthers r.ctx s (s.undersized e r) :=
  (SameOthers.mapCtx (s.raise 0x3203 e.g.serial (s.collSource e.f.path) r.ctx) r.ctx
    (f := fun c => c.holdWith 0x3203 e.g.serial) fun _ => rfl).trans
    (SameOthers.notify _ _ _ _ _ _)

theorem SameDevice.undersized : SameDevice s (s.undersized e r) :=
  ((SameArbiter.raise s ..).toSameDevice.trans (.mapCtx ..)).trans (.notify ..)

/-- The context is held with the cause, its counters and its early messages as they were. -/
theorem State.ctx?_undersized {c : Ctx} (h : s.ctx? r.ctx = some c) : ∃ d, (s.undersized e r).ctx? r.ctx = some d ∧
    (c.holdWith 0x3203 e.g.serial).SameShown d ∧ d.early = c.early := by
  have held := State.ctx?_mapCtx_self (s := s.raise 0x3203 e.g.serial (s.collSource e.f.path) r.ctx)
    (f := fun c => c.holdWith 0x3203 e.g.serial) h fun _ => rfl
  obtain ⟨d, hd, shown⟩ := (KeepsShown.notify _ r.ctx 0x3203 e.g.serial r.step []).shown r.ctx _ held
  obtain ⟨d', hd', early⟩ := (KeepsSeen.notify Ctx.notesUnseen_early _ r.ctx 0x3203 e.g.serial r.step []).exists_after held
  obtain rfl := Option.some.inj (hd.symm.trans hd')
  exact ⟨d, hd, shown, early⟩

end

/-! ## A message at its context (R313) -/

section
variable {s : State} {p num : Nat} {m : CollMsg} {c : Ctx} {b : Binding} (bound : s.bindingAt p num = some (c, b))
include bound

theorem exec_collMessageReceive_takes (receiving : c.receiving = true) :
    exec (.collMessageReceive p num m) s = .next (s.collDeliver c m) := by
  change execCollMessageReceive p num m s = _
  simp only [execCollMessageReceive, bound, receiving, if_true]

theorem exec_collMessageReceive_drops (receiving : c.receiving = false) :
    exec (.collMessageReceive p num m) s = .next (s.countDrop c.id) := by
  change execCollMessageReceive p num m s = _
  simp only [execCollMessageReceive, bound, receiving, Bool.false_eq_true, if_false]

end

/-- Settles O23: the four rows are one start of their opcode; the hold, its notice and the handing out of no early
message each leave memory and the other contexts as they were. -/
theorem collectivesStartAndReceive : Obligations.CollectivesStartAndReceive := by
  unfold Obligations.CollectivesStartAndReceive
  refine ⟨fun s u r f e found issued placing env begins => ?_,
    fun s r f e found issued placing env hop none_ member reduces few => ?_,
    fun s p num m c b bound hc => ⟨exec_collMessageReceive_takes bound, fun receiving => ?_⟩⟩
  · have starts {op : Nat} (hop : wOp f.words = op) : (.next (s.startColl r op) : Out) = .next (u.collEarly r.ctx) :=
      congrArg _ (State.startColl_of_begins found issued placing env begins hop)
    exact ⟨starts, starts, starts, starts⟩
  · obtain ⟨d, hd, shown, early⟩ := s.ctx?_undersized e r (State.ctx?_of_found found)
    have begins := State.collBegin_of_undersized (s := s) (r := r) (restart := false) member reduces few
    have ends : s.startColl r 0x60 = (s.undersized e r).mapCtx r.ctx fun c => { c with early := [] } :=
      (State.startColl_of_begins found issued placing env begins hop).trans
        (State.collEarly_of_none hd (early.trans none_))
    exact ⟨_, _, congrArg Host.Outcome.next ends, State.ctx?_mapCtx_self hd fun _ => rfl, shown.phase, shown.heldCode,
      shown.heldDetail, shown.counters, s.undersized_mem e r, (SameOthers.undersized s e r).trans (.mapCtx _ _ fun _ => rfl),
      (SameDevice.undersized s e r).trans (.mapCtx ..)⟩
  · exact ⟨_, _, exec_collMessageReceive_drops bound receiving, State.ctx?_mapCtx_self hc fun _ => rfl, rfl, rfl, rfl, rfl,
      .mapCtx _ _ fun _ => rfl, .mapCtx .., rfl⟩

end Sys2Proof.Machine
end

section
/-! PROOFS. Chip resets, power cycles and escalation (R303, R330, R369, R374, R380 to R382). -/

namespace Sys2Proof.Machine

/-! ## The operating time (R426, R439) -/

/-- The log tells the operating time from the same two values. -/
structure Sed.SameClock (a b : Sed) : Prop where
  opMs : b.opMs = a.opMs
  onAt : b.onAt = a.onAt

theorem Sed.SameClock.trans {a b c : Sed} (h : a.SameClock b) (k : b.SameClock c) : a.SameClock c :=
  ⟨k.opMs.trans h.opMs, k.onAt.trans h.onAt⟩

theorem Sed.SameClock.flushed (a : Sed) (flash : List SedRec) (flushed savedMs : Nat) :
    a.SameClock { a with flash, flushed, openRec := false, savedMs } := ⟨rfl, rfl⟩

theorem makeRoom_sameClock {n sev fuel : Nat} {a b : Sed} (h : makeRoom n sev fuel a = some b) : a.SameClock b := by
  induction fuel generalizing a with
  | zero => cases h
  | succ fuel ih =>
    unfold makeRoom at h
    dsimp only at h
    split at h
    · cases h
      exact ⟨rfl, rfl⟩
    · split at h
      · exact have later := ih h; ⟨later.opMs, later.onAt⟩
      · split at h
        · cases h
        · split at h
          · exact have later := ih h; ⟨later.opMs, later.onAt⟩
          · cases h

namespace State

variable {s t : State}

theorem writeLost_sameClock (s : State) : s.sed.SameClock s.writeLost.sed := by
  unfold State.writeLost
  split
  · exact ⟨rfl, rfl⟩
  · split
    · next room => exact (makeRoom_sameClock room).trans ⟨rfl, rfl⟩
    · exact ⟨rfl, rfl⟩

theorem writeRec_sameClock {ev : Event} {supp : Nat} (h : s.writeRec ev supp = some t) : s.sed.SameClock t.sed := by
  unfold State.writeRec at h
  dsimp only at h
  split at h
  · next room =>
    cases h
    exact (writeLost_sameClock s).trans ((makeRoom_sameClock room).trans ⟨rfl, rfl⟩)
  · split at h
    · cases h
      exact (writeLost_sameClock s).trans ⟨rfl, rfl⟩
    · cases h

theorem writeRepeat_sameClock {ev : Event} (h : s.writeRepeat ev = some t) : s.sed.SameClock t.sed := by
  unfold State.writeRepeat at h
  dsimp only at h
  split at h
  · exact writeRec_sameClock h
  · exact have later := writeRec_sameClock h; ⟨later.opMs, later.onAt⟩

theorem writeEvent_sameClock {ev : Event} (h : s.writeEvent ev = some t) : s.sed.SameClock t.sed := by
  unfold State.writeEvent at h
  dsimp only at h
  split at h
  · exact writeRec_sameClock h
  · split at h
    · split at h
      · cases h
        exact ⟨rfl, rfl⟩
      · exact have later := writeRec_sameClock h; ⟨later.opMs, later.onAt⟩
    · split at h
      · split at h
        · cases h
          exact ⟨rfl, rfl⟩
        · exact writeRepeat_sameClock h
      · exact writeRepeat_sameClock h

theorem writeNow_sameClock (s : State) (code detail src ctx : Nat) : s.sed.SameClock (s.writeNow code detail src ctx).sed := by
  have waiting : s.sed.SameClock s.writeWaiting.sed := by
    refine List.foldlRecOn (motive := fun t : State => s.sed.SameClock t.sed) _ _ ⟨rfl, rfl⟩ fun t ht ev _ => ht.trans ?_
    split
    · next h => exact writeEvent_sameClock h
    · exact ⟨rfl, rfl⟩
  refine waiting.trans ?_
  unfold State.writeNow State.writeFirst
  split
  · next h => exact writeRec_sameClock h
  · exact ⟨rfl, rfl⟩

end State

/-! ## What a chip reset keeps (R303, R380, R407, R439) -/

/-- The time, the ports with their epochs, the banks, and every record in flash but that of retirements are kept. -/
structure KeepsDurable (s t : State) : Prop where
  now : t.now = s.now
  epochs : ∀ p q, s.port? p = some q → ∃ r, t.port? p = some r ∧ r.epoch = q.epoch
  bankA : t.flash.bankA = s.flash.bankA
  bankB : t.flash.bankB = s.flash.bankB
  rollback : t.flash.rollback = s.flash.rollback
  records0 : (t.flash.records0.filter fun r => r.kind != 0x11) = s.flash.records0.filter fun r => r.kind != 0x11
  records1 : (t.flash.records1.filter fun r => r.kind != 0x11) = s.flash.records1.filter fun r => r.kind != 0x11

namespace KeepsDurable

variable {s t u : State}

theorem trans (h : KeepsDurable s t) (k : KeepsDurable t u) : KeepsDurable s u where
  now := k.now.trans h.now
  epochs p q hq := by
    obtain ⟨r, hr, same⟩ := h.epochs p q hq
    obtain ⟨x, hx, same'⟩ := k.epochs p r hr
    exact ⟨x, hx, same'.trans same⟩
  bankA := k.bankA.trans h.bankA
  bankB := k.bankB.trans h.bankB
  rollback := k.rollback.trans h.rollback
  records0 := k.records0.trans h.records0
  records1 := k.records1.trans h.records1

/-- An operation that changes neither ports nor flash. -/
theorem of_eq (now : t.now = s.now) (ports : t.ports = s.ports) (flash : t.flash = s.flash) : KeepsDurable s t :=
  ⟨now, fun p q h => ⟨q, by rwa [State.port?_congr ports], rfl⟩, by rw [flash], by rw [flash], by rw [flash], by rw [flash],
   by rw [flash]⟩

/-- An operation that changes each port without its epoch, and nothing in flash. -/
theorem of_ports (now : t.now = s.now) {f : Port → Port} (ports : t.ports = s.ports.map f) (hf : ∀ q, (f q).epoch = q.epoch)
    (flash : t.flash = s.flash) : KeepsDurable s t :=
  ⟨now, fun p q h => ⟨f q, by rw [State.port?] at *; simp [ports, h], hf q⟩, by rw [flash], by rw [flash], by rw [flash],
   by rw [flash], by rw [flash]⟩

end KeepsDurable

/-- Beside `KeepsDurable`: the boot, the operating time and the times of the chip resets are as before. -/
structure KeepsBoot (s t : State) : Prop extends KeepsDurable s t where
  boot : t.boot = s.boot
  opMs : t.opMs = s.opMs
  chipTimes : t.resets.chipTimes = s.resets.chipTimes

namespace KeepsBoot

variable {s t u : State}

theorem trans (h : KeepsBoot s t) (k : KeepsBoot t u) : KeepsBoot s u :=
  ⟨h.toKeepsDurable.trans k.toKeepsDurable, k.boot.trans h.boot, k.opMs.trans h.opMs, k.chipTimes.trans h.chipTimes⟩

theorem refl (s : State) : KeepsBoot s s := ⟨.of_eq rfl rfl rfl, rfl, rfl, rfl⟩

theorem foldl {α : Type} {f : State → α → State} (h : ∀ s a, KeepsBoot s (f s a)) (l : List α) (s : State) :
    KeepsBoot s (l.foldl f s) :=
  List.foldlRecOn (motive := KeepsBoot s) l f (.refl s) fun t ht a _ => ht.trans (h t a)

theorem of_log (h : SameButLog s t) (clock : s.sed.SameClock t.sed) : KeepsBoot s t := by
  obtain ⟨sed, rfl⟩ := h
  have opMs : State.opMs { s with sed } = s.opMs := by rw [State.opMs, clock.opMs, clock.onAt, ← State.opMs]
  exact ⟨.of_eq rfl rfl rfl, rfl, opMs, rfl⟩

theorem writeNow (s : State) (code detail src ctx : Nat) : KeepsBoot s (s.writeNow code detail src ctx) :=
  of_log (.writeNow s ..) (s.writeNow_sameClock ..)

theorem raise (s : State) (code detail src ctx : Nat) : KeepsBoot s (s.raise code detail src ctx) :=
  of_log (.of_sed s _) ⟨rfl, rfl⟩

theorem flushLog (s : State) : KeepsBoot s s.flushLog := of_log (.of_sed s _) (.flushed s.sed ..)

theorem writeDump (s : State) (seq : Nat) : KeepsBoot s (s.writeDump seq) := by
  unfold State.writeDump
  split
  · exact .refl s
  · exact ⟨.of_eq rfl rfl rfl, rfl, rfl, rfl⟩

theorem countFailure (s : State) : KeepsBoot s s.countFailure := ⟨.of_eq rfl rfl rfl, rfl, rfl, rfl⟩

theorem notifyOps (s : State) (code detail : Nat) : KeepsBoot s (s.notifyOps code detail) := by
  obtain ⟨ligil, told⟩ := s.notifyOps_eq code detail
  rw [told]
  exact ⟨.of_eq rfl rfl rfl, rfl, rfl, rfl⟩

theorem saveRetired (s : State) : KeepsBoot s s.saveRetired := by
  obtain ⟨free, records0, records1, settingsOnly, saved, kept0, kept1⟩ := s.saveRetired_cases
  rw [saved]
  exact ⟨⟨rfl, fun p q h => ⟨q, h, rfl⟩, rfl, rfl, rfl, kept0, kept1⟩, rfl, rfl, rfl⟩

/-! ### Retirements (R8, R34, R37, R241, R368) -/

theorem mapPort (s : State) (p : Nat) {f : Port → Port} (hf : ∀ q, (f q).epoch = q.epoch) : KeepsBoot s (s.mapPort p f) := by
  refine ⟨⟨rfl, fun j q h => ⟨if j = p then f q else q, ?_, ?_⟩, rfl, rfl, rfl, rfl, rfl⟩, rfl, rfl, rfl⟩
  · rw [State.port?_mapPort, h]
    split <;> rfl
  · split
    · exact hf q
    · rfl

theorem mapCtx (s : State) (id : Nat) (f : Ctx → Ctx) : KeepsBoot s (s.mapCtx id f) := ⟨.of_eq rfl rfl rfl, rfl, rfl, rfl⟩

theorem copyEnded (s : State) (r : InstrRef) (p : Nat) : KeepsBoot s (s.copyEnded r p) := by
  have retired (t : State) : KeepsBoot t (t.retire r) := (mapCtx t r.ctx _).trans (mapCtx _ r.ctx _)
  exact (raise s ..).trans (retired _)

theorem portLeave (s : State) (p : Nat) (dst : PortPhase) : KeepsBoot s (s.portLeave p dst) :=
  (mapPort s p (f := Port.left dst) fun _ => rfl).trans (.foldl (fun t r => copyEnded t r p) _ _)

theorem retirePort (s : State) (p : Nat) : KeepsBoot s (s.retirePort p) := by
  have without (t : State) : KeepsBoot t (t.withoutPort p) :=
    ⟨⟨rfl, fun _ q h => ⟨q, h, rfl⟩, rfl, rfl, rfl, rfl, rfl⟩, rfl, rfl, rfl⟩
  rw [State.retirePort_eq]
  exact ((((portLeave s p .retired).trans (without _)).trans (saveRetired _)).trans (raise ..)).trans (notifyOps ..)

theorem retireGrain (s : State) (g : Nat) : KeepsBoot s (s.retireGrain g) := by
  have without : KeepsBoot s (s.withoutGrain g) :=
    ⟨⟨rfl, fun _ q h => ⟨q, h, rfl⟩, rfl, rfl, rfl, rfl, rfl⟩, rfl, rfl, rfl⟩
  exact ((without.trans (saveRetired _)).trans (raise ..)).trans (notifyOps ..)

theorem retireCopyEngine (s : State) (e : Nat) : KeepsBoot s (s.retireCopyEngine e) := by
  refine trans (trans ?_ (saveRetired _)) (raise ..)
  exact ⟨⟨rfl, fun _ q h => ⟨q, h, rfl⟩, rfl, rfl, rfl, rfl, rfl⟩, rfl, rfl, rfl⟩

theorem repairTop (s : State) (d : Nat) : KeepsBoot s (s.repairTop d) := by
  refine .foldl (fun t p => ?_) _ s
  dsimp only
  split <;> exact ⟨.of_eq rfl rfl rfl, rfl, rfl, rfl⟩

theorem retireDie (s : State) (d : Nat) : KeepsBoot s (s.retireDie d) := by
  unfold State.retireDie
  split
  · exact .refl s
  · exact .foldl retirePort _ s

theorem retireOn (s : State) (d : Nat) : KeepsBoot s (s.retireOn d) :=
  (((repairTop s d).trans (.foldl retireGrain _ _)).trans (.foldl retireCopyEngine _ _)).trans (retireDie ..)

theorem retireAll (s : State) : KeepsBoot s s.retireAll := .foldl retireOn _ s

end KeepsBoot

/-! ## The block restarts (R303, R330, R375, R380) -/

/-- The block as a chip reset leaves it: no context, session 0 alone, the boot lock open, every port silent. -/
structure Restarted (cause : Nat) (t : State) : Prop where
  ctxs : t.ctxs = []
  sessions : t.ligil.sessions.map Session.id = [0]
  conns : t.ligil.conns = []
  lockOpen : t.boot.lockOpen = true
  resetCause : t.boot.resetCause = cause
  lastChip : t.resets.lastChip = some cause
  parts : t.resets.parts = []
  silent : ∀ p q, t.port? p = some q → q.phase = .off ∨ q.phase = .retired

/-- A port after a chip reset (R303, R375). -/
def Port.restarted (q : Port) : Port :=
  { Port.init with phase := if q.phase = .retired then .retired else .off, epoch := q.epoch }

theorem Port.restarted_phase (q : Port) : q.restarted.phase = .off ∨ q.restarted.phase = .retired := by
  unfold Port.restarted
  split
  · exact .inr rfl
  · exact .inl rfl

theorem State.port?_restart (s : State) (cause : Nat) (phase : BootPhase) (p : Nat) :
    (s.restart cause phase).port? p = (s.port? p).map Port.restarted := List.getElem?_map ..

theorem Restarted.restart (s : State) (cause : Nat) (phase : BootPhase) : Restarted cause (s.restart cause phase) := by
  refine ⟨rfl, rfl, rfl, rfl, rfl, rfl, rfl, fun p q h => ?_⟩
  rw [State.port?_restart, Option.map_eq_some_iff] at h
  obtain ⟨x, -, rfl⟩ := h
  exact x.restarted_phase

/-- The update that a restart cuts off loses its staged image alone (R408). -/
theorem State.restart_flash (s : State) (cause : Nat) (phase : BootPhase) : ∃ stagingA stagingB,
    (s.restart cause phase).flash = { s.flash with stagingA, stagingB } := by
  change ∃ stagingA stagingB, (if s.boot.upd = .receiving then s.flash.setStaging s.updBank [] else s.flash) = _
  unfold Flash.setStaging
  split
  · split
    · exact ⟨_, _, rfl⟩
    · exact ⟨_, _, rfl⟩
  · exact ⟨_, _, rfl⟩

theorem KeepsDurable.restart (s : State) (cause : Nat) (phase : BootPhase) : KeepsDurable s (s.restart cause phase) := by
  obtain ⟨stagingA, stagingB, flash⟩ := s.restart_flash cause phase
  exact ⟨rfl, fun p q h => ⟨q.restarted, by rw [State.port?_restart, h]; rfl, rfl⟩, by rw [flash], by rw [flash],
    by rw [flash], by rw [flash], by rw [flash]⟩

/-! ## A power cycle (R381) -/

/-- The log is flushed, and the dump with it, before the package asks for its power cycle. -/
def State.powerSaved (s : State) : State :=
  let t := (s.countFailure.writeNow 0x5006 0 pkgPath noCtx).flushLog
  { t with sed := { t.sed with dumpFlash := t.sed.dump.or t.sed.dumpFlash, dumpCopying := false } }

/-- The package holds its domains, asserts FAULT_N and sends the interrupt. -/
def State.awaitsPower (t : State) : State :=
  { t with
    resets := { t.resets with powerHold := true, chip := none }
    power := { t.power with faultN := false, ibi := t.power.ibi ++ [0xA5] } }

theorem State.powerCycle_eq (s : State) :
    s.powerCycle = (s.powerSaved.restart s.powerSaved.boot.resetCause .held).awaitsPower := rfl

theorem Restarted.awaitsPower {cause : Nat} {t : State} (h : Restarted cause t) : Restarted cause t.awaitsPower :=
  ⟨h.ctxs, h.sessions, h.conns, h.lockOpen, h.resetCause, h.lastChip, h.parts, h.silent⟩

theorem KeepsDurable.awaitsPower (t : State) : KeepsDurable t t.awaitsPower := .of_eq rfl rfl rfl

theorem State.powerSaved_frame (s : State) : ∃ resets sed, s.powerSaved = { s with resets, sed } ∧ sed.flushed = sed.nextSeq := by
  obtain ⟨sed, logged⟩ := SameButLog.writeNow s.countFailure 0x5006 0 pkgPath noCtx
  unfold State.powerSaved
  rw [logged]
  exact ⟨_, _, rfl, rfl⟩

theorem Restarted.powerCycle (s : State) : Restarted s.boot.resetCause s.powerCycle := by
  obtain ⟨resets, sed, saved, -⟩ := s.powerSaved_frame
  rw [State.powerCycle_eq, saved]
  exact (restart _ _ .held).awaitsPower

theorem KeepsDurable.powerCycle (s : State) : KeepsDurable s s.powerCycle := by
  obtain ⟨resets, sed, saved, -⟩ := s.powerSaved_frame
  rw [State.powerCycle_eq, saved]
  refine KeepsDurable.trans ?_ ((restart { s with resets, sed } s.boot.resetCause .held).trans (awaitsPower _))
  exact .of_eq rfl rfl rfl

/-- The package waits for its power: every domain but the always-on one is held, FAULT_N is asserted, the interrupt sent. -/
theorem State.powerCycle_waits (s : State) : s.powerCycle.boot.phase = .held ∧ s.powerCycle.resets.powerHold = true ∧
    s.powerCycle.power.faultN = false ∧ s.powerCycle.power.ibi = s.power.ibi ++ [0xA5] := by
  obtain ⟨resets, sed, saved, -⟩ := s.powerSaved_frame
  rw [State.powerCycle_eq, saved]
  exact ⟨rfl, rfl, rfl, rfl⟩

theorem State.powerCycle_saved (s : State) : s.powerCycle.sed.flushed = s.powerCycle.sed.nextSeq ∧
    s.powerCycle.flash.records0 = s.flash.records0 ∧ s.powerCycle.flash.records1 = s.flash.records1 := by
  obtain ⟨resets, sed, saved, flushed⟩ := s.powerSaved_frame
  obtain ⟨stagingA, stagingB, flash⟩ := State.restart_flash { s with resets, sed } s.boot.resetCause .held
  rw [State.powerCycle_eq, saved]
  refine ⟨flushed, ?_, ?_⟩
  · exact (congrArg Flash.records0 flash :)
  · exact (congrArg Flash.records1 flash :)

/-! ## A chip reset (R373, R380, R381) -/

/-- A chip reset's record, dump and retirements, before the block restarts. -/
def State.chipStopped (s : State) (cause : Nat) : State :=
  let t := s.writeNow 0x5005 cause pkgPath noCtx
  ((t.writeDump (t.seqOf 0x5005)).countFailure).retireAll.flushLog

/-- The counted chip resets of the last hour of operating time, with one that begins (R373). -/
def State.chipTimesWith (s : State) (cause : Nat) : List Nat :=
  (s.resets.chipTimes.filter fun t => decide (s.opMs / 1000 ≤ t + 3600)) ++
    (if countedCause cause then [s.opMs / 1000] else [])

/-- The times of the counted chip resets are replaced. -/
def State.withChipTimes (s : State) (chipTimes : List Nat) : State := { s with resets := { s.resets with chipTimes } }

/-- The block restarted by a chip reset. -/
def State.chipRestarted (s : State) (cause : Nat) : State :=
  (((s.chipStopped cause).withChipTimes ((s.chipStopped cause).chipTimesWith cause)).restart cause .romStart).withholdRecurring

theorem KeepsBoot.chipStopped (s : State) (cause : Nat) : KeepsBoot s (s.chipStopped cause) :=
  ((((KeepsBoot.writeNow s ..).trans (.writeDump ..)).trans (.countFailure _)).trans (.retireAll _)).trans (.flushLog _)

theorem State.chipTimesWith_chipStopped (s : State) (cause : Nat) :
    (s.chipStopped cause).chipTimesWith cause = s.chipTimesWith cause := by
  have kept := KeepsBoot.chipStopped s cause
  rw [State.chipTimesWith, kept.opMs, kept.chipTimes, ← State.chipTimesWith]

theorem State.chipReset_eq (s : State) (cause : Nat) : s.chipReset cause =
    if countedCause cause ∧ 3 ≤ (s.chipTimesWith cause).length then (s.chipRestarted cause).powerCycle
    else s.chipRestarted cause := by
  rw [← State.chipTimesWith_chipStopped]
  rfl

theorem Restarted.withholdRecurring {cause : Nat} {t : State} (h : Restarted cause t) :
    Restarted cause t.withholdRecurring :=
  ⟨h.ctxs, h.sessions, h.conns, h.lockOpen, h.resetCause, h.lastChip, h.parts, h.silent⟩

theorem KeepsDurable.withholdRecurring (t : State) : KeepsDurable t t.withholdRecurring := .of_eq rfl rfl rfl

theorem KeepsDurable.withChipTimes (t : State) (l : List Nat) : KeepsDurable t (t.withChipTimes l) := .of_eq rfl rfl rfl

theorem Restarted.chipRestarted (s : State) (cause : Nat) : Restarted cause (s.chipRestarted cause) :=
  (restart _ cause .romStart).withholdRecurring

theorem KeepsDurable.chipRestarted (s : State) (cause : Nat) : KeepsDurable s (s.chipRestarted cause) :=
  (((KeepsBoot.chipStopped s cause).toKeepsDurable.trans (withChipTimes _ _)).trans (restart _ cause .romStart)).trans
    (withholdRecurring _)

theorem Restarted.chipReset (s : State) (cause : Nat) : Restarted cause (s.chipReset cause) := by
  rw [State.chipReset_eq]
  split
  · exact Restarted.powerCycle (s.chipRestarted cause)
  · exact .chipRestarted s cause

theorem KeepsDurable.chipReset (s : State) (cause : Nat) : KeepsDurable s (s.chipReset cause) := by
  rw [State.chipReset_eq]
  split
  · exact (chipRestarted s cause).trans (powerCycle _)
  · exact chipRestarted s cause

/-- The phase in which a chip reset leaves the block: a third counted one within the hour waits for its power (R373). -/
theorem State.chipReset_phase (s : State) (cause : Nat) : (s.chipReset cause).boot.phase =
    if countedCause cause ∧ 3 ≤ (s.chipTimesWith cause).length then .held else .romStart := by
  rw [State.chipReset_eq]
  split
  · exact (State.powerCycle_waits _).1
  · rfl

theorem State.chipReset_phase_cases (s : State) (cause : Nat) :
    (s.chipReset cause).boot.phase = .romStart ∨ (s.chipReset cause).boot.phase = .held := by
  rw [State.chipReset_phase]
  split
  · exact .inr rfl
  · exact .inl rfl

theorem State.length_chipTimesWith_le (s : State) (cause : Nat) :
    (s.chipTimesWith cause).length ≤ s.resets.chipTimes.length + 1 := by
  have recent := List.length_filter_le (fun t => decide (s.opMs / 1000 ≤ t + 3600)) s.resets.chipTimes
  rw [State.chipTimesWith, List.length_append]
  split <;> simp <;> omega

theorem State.length_chipTimesWith_of_counted (s : State) {cause : Nat} (counted : countedCause cause = true) :
    (s.chipTimesWith cause).length =
      (s.resets.chipTimes.filter fun t => decide (s.opMs / 1000 ≤ t + 3600)).length + 1 := by
  simp [State.chipTimesWith, counted]

/-- A chip reset that is not counted, or before which fewer than two are known, goes to ROM start. -/
theorem State.chipReset_starts {s : State} {cause : Nat}
    (few : countedCause cause = false ∨ s.resets.chipTimes.length < 2) : (s.chipReset cause).boot.phase = .romStart := by
  have known := s.length_chipTimesWith_le cause
  rw [State.chipReset_phase, if_neg]
  rintro ⟨counted, third⟩
  rcases few with uncounted | few
  · exact Bool.false_ne_true (uncounted.symm.trans counted)
  · omega

/-- The third counted chip reset within an hour waits for its power. -/
theorem State.chipReset_waits {s : State} {cause : Nat} (counted : countedCause cause = true)
    (many : 2 ≤ (s.resets.chipTimes.filter fun t => decide (s.opMs / 1000 ≤ t + 3600)).length) :
    (s.chipReset cause).boot.phase = .held ∧ (s.chipReset cause).resets.powerHold = true ∧
      (s.chipReset cause).power.faultN = false := by
  have third : 3 ≤ (s.chipTimesWith cause).length := by
    rw [s.length_chipTimesWith_of_counted counted]
    omega
  rw [State.chipReset_eq, if_pos ⟨counted, third⟩]
  obtain ⟨held, hold, faultN, -⟩ := (s.chipRestarted cause).powerCycle_waits
  exact ⟨held, hold, faultN⟩

/-! ## What the rows come to -/

theorem exec_chipReset {s : State} {cause : Nat} (powered : s.powered = true) (cool : cause = 0xA → s.boot.thermHold = false) :
    exec (.chipReset cause) s = .next (s.chipReset cause) := by
  have begins : (s.boot.thermHold && cause == 0xA) = false := by
    by_cases h : cause = 0xA
    · simp [cool h]
    · simp [h]
  change execChipReset cause s = _
  simp only [execChipReset, powered, begins, Bool.not_false, Bool.and_self, if_true]

theorem exec_managementHeartbeatExpiry {s : State} (powered : s.powered = true) :
    exec .managementHeartbeatExpiry s = .next (s.chipReset 9) := if_pos powered

theorem exec_powerCycleRequest {s : State} (powered : s.powered = true) :
    exec .powerCycleRequest s = .next s.powerCycle := if_pos powered

theorem exec_readyWatchdogExpiry {s : State} (firmware : s.boot.phase = .firmware) :
    exec .readyWatchdogExpiry s = .next ((s.advanceTo (s.boot.handoverAt + 30000000)).chipReset 9) := if_pos firmware

/-! ## Escalation (R382) -/

/-- A failed reset's record is written when its limit has passed. -/
theorem State.escalated_frame (s : State) (due level src ctx : Nat) : ∃ ctxs now sed,
    (s.advanceTo due).escalated level src ctx = { s with ctxs, now, sed } ∧ due ≤ now := by
  obtain ⟨ctxs, now, passed, le⟩ := s.advanceTo_eq due
  obtain ⟨sed, logged⟩ := SameButLog.writeNow (s.advanceTo due) 0x5007 (level + 1) src ctx
  exact ⟨ctxs, now, sed, by rw [State.escalated, logged, passed], le⟩

theorem State.le_escalated_now (s : State) (due level src ctx : Nat) :
    due ≤ ((s.advanceTo due).escalated level src ctx).now := by
  obtain ⟨ctxs, now, sed, failed, le⟩ := s.escalated_frame due level src ctx
  rwa [failed]

/-- An engine's failed reset becomes the partition reset of its die. -/
theorem State.partitionReset_escalated {s : State} {d : Nat} (due level src ctx cause : Nat) (hd : d < 4)
    (running : s.boot.phase = .running) (ok : s.dieOk d = true) (idle : s.dieResetting d = false) :
    ∃ y ∈ (((s.advanceTo due).escalated level src ctx).partitionReset d cause).resets.parts, y.die = d ∧ y.cause = cause := by
  obtain ⟨ctxs, now, sed, failed, -⟩ := s.escalated_frame due level src ctx
  rw [failed]
  obtain ⟨v, engines, power, resets, -, -, reset, seq, added⟩ :=
    State.partitionReset_eq (s := { s with ctxs, now, sed }) cause hd running ok idle
  rw [reset]
  exact ⟨_, added, rfl, rfl⟩

theorem exec_resetEscalated_context {s : State} {id : Nat} {c : Ctx} {r : CtxReset} (hc : s.ctx? id = some c)
    (hr : c.reset = some r) (alone : r.dies = []) : exec (.resetEscalated 1 id) s = .next (s.escalateCtx c r) := by
  change execResetEscalated 1 id s = _
  simp [execResetEscalated, hc, hr, alone]

theorem exec_resetEscalated_engine {s : State} {path : Nat} {e : Engine}
    (h : (pathEngines path).find? (fun e => (s.engineRec e).resetting.isSome) = some e) :
    ∃ due, exec (.resetEscalated 2 path) s =
      .next (((s.advanceTo due).escalated 2 path noCtx).partitionReset (engineDie e) 6) := by
  have row : exec (.resetEscalated 2 path) s = execResetEscalated 2 path s := rfl
  rw [row, execResetEscalated, h]
  exact ⟨_, rfl⟩

theorem exec_resetEscalated_partition {s : State} {d : Nat} {r : PartReset}
    (h : s.resets.parts.find? (fun x => x.die == d) = some r) : exec (.resetEscalated 3 d) s =
      .next (((s.advanceTo (r.start + 5000000)).escalated 3 (diePath d) noCtx).chipReset 6) := by
  change execResetEscalated 3 d s = _
  rw [execResetEscalated, h]

theorem exec_resetEscalated_chip {s : State} {x : Nat × Nat} (h : s.resets.chip = some x)
    (runs : (s.powered && s.boot.pkgResetN && s.boot.pwrGood && !s.boot.thermHold) = true) :
    exec (.resetEscalated 4 0) s =
      .next ((s.advanceTo (x.2 + chipLimit)).escalated 4 pkgPath noCtx).powerCycle := by
  change execResetEscalated 4 0 s = _
  rw [execResetEscalated, h, runs]

/-- Settles O58: whatever a chip reset writes and retires before it, the restart takes every context and session and leaves
what is durable; the third counted one goes on to the power cycle. -/
theorem chipResetsRestartTheBlock : Obligations.ChipResetsRestartTheBlock := by
  unfold Obligations.ChipResetsRestartTheBlock
  intro s
  refine ⟨fun cause powered cool => ?_, fun powered => ?_, fun firmware => ?_, fun powered => ?_,
    fun id c r hc hr alone => exec_resetEscalated_context hc hr alone, fun path e h running hd ok idle => ?_,
    fun d r h => ?_, fun x h powered resetN good cool => ?_⟩
  · obtain ⟨ctxs, sessions, conns, lockOpen, resetCause, lastChip, parts, silent⟩ := Restarted.chipReset s cause
    obtain ⟨-, epochs, bankA, bankB, rollback, records0, records1⟩ := KeepsDurable.chipReset s cause
    refine ⟨_, exec_chipReset powered cool, ctxs, sessions, conns, lockOpen, resetCause, lastChip, parts,
      s.chipReset_phase_cases cause, fun uncounted => State.chipReset_starts (.inl uncounted),
      fun few => State.chipReset_starts (.inr few), State.chipReset_waits, fun p q hq => ?_, bankA, bankB, records0, records1,
      rollback⟩
    obtain ⟨r, hr, epoch⟩ := epochs p q hq
    exact ⟨r, hr, epoch, silent p r hr⟩
  · rw [exec_managementHeartbeatExpiry powered, exec_chipReset (cause := 9) powered (by simp)]
  · have restarted := Restarted.chipReset (s.advanceTo (s.boot.handoverAt + 30000000)) 9
    exact ⟨_, exec_readyWatchdogExpiry firmware, restarted.ctxs, restarted.lastChip,
      (s.le_advanceTo_now _).trans_eq (KeepsDurable.chipReset _ 9).now.symm⟩
  · obtain ⟨held, hold, faultN, ibi⟩ := s.powerCycle_waits
    obtain ⟨flushed, records0, records1⟩ := s.powerCycle_saved
    exact ⟨_, exec_powerCycleRequest powered, held, hold, faultN, ibi, (Restarted.powerCycle s).ctxs, flushed, records0,
      records1⟩
  · obtain ⟨due, run⟩ := exec_resetEscalated_engine h
    obtain ⟨y, added, die, cause⟩ := State.partitionReset_escalated due 2 path noCtx 6 hd running ok idle
    exact ⟨_, y, run, added, die, cause⟩
  · have restarted := Restarted.chipReset ((s.advanceTo (r.start + 5000000)).escalated 3 (diePath d) noCtx) 6
    exact ⟨_, exec_resetEscalated_partition h, restarted.ctxs, restarted.lastChip,
      (s.le_escalated_now _ 3 _ _).trans_eq (KeepsDurable.chipReset _ 6).now.symm⟩
  · obtain ⟨held, hold, faultN, -⟩ := ((s.advanceTo (x.2 + chipLimit)).escalated 4 pkgPath noCtx).powerCycle_waits
    exact ⟨_, exec_resetEscalated_chip h (by simp [powered, resetN, good, cool]),
      (s.le_escalated_now _ 4 _ _).trans_eq (KeepsDurable.powerCycle _).now.symm, held, hold, faultN,
      (Restarted.powerCycle _).ctxs⟩

end Sys2Proof.Machine
end

section
/-! PROOFS. A port sends one flit at a time (R296 to R299), and sends again what is not acknowledged (R299, R302). -/

namespace Sys2Proof.Machine

/-! ## Which port carries flits (R300, R305) -/

theorem Port.not_idle {q : Port} (carries : q.phase = .up ∨ q.phase = .auth) : ¬(q.phase ≠ .up ∧ q.phase ≠ .auth) :=
  fun ⟨up, auth⟩ => carries.elim up auth

theorem Port.may_send {q : Port} (carries : q.phase = .up ∨ q.phase = .auth) (runs : q.widthChange = false) :
    ¬((q.phase ≠ .up ∧ q.phase ≠ .auth) ∨ q.widthChange = true) :=
  fun h => h.elim (Port.not_idle carries) (by rw [runs]; exact Bool.false_ne_true)

/-! ## Which flit goes next (R298) -/

theorem State.pickVc_of_ready {s : State} {p vc : Nat} {q : Port} (h : s.pickVc p q = some vc) :
    s.vcReady p vc q.link = true := by
  unfold State.pickVc at h
  dsimp only at h
  split at h
  · next management =>
    cases h
    exact (Bool.and_eq_true_iff.mp management).1
  · split at h
    · cases h
    · split at h
      · next control =>
        cases h
        exact (Bool.and_eq_true_iff.mp control).1
      · exact List.find?_some (p := fun v => s.vcReady p v q.link) h

theorem State.nextMsg_of_pickVc {s : State} {p vc : Nat} {q : Port} (h : s.pickVc p q = some vc) :
    ∃ m, s.nextMsg p vc q.link = some m :=
  Option.isSome_iff_exists.mp (Bool.and_eq_true_iff.mp (State.pickVc_of_ready h)).1

/-- Sealing changes a flit's payload alone. -/
theorem Port.dataFlit_header (q : Port) (vc peer : Nat) (m : OutMsg) :
    (q.dataFlit vc peer m).vc = vc ∧ (q.dataFlit vc peer m).seq = q.link.txSeq := by
  unfold Port.dataFlit
  dsimp only
  split <;> exact ⟨rfl, rfl⟩

/-! ## FLIT_SEND (R298, R299) -/

/-- The sender's end of the link has taken a new flit: its number is used up, and it is kept until acknowledged. -/
structure Port.TookNew (q : Port) (f : Flit) (r : Port) : Prop where
  sent : r.link.sent = [f]
  phase : r.phase = q.phase
  rxSeq : r.link.rxSeq = q.link.rxSeq
  seq : f.seq = q.link.txSeq
  txSeq : r.link.txSeq = seqMod (q.link.txSeq + 1)
  replay : r.link.replay = q.link.replay ++ [(f, 0)]

/-- A port after it has sent a kept flit again, with a fresh ack (R299). -/
def Port.resent (f : Flit) (rest : List Flit) (q : Port) : Port :=
  { q with link := { q.link.put f with resend := rest } }

/-- A port after it has asked for a retry (R299). -/
def Port.asked (f : Flit) (now : Nat) (q : Port) : Port :=
  { q with link := { q.link.putNew f now with retryPending := false } }

/-- A port after it has sent an idle flit (R298). -/
def Port.idled (f : Flit) (now : Nat) (q : Port) : Port := { q with link := q.link.putNew f now }

/-- A flit on the wire enters the count of the shares, and nothing else of the link. -/
theorem Link.put_frame (l : Link) (f : Flit) : ∃ recent, l.put f = { l with sent := [f], recent } := ⟨_, rfl⟩

/-- A new flit takes a number and a place of the replay buffer, and returns credits. -/
theorem Link.putNew_frame (l : Link) (f : Flit) (now : Nat) : ∃ recent owed lastAckAt, l.putNew f now =
    { l with
      sent := [f], recent, owed, lastAckAt, txSeq := seqMod (l.txSeq + 1), replay := l.replay ++ [(f, 0)] } := by
  obtain ⟨recent, put⟩ := l.put_frame f
  rw [Link.putNew, put]
  exact ⟨_, _, _, rfl⟩

section
variable (q : Port) (now : Nat)

theorem Port.tookNew_asked (f : Flit) (seq : f.seq = q.link.txSeq) : q.TookNew f (q.asked f now) := by
  obtain ⟨recent, owed, lastAckAt, put⟩ := q.link.putNew_frame f now
  rw [Port.asked, put]
  exact ⟨rfl, rfl, rfl, seq, rfl, rfl⟩

theorem Port.tookNew_idled (f : Flit) (seq : f.seq = q.link.txSeq) : q.TookNew f (q.idled f now) := by
  obtain ⟨recent, owed, lastAckAt, put⟩ := q.link.putNew_frame f now
  rw [Port.idled, put]
  exact ⟨rfl, rfl, rfl, seq, rfl, rfl⟩

theorem Port.tookNew_sendData (f : Flit) (seq : f.seq = q.link.txSeq) (vc : Nat) (m : OutMsg) :
    q.TookNew f (q.sendData f vc now m) := by
  obtain ⟨recent, owed, lastAckAt, put⟩ := q.link.putNew_frame f now
  rw [Port.sendData, put]
  exact ⟨rfl, rfl, rfl, seq, rfl, rfl⟩

theorem Port.sendData_credits (f : Flit) (vc : Nat) (m : OutMsg) :
    (q.sendData f vc now m).link.credits = q.link.credits.set vc (q.link.credits.getD vc 0 - 1) := by
  obtain ⟨recent, owed, lastAckAt, put⟩ := q.link.putNew_frame f now
  rw [Port.sendData, put]

end

section
variable {s : State} {p : Nat} {q : Port} (h : (s.purge p).port? p = some q) (carries : q.phase = .up ∨ q.phase = .auth)
  (runs : q.widthChange = false)
include h carries runs

theorem exec_flitSend_resends {f : Flit} {fs : List Flit} (kept : q.link.resend = f :: fs) :
    exec (.flitSend p) s =
      .next ((s.purge p).mapPort p (Port.resent { f with ack := q.link.ackNow } fs)) := by
  change execFlitSend p s = _
  simp only [execFlitSend, h]
  rw [if_neg (Port.may_send carries runs), kept]
  rfl

section
variable (fresh : q.link.resend = [])
include fresh

theorem exec_flitSend_full (full : 2048 ≤ q.link.replay.length) : exec (.flitSend p) s = .next (s.purge p) := by
  change execFlitSend p s = _
  simp only [execFlitSend, h]
  rw [if_neg (Port.may_send carries runs), fresh, if_pos full]

variable (room : q.link.replay.length < 2048)
include room

theorem exec_flitSend_asks (pending : q.link.retryPending = true) : exec (.flitSend p) s =
    .next ((s.purge p).mapPort p (Port.asked (q.linkFlit 1 (leBytes 3 q.link.rxSeq)) (s.purge p).now)) := by
  change execFlitSend p s = _
  simp only [execFlitSend, h]
  rw [if_neg (Port.may_send carries runs), fresh, if_neg (Nat.not_le.mpr room), if_pos pending]
  rfl

variable (quiet : q.link.retryPending = false)
include quiet

theorem exec_flitSend_idles (none_ : (s.purge p).pickVc p q = none) : exec (.flitSend p) s =
    .next ((s.purge p).mapPort p (Port.idled (q.linkFlit 0 []) (s.purge p).now)) := by
  change execFlitSend p s = _
  simp only [execFlitSend, h]
  rw [if_neg (Port.may_send carries runs), fresh, if_neg (Nat.not_le.mpr room), quiet,
    if_neg Bool.false_ne_true, none_]
  rfl

theorem exec_flitSend_sends {vc : Nat} {m : OutMsg} (picks : (s.purge p).pickVc p q = some vc)
    (next : (s.purge p).nextMsg p vc q.link = some m) : ∃ peer, exec (.flitSend p) s =
    .next ((s.purge p).mapPort p fun x => x.sendData (q.dataFlit vc peer m) vc (s.purge p).now m) := by
  have row : exec (.flitSend p) s = execFlitSend p s := rfl
  simp only [execFlitSend, h] at row
  rw [if_neg (Port.may_send carries runs), fresh, if_neg (Nat.not_le.mpr room), quiet,
    if_neg Bool.false_ne_true, picks] at row
  dsimp only at row
  rw [next] at row
  exact ⟨_, row⟩

end

end

/-- A port that has sent a kept flit again has one flit less to send again, and no new one. -/
theorem Port.resent_link (q : Port) (f : Flit) (rest : List Flit) : (q.resent f rest).link.sent = [f] ∧
    (q.resent f rest).phase = q.phase ∧ (q.resent f rest).link.rxSeq = q.link.rxSeq ∧ (q.resent f rest).link.resend = rest ∧
    (q.resent f rest).link.replay = q.link.replay ∧ (q.resent f rest).link.txSeq = q.link.txSeq := by
  obtain ⟨recent, put⟩ := q.link.put_frame f
  rw [Port.resent, put]
  exact ⟨rfl, rfl, rfl, rfl, rfl, rfl⟩

theorem Port.asked_link (q : Port) (f : Flit) (now : Nat) :
    (q.asked f now).link.retryPending = false ∧ (q.asked f now).link.waiting = q.link.waiting := by
  obtain ⟨recent, owed, lastAckAt, put⟩ := q.link.putNew_frame f now
  rw [Port.asked, put]
  exact ⟨rfl, rfl⟩

theorem Port.idled_waiting (q : Port) (f : Flit) (now : Nat) : (q.idled f now).link.waiting = q.link.waiting := by
  obtain ⟨recent, owed, lastAckAt, put⟩ := q.link.putNew_frame f now
  rw [Port.idled, put]

/-- What a port drops and sends leaves the other ports, contexts, memory, the device and the log as they were. -/
theorem State.purge_mapPort_frame (s : State) (p : Nat) (f : Port → Port) :
    SameOtherPorts p s ((s.purge p).mapPort p f) ∧ ((s.purge p).mapPort p f).ctxs = s.ctxs ∧
      ((s.purge p).mapPort p f).mem = s.mem ∧ SameBase s ((s.purge p).mapPort p f) ∧
      ((s.purge p).mapPort p f).sed = s.sed := by
  have frame : PortOnly p s ((s.purge p).mapPort p f) := (PortOnly.mapPort s _).trans (.mapPort _ f)
  exact ⟨frame.others, frame.ctxs, frame.mem, frame.base, rfl⟩

/-- One flit is on the wire: a kept one again, or a new one, which is a retry request, a flit of the VC whose turn it is, or
an idle one (R298, R299). -/
structure Port.PutOne (q : Port) (turn : Option Nat) (f : Flit) (r : Port) : Prop where
  sent : r.link.sent = [f]
  phase : r.phase = q.phase
  rxSeq : r.link.rxSeq = q.link.rxSeq
  again : ∀ g gs, q.link.resend = g :: gs → f = { g with ack := q.link.ackNow } ∧ r.link.resend = gs ∧
    r.link.replay = q.link.replay ∧ r.link.txSeq = q.link.txSeq
  new : q.link.resend = [] → f.seq = q.link.txSeq ∧ r.link.txSeq = seqMod (q.link.txSeq + 1) ∧
    r.link.replay = q.link.replay ++ [(f, 0)]
  asks : q.link.resend = [] → q.link.retryPending = true → f.type = 1 ∧ f.payload = leBytes 3 q.link.rxSeq ∧
    r.link.retryPending = false ∧ r.link.waiting = q.link.waiting
  sends : ∀ vc, q.link.resend = [] → q.link.retryPending = false → turn = some vc → f.vc = vc ∧
    r.link.credits = q.link.credits.set vc (q.link.credits.getD vc 0 - 1)
  idles : q.link.resend = [] → q.link.retryPending = false → turn = none → f.type = 0 ∧ r.link.waiting = q.link.waiting

/-- What is left to say of a new flit that was put on the wire. -/
theorem Port.TookNew.putOne {q : Port} {turn : Option Nat} {f : Flit} {r : Port} (took : q.TookNew f r)
    (fresh : q.link.resend = [])
    (asks : q.link.retryPending = true → f.type = 1 ∧ f.payload = leBytes 3 q.link.rxSeq ∧ r.link.retryPending = false ∧
      r.link.waiting = q.link.waiting)
    (sends : ∀ vc, q.link.retryPending = false → turn = some vc → f.vc = vc ∧
      r.link.credits = q.link.credits.set vc (q.link.credits.getD vc 0 - 1))
    (idles : q.link.retryPending = false → turn = none → f.type = 0 ∧ r.link.waiting = q.link.waiting) :
    q.PutOne turn f r :=
  ⟨took.sent, took.phase, took.rxSeq, fun _ _ kept => (nomatch fresh.symm.trans kept),
   fun _ => ⟨took.seq, took.txSeq, took.replay⟩, fun _ => asks, fun vc _ => sends vc, fun _ => idles⟩

section
variable (q : Port) (turn : Option Nat) (now : Nat)

theorem Port.putOne_resent {f : Flit} {fs : List Flit} (kept : q.link.resend = f :: fs) :
    q.PutOne turn { f with ack := q.link.ackNow } (q.resent { f with ack := q.link.ackNow } fs) := by
  obtain ⟨sent, phase, rxSeq, resend, replay, txSeq⟩ := q.resent_link { f with ack := q.link.ackNow } fs
  refine ⟨sent, phase, rxSeq, fun g gs same => ?_, ?_, ?_, ?_, ?_⟩
  · cases kept.symm.trans same
    exact ⟨rfl, resend, replay, txSeq⟩
  all_goals simp [kept]

variable (fresh : q.link.resend = [])
include fresh

theorem Port.putOne_asked (pending : q.link.retryPending = true) :
    q.PutOne turn (q.linkFlit 1 (leBytes 3 q.link.rxSeq)) (q.asked (q.linkFlit 1 (leBytes 3 q.link.rxSeq)) now) := by
  obtain ⟨asked, waiting⟩ := q.asked_link (q.linkFlit 1 (leBytes 3 q.link.rxSeq)) now
  refine (q.tookNew_asked now _ rfl).putOne fresh (fun _ => ⟨rfl, rfl, asked, waiting⟩) ?_ ?_
  all_goals simp [pending]

variable (quiet : q.link.retryPending = false)
include quiet

theorem Port.putOne_idled : q.PutOne none (q.linkFlit 0 []) (q.idled (q.linkFlit 0 []) now) :=
  (q.tookNew_idled now _ rfl).putOne fresh (by simp [quiet]) nofun fun _ _ => ⟨rfl, q.idled_waiting ..⟩

theorem Port.putOne_sendData (vc peer : Nat) (m : OutMsg) :
    q.PutOne (some vc) (q.dataFlit vc peer m) (q.sendData (q.dataFlit vc peer m) vc now m) := by
  obtain ⟨vc_, seq⟩ := q.dataFlit_header vc peer m
  refine (q.tookNew_sendData now _ seq vc m).putOne fresh (by simp [quiet]) ?_ nofun
  rintro _ - ⟨⟩
  exact ⟨vc_, q.sendData_credits ..⟩

end

/-- FLIT_SEND: a port with something to send again, or with room for a new flit, puts one flit on the wire. -/
theorem exec_flitSend_putOne {s : State} {p : Nat} {q : Port} (h : (s.purge p).port? p = some q)
    (carries : q.phase = .up ∨ q.phase = .auth) (runs : q.widthChange = false)
    (may : q.link.resend ≠ [] ∨ q.link.replay.length < 2048) :
    ∃ t r f, exec (.flitSend p) s = .next t ∧ t.port? p = some r ∧ q.PutOne ((s.purge p).pickVc p q) f r ∧
      SameOtherPorts p s t ∧ t.ctxs = s.ctxs ∧ t.mem = s.mem ∧ SameBase s t ∧ t.sed = s.sed := by
  cases fresh : q.link.resend with
  | cons g gs =>
    exact ⟨_, _, _, exec_flitSend_resends h carries runs fresh, State.port?_mapPort_self h _, q.putOne_resent _ fresh,
      s.purge_mapPort_frame p _⟩
  | nil =>
    have room : q.link.replay.length < 2048 := may.resolve_left (not_not_intro fresh)
    cases quiet : q.link.retryPending with
    | true =>
      exact ⟨_, _, _, exec_flitSend_asks h carries runs fresh room quiet, State.port?_mapPort_self h _,
        q.putOne_asked _ _ fresh quiet, s.purge_mapPort_frame p _⟩
    | false =>
      cases picks : (s.purge p).pickVc p q with
      | none =>
        exact ⟨_, _, _, exec_flitSend_idles h carries runs fresh room quiet picks, State.port?_mapPort_self h _,
          q.putOne_idled _ fresh quiet, s.purge_mapPort_frame p _⟩
      | some vc =>
        obtain ⟨m, hm⟩ := State.nextMsg_of_pickVc picks
        obtain ⟨peer, run⟩ := exec_flitSend_sends h carries runs fresh room quiet picks hm
        exact ⟨_, _, _, run, State.port?_mapPort_self h _, q.putOne_sendData _ fresh quiet vc peer m,
          s.purge_mapPort_frame p _⟩

/-! ## Sending again (R299, R302) -/

/-- A port that is to send its unacknowledged flits again from a sequence number on. -/
def Port.again (seq : Nat) (q : Port) : Port := { q with retries := satAdd 0xFFFF q.retries 1, link := q.link.again seq }

section
variable {s : State} {p seq : Nat} {q : Port} (h : s.port? p = some q) (carries : q.phase = .up ∨ q.phase = .auth)
  (some_ : (q.link.fromSeq seq).isEmpty = false)
include h carries some_

theorem State.sendAgain_of_kept (kept : q.link.spent seq = false) :
    s.sendAgain p seq = (s.raisePort p 0x3101 0).mapPort p (Port.again seq) := by
  simp only [State.sendAgain, h, Port.not_idle carries, some_, kept, Bool.false_eq_true, or_self, if_false]
  rfl

theorem State.sendAgain_of_spent (spent : q.link.spent seq = true) : s.sendAgain p seq = s.portDown p := by
  simp only [State.sendAgain, h, Port.not_idle carries, some_, spent, Bool.false_eq_true, or_self, if_false, if_true]

end

/-- Everything unacknowledged is sent again from the oldest flit on. -/
theorem Link.fromSeq_of_replay {l : Link} {x : Flit × Nat} {xs : List (Flit × Nat)} (kept : l.replay = x :: xs) :
    l.fromSeq x.1.seq = l.replay := by
  have oldest : l.oldest = x.1.seq := by rw [Link.oldest, kept]; rfl
  rw [← oldest, l.fromSeq_oldest]

/-- ACK_TIMEOUT: what is unacknowledged is sent again, and the wait for an ack begins anew (R299). -/
theorem exec_ackTimeout {s : State} {p : Nat} {q : Port} {x : Flit × Nat} {xs : List (Flit × Nat)} (h : s.port? p = some q)
    (carries : q.phase = .up ∨ q.phase = .auth) (waits : q.link.replay = x :: xs) (kept : q.link.spent x.1.seq = false) :
    ∃ t r, exec (.ackTimeout p) s = .next t ∧ t.port? p = some r ∧ r.link.resend = q.link.replay.map Prod.fst ∧
      r.link.lastAckAt = t.now ∧ q.link.lastAckAt + 20 ≤ t.now ∧ OnPort p s t := by
  have waited := (s.port?_advanceTo (q.link.lastAckAt + 20) p).trans h
  have again := State.sendAgain_of_kept waited carries (by rw [Link.fromSeq_of_replay waits, waits]; rfl) kept
  have resend : (q.again x.1.seq).link.resend = q.link.replay.map Prod.fst :=
    congrArg (List.map Prod.fst) (Link.fromSeq_of_replay waits)
  have row : exec (.ackTimeout p) s = execAckTimeout p s := rfl
  simp only [execAckTimeout, h, waits, again] at row
  refine ⟨_, _, row, State.port?_mapPort_self (State.port?_mapPort_self (f := Port.again x.1.seq)
    (s := (s.advanceTo (q.link.lastAckAt + 20)).raisePort p 0x3101 0) waited) _, resend, rfl, s.le_advanceTo_now _, ?_⟩
  exact (((OnPort.advanceTo s _).trans (.raise ..)).trans (.mapPort ..)).trans (.mapPort ..)

/-- RETRY_REQUEST: what is unacknowledged from the number on is sent again (R299). -/
theorem exec_retryRequest_kept {s : State} {p seq : Nat} {q : Port} (h : s.port? p = some q)
    (carries : q.phase = .up ∨ q.phase = .auth) (some_ : (q.link.fromSeq (seqMod seq)).isEmpty = false)
    (kept : q.link.spent (seqMod seq) = false) : ∃ t, exec (.retryRequest p seq) s = .next t ∧
      t.port? p = some (q.again (seqMod seq)) ∧ PortOnly p s t :=
  ⟨_, congrArg Host.Outcome.next (State.sendAgain_of_kept h carries some_ kept),
    State.port?_mapPort_self (s := s.raisePort p 0x3101 0) h (Port.again (seqMod seq)),
    (PortOnly.raise s ..).trans (.mapPort ..)⟩

/-- RETRY_REQUEST of a flit that has been sent again 8 times takes the port down (R302). -/
theorem exec_retryRequest_spent {s : State} {p seq : Nat} {q : Port} (h : s.port? p = some q)
    (carries : q.phase = .up ∨ q.phase = .auth) (some_ : (q.link.fromSeq (seqMod seq)).isEmpty = false)
    (spent : q.link.spent (seqMod seq) = true) : exec (.retryRequest p seq) s = .next (s.portDown p) :=
  congrArg Host.Outcome.next (State.sendAgain_of_spent h carries some_ spent)

end Sys2Proof.Machine
end

section
/-! PROOFS. A port receives flits (R299, R303, R304, R312). -/

namespace Sys2Proof.Machine

/-! ## Writes through a window change no port -/

theorem State.notify_ports (s : State) (id code detail step : Nat) (data : List Nat) :
    (s.notify id code detail step data).ports = s.ports := (SameDevice.notify s id code detail step data).ports

theorem State.snapComplete_ports (s : State) (id : Nat) : (s.snapComplete id).ports = s.ports := by
  unfold State.snapComplete
  split
  · rfl
  · split
    · split
      · dsimp only
        split
        · exact State.notify_ports ..
        · rfl
      · rfl
    · rfl

theorem State.releaseSlot_ports (s : State) (id win : Nat) : (s.releaseSlot id win).ports = s.ports := by
  unfold State.releaseSlot
  split
  · rfl
  · split
    · rfl
    · split
      · dsimp only
        rw [State.snapComplete_ports, State.mapCtx_ports]
        split <;> rfl
      · rfl

theorem State.firstWrite_ports (s : State) (id off : Nat) : (s.firstWrite id off).ports = s.ports := by
  unfold State.firstWrite
  split
  · split
    · dsimp only
      split
      · exact State.releaseSlot_ports ..
      · rfl
    · rfl
  · rfl

theorem State.wrPage_ports {s t : State} {id off : Nat} {bs : List Byte} (h : s.wrPage id off bs = .ok t) :
    t.ports = s.ports := by
  unfold State.wrPage at h
  split at h
  · cases h
  · split at h
    · split at h <;> cases h
      exact State.firstWrite_ports ..
    · cases h
    · split at h <;> cases h
      rfl

theorem State.wrPages_ports {k : Nat} {s t : State} {id off : Nat} {bs : List Byte} (h : State.wrPages k s id off bs = .ok t) :
    t.ports = s.ports := by
  induction k generalizing s off bs with
  | zero =>
    cases h
    rfl
  | succ k ih =>
    unfold State.wrPages at h
    split at h
    · cases h
      rfl
    · dsimp only at h
      split at h
      · cases h
      · next s' first => exact (ih h).trans (State.wrPage_ports first)

theorem State.wrBytes_ports {s t : State} {id off : Nat} {bs : List Byte} (h : s.wrBytes id off bs = .ok t) :
    t.ports = s.ports := State.wrPages_ports h

/-! ## What the delivery of data leaves of its port (R312, R313) -/

/-- What a receiver shows of the flits it has accepted. -/
structure Port.SameReceiver (q r : Port) : Prop where
  rxSeq : r.link.rxSeq = q.link.rxSeq
  receivedBytes : r.receivedBytes = q.receivedBytes
  retryAsked : r.link.retryAsked = q.link.retryAsked
  phase : r.phase = q.phase

/-- The other ports are as before, and the port has accepted what it had. -/
structure KeepsReceiver (p : Nat) (s t : State) : Prop where
  others : SameOtherPorts p s t
  own : ∀ q, s.port? p = some q → ∃ r, t.port? p = some r ∧ q.SameReceiver r

namespace KeepsReceiver

variable {p : Nat}

theorem trans {s t u : State} (h : KeepsReceiver p s t) (k : KeepsReceiver p t u) : KeepsReceiver p s u := by
  refine ⟨fun j hj => (k.others j hj).trans (h.others j hj), fun q hq => ?_⟩
  obtain ⟨r, hr, ⟨rxSeq, receivedBytes, retryAsked, phase⟩⟩ := h.own q hq
  obtain ⟨x, hx, same⟩ := k.own r hr
  exact ⟨x, hx, same.rxSeq.trans rxSeq, same.receivedBytes.trans receivedBytes, same.retryAsked.trans retryAsked,
    same.phase.trans phase⟩

theorem of_ports {s t : State} (h : t.ports = s.ports) : KeepsReceiver p s t :=
  ⟨.of_ports h, fun q hq => ⟨q, (State.port?_congr h p).trans hq, rfl, rfl, rfl, rfl⟩⟩

theorem refl (s : State) : KeepsReceiver p s s := of_ports rfl

theorem mapPort (s : State) {f : Port → Port} (hf : ∀ q : Port, q.SameReceiver (f q)) : KeepsReceiver p s (s.mapPort p f) :=
  ⟨.mapPort s p f, fun q hq => ⟨f q, State.port?_mapPort_self hq f, hf q⟩⟩

theorem setRx (s : State) (vc bind : Nat) (m : Option RxMsg) :
    KeepsReceiver p s (s.mapPort p fun q => q.setRx vc bind m) := mapPort s fun _ => ⟨rfl, rfl, rfl, rfl⟩

theorem countDrop (s : State) (id : Nat) : KeepsReceiver p s (s.countDrop id) := of_ports rfl

theorem fault (s : State) (id path : Nat) (e : Fail) : KeepsReceiver p s (s.fault id path e) :=
  of_ports (SameDevice.fault ..).ports

theorem signal (s : State) (id path idx add : Nat) : KeepsReceiver p s (s.signal id path idx add) :=
  of_ports (SameArbiter.signal ..).ports

theorem returnCompletion (s : State) (num : Nat) : KeepsReceiver p s (s.returnCompletion p num) := by
  refine trans (t := s.draw.2) (of_ports rfl) (mapPort _ ?_)
  exact fun _ => ⟨rfl, rfl, rfl, rfl⟩

theorem openRx (s : State) (num : Nat) (c : Ctx) (head : List Byte) : KeepsReceiver p s (s.openRx p num c head) := by
  unfold State.openRx
  dsimp only
  split
  · exact (countDrop s c.id).trans (setRx ..)
  · split
    · exact (fault s ..).trans (setRx ..)
    · exact setRx s ..

end KeepsReceiver

/-- A message's part is written as it arrives, or the write faults and the message is bad (R312, R313). -/
def State.writePart (s : State) (p id : Nat) (m : RxMsg) (part : List Byte) : State × RxMsg :=
  if m.bad then (s, m)
  else match s.wrBytes id (m.dest + m.done) part with
    | .ok s' => (s', { m with done := m.done + part.length })
    | .error e => (s.fault id pkgPath { e with src := some (portPath p) }, { m with bad := true })

/-- A message's last part signals its arrival and returns the completion (R312, R313). -/
def State.endPart (s : State) (p num id arrival : Nat) (last : Bool) (m : RxMsg) : State :=
  if last then
    let s := s.mapPort p fun q => q.setRx 0 num none
    (if m.bad then s else s.signal id pkgPath arrival 1).returnCompletion p num
  else s.mapPort p fun q => q.setRx 0 num (some m)

/-- The data of a flit is a part of the message its binding receives; without one it goes nowhere. -/
theorem State.takeData_cases (s : State) (p num : Nat) (data : List Byte) (last : Bool) :
    s.takeData p num data last = s ∨ ∃ (c : Ctx) (b : Binding) (m : RxMsg) (part : List Byte) (t : State),
      (t = s ∨ t = s.countDrop c.id) ∧ s.takeData p num data last =
        (t.writePart p c.id m part).1.endPart p num c.id b.arrival last (t.writePart p c.id m part).2 := by
  unfold State.takeData
  split
  · next m c b _ _ =>
    refine .inr ⟨c, b, { m with bad := m.bad || (!m.bad && !c.receiving) }, data.take (m.total - m.done),
      if !m.bad && !c.receiving then s.countDrop c.id else s, ?_, rfl⟩
    split
    · exact .inr rfl
    · exact .inl rfl
  · exact .inl rfl

namespace KeepsReceiver

variable {p : Nat}

theorem writePart (s : State) (id : Nat) (m : RxMsg) (part : List Byte) : KeepsReceiver p s (s.writePart p id m part).1 := by
  unfold State.writePart
  split
  · exact refl s
  · split
    · next written => exact of_ports (State.wrBytes_ports written)
    · exact fault ..

theorem endPart (s : State) (num id arrival : Nat) (last : Bool) (m : RxMsg) :
    KeepsReceiver p s (s.endPart p num id arrival last m) := by
  unfold State.endPart
  split
  · refine ((setRx s 0 num none).trans ?_).trans (returnCompletion _ num)
    split
    · exact refl _
    · exact signal ..
  · exact setRx ..

theorem takeData (s : State) (num : Nat) (data : List Byte) (last : Bool) :
    KeepsReceiver p s (s.takeData p num data last) := by
  obtain nowhere | ⟨c, b, m, part, t, dropped, taken⟩ := s.takeData_cases p num data last
  · rw [nowhere]
    exact refl s
  · have start : KeepsReceiver p s t := by
      rcases dropped with rfl | rfl
      · exact refl _
      · exact countDrop ..
    rw [taken]
    exact (start.trans (writePart t ..)).trans (endPart ..)

/-- Only a retry request changes what its port shows of the flits it has accepted. -/
theorem deliver (s : State) {f : Flit} (other : f.type ≠ 1) (data : List Byte) : KeepsReceiver p s (s.deliver p f data) := by
  unfold State.deliver
  split
  · next retry => exact absurd retry other
  · split
    · exact (openRx s ..).trans (takeData ..)
    · exact refl s
  · exact takeData ..
  · exact refl s

end KeepsReceiver

/-! ## FLIT_RECEIVE (R299, R303, R304) -/

/-- A port that has accepted a flit expects the next number, has asked for no retry, and stands as it stood. -/
theorem Port.accepted_receiver (q : Port) (f : Flit) (now : Nat) :
    (q.accepted f now).link.rxSeq = seqMod (q.link.rxSeq + 1) ∧
      (q.accepted f now).receivedBytes = q.receivedBytes + (if f.type < 2 then 0 else f.fill) ∧
      (q.accepted f now).link.retryAsked = false ∧ (q.accepted f now).phase = q.phase ∧
      (q.accepted f now).malformed = q.malformed := by
  simp only [Port.accepted, Port.trailer]
  split <;> simp

section
variable {s : State} {p : Nat} {q : Port} {bytes : List Byte} {clean : Bool} (h : s.port? p = some q)
  (carries : q.phase = .up ∨ q.phase = .auth)
include h carries

/-- A flit with a codeword beyond correction or a bad check is asked for again. -/
theorem exec_flitReceive_damaged (damaged : clean = false ∨ crcGood bytes = false) :
    exec (.flitReceive p bytes clean) s = .next (s.askRetry p) := by
  have bad : (clean && crcGood bytes) = false := by rcases damaged with d | d <;> simp [d]
  change execFlitReceive p bytes clean s = _
  simp only [execFlitReceive, h, Port.not_idle carries, bad, Bool.false_eq_true, if_false]

theorem exec_flitReceive_sound (sound : clean = true) (good : crcGood bytes = true) :
    exec (.flitReceive p bytes clean) s = .next (s.takeFlit p q (Flit.ofBytes bytes)) := by
  change execFlitReceive p bytes clean s = _
  simp only [execFlitReceive, h, Port.not_idle carries, sound, good, Bool.and_self, if_true, if_false]

end

section
variable {s : State} {p : Nat} {q : Port} {f : Flit}

theorem State.takeFlit_stale (stale : f.epoch ≠ q.epoch % 256) : s.takeFlit p q f =
    (s.raisePort p 0x3107 0).mapPort p fun q => { q with stale := satAdd 0xFFFFFFFF q.stale 1 } := if_pos stale

variable (current : f.epoch = q.epoch % 256)
include current

theorem State.takeFlit_refused (refused : f.seq ≠ q.link.rxSeq ∨ q.opened f = none) : s.takeFlit p q f = s.askRetry p := by
  rw [State.takeFlit, if_neg (not_not_intro current)]
  by_cases next : f.seq = q.link.rxSeq
  · rw [if_neg (not_not_intro next), refused.resolve_left (not_not_intro next)]
  · rw [if_pos next]

variable {data : List Byte} (opened : q.opened f = some data) (next : f.seq = q.link.rxSeq)
include opened next

theorem State.takeFlit_delivers (sound : s.malformed p q f = false) :
    s.takeFlit p q f = (s.mapPort p fun q => q.accepted f s.now).deliver p f data := by
  rw [State.takeFlit, if_neg (not_not_intro current), if_neg (not_not_intro next), opened]
  dsimp only
  rw [sound, if_neg Bool.false_ne_true]

theorem State.takeFlit_counts (malformed : s.malformed p q f = true) :
    s.takeFlit p q f = (s.mapPort p fun q => q.accepted f s.now).countMalformed p := by
  rw [State.takeFlit, if_neg (not_not_intro current), if_neg (not_not_intro next), opened]
  dsimp only
  rw [malformed, if_pos rfl]

end

/-- A malformed flit is counted, and may quarantine its port (R304, R306). -/
theorem State.countMalformed_effect {s : State} {p : Nat} {q : Port} (h : s.port? p = some q) :
    ∃ r, (s.countMalformed p).port? p = some r ∧ r.malformed = satAdd 0xFFFFFFFF q.malformed 1 ∧
      (r.phase = q.phase ∨ r.phase = .quarantine) ∧ OnPort p s (s.countMalformed p) := by
  have counted {f : Port → Port} := State.port?_mapPort_self (s := s.raisePort p 0x3108 0) h f
  have frame (f : Port → Port) : OnPort p s ((s.raisePort p 0x3108 0).mapPort p f) := (OnPort.raise s ..).trans (.mapPort ..)
  unfold State.countMalformed
  dsimp only
  split
  · exact ⟨_, State.port?_quarantine counted, rfl, .inr rfl, (frame _).trans (.quarantine _)⟩
  · exact ⟨_, counted, rfl, .inl rfl, frame _⟩

/-- A port that asks for a retry expects the number it expected (R299). -/
theorem State.askRetry_effect {s : State} {p : Nat} {q : Port} (h : s.port? p = some q) :
    ∃ r, (s.askRetry p).port? p = some r ∧ r.link.retryAsked = true ∧ r.link.rxSeq = q.link.rxSeq ∧
      PortOnly p s (s.askRetry p) :=
  ⟨_, State.port?_mapPort_self h _, rfl, rfl, .mapPort s _⟩

/-! ## What becomes of a flit (R299, R303, R304) -/

section
variable {s : State} {p : Nat} {q : Port} {bytes : List Byte} {clean : Bool} {f : Flit} (h : s.port? p = some q)
  (carries : q.phase = .up ∨ q.phase = .auth) (hf : f = Flit.ofBytes bytes)
include h carries hf

/-- A flit that fails a check is asked for again, whichever check it fails. -/
theorem exec_flitReceive_refused (bad : clean = false ∨ crcGood bytes = false ∨
    (f.epoch = q.epoch % 256 ∧ (f.seq ≠ q.link.rxSeq ∨ q.opened f = none))) :
    exec (.flitReceive p bytes clean) s = .next (s.askRetry p) := by
  by_cases damaged : clean = false ∨ crcGood bytes = false
  · exact exec_flitReceive_damaged h carries damaged
  · obtain ⟨current, refused⟩ := (or_assoc.mpr bad).resolve_left damaged
    rw [not_or, Bool.not_eq_false, Bool.not_eq_false] at damaged
    rw [exec_flitReceive_sound h carries damaged.1 damaged.2, ← hf, State.takeFlit_refused current refused]

variable (sound : clean = true) (good : crcGood bytes = true)
include sound good

/-- A flit of another epoch is counted as stale, and the link is as before. -/
theorem exec_flitReceive_stale (stale : f.epoch ≠ q.epoch % 256) : ∃ t, exec (.flitReceive p bytes clean) s = .next t ∧
    t.port? p = some { q with stale := satAdd 0xFFFFFFFF q.stale 1 } ∧ PortOnly p s t := by
  rw [exec_flitReceive_sound h carries sound good, ← hf, State.takeFlit_stale stale]
  exact ⟨_, rfl, State.port?_mapPort_self (s := s.raisePort p 0x3107 0) h _, (PortOnly.raise s ..).trans (.mapPort ..)⟩

variable (current : f.epoch = q.epoch % 256) {data : List Byte} (opened : q.opened f = some data)
  (next : f.seq = q.link.rxSeq)
include current opened next

/-- A sound flit in sequence is accepted, and what it carries is delivered. -/
theorem exec_flitReceive_accepted (formed : s.malformed p q f = false) (other : f.type ≠ 1) :
    ∃ t r, exec (.flitReceive p bytes clean) s = .next t ∧ t.port? p = some r ∧ (q.accepted f s.now).SameReceiver r ∧
      SameOtherPorts p s t := by
  rw [exec_flitReceive_sound h carries sound good, ← hf, State.takeFlit_delivers current opened next formed]
  have delivered := KeepsReceiver.deliver (p := p) (s.mapPort p fun q => q.accepted f s.now) other data
  obtain ⟨r, hr, same⟩ := delivered.own _ (State.port?_mapPort_self h _)
  exact ⟨_, r, rfl, hr, same, fun j hj => (delivered.others j hj).trans (SameOtherPorts.mapPort s p _ j hj)⟩

/-- A malformed flit is accepted and counted. -/
theorem exec_flitReceive_malformed (malformed : s.malformed p q f = true) :
    ∃ t r, exec (.flitReceive p bytes clean) s = .next t ∧ t.port? p = some r ∧
      r.malformed = satAdd 0xFFFFFFFF q.malformed 1 ∧ (r.phase = q.phase ∨ r.phase = .quarantine) ∧ OnPort p s t := by
  rw [exec_flitReceive_sound h carries sound good, ← hf, State.takeFlit_counts current opened next malformed]
  obtain ⟨-, -, -, phase, count⟩ := q.accepted_receiver f s.now
  obtain ⟨r, hr, counted, stands, frame⟩ :=
    State.countMalformed_effect (State.port?_mapPort_self h fun q => q.accepted f s.now)
  exact ⟨_, r, rfl, hr, counted.trans (congrArg (fun n => satAdd 0xFFFFFFFF n 1) count), stands.imp_left (·.trans phase),
    (OnPort.mapPort s fun q => q.accepted f s.now).trans frame⟩

end

/-- Settles O52: one flit is put on the wire by one update of the port, whichever flit it is; a sound flit is accepted before
what it carries is delivered, and the delivery keeps what the receiver shows. -/
theorem linksSendAndReceiveFlits : Obligations.LinksSendAndReceiveFlits := by
  unfold Obligations.LinksSendAndReceiveFlits
  intro s p q carries
  refine ⟨fun h runs => ⟨exec_flitSend_full h carries runs, fun may => ?_⟩, fun bytes clean f h hf => ⟨fun bad => ?_,
    fun sound good stale => ?_, fun data sound good current opened next => ⟨fun formed other => ?_, fun malformed => ?_⟩⟩,
    fun seq h some_ kept => ?_, fun seq h up some_ spent => ?_, fun x xs h waits kept => ?_⟩
  · obtain ⟨t, r, f, run, hr, ⟨sent, phase, rxSeq, again, new, asks, sends, idles⟩, frame⟩ :=
      exec_flitSend_putOne h carries runs may
    exact ⟨t, r, f, run, hr, sent, phase, rxSeq, again, new, asks, sends, idles, frame⟩
  · obtain ⟨r, hr, asked, rxSeq, frame⟩ := State.askRetry_effect h
    exact ⟨_, r, exec_flitReceive_refused h carries hf bad, hr, asked, rxSeq, frame.others, frame.ctxs, frame.mem⟩
  · obtain ⟨t, run, hr, frame⟩ := exec_flitReceive_stale h carries hf sound good stale
    exact ⟨t, _, run, hr, rfl, rfl, frame.others, frame.ctxs, frame.mem⟩
  · obtain ⟨rxSeq, received, asked, phase, -⟩ := q.accepted_receiver f s.now
    obtain ⟨t, r, run, hr, same, others⟩ :=
      exec_flitReceive_accepted h carries hf sound good current opened next formed other
    exact ⟨t, r, run, hr, same.rxSeq.trans rxSeq, same.receivedBytes.trans received, same.retryAsked.trans asked,
      same.phase.trans phase, others⟩
  · obtain ⟨t, r, run, hr, counted, stands, frame⟩ :=
      exec_flitReceive_malformed h carries hf sound good current opened next malformed
    exact ⟨t, r, run, hr, counted, stands, frame.others, frame.mem⟩
  · obtain ⟨t, run, hr, frame⟩ := exec_retryRequest_kept h carries some_ kept
    exact ⟨t, _, run, hr, rfl, rfl, rfl, frame.others, frame.ctxs, frame.mem⟩
  · obtain ⟨down, fell⟩ := State.portDown_effect h
    exact ⟨_, _, exec_retryRequest_spent h carries some_ spent, down, rfl, fell.others⟩
  · obtain ⟨t, r, run, hr, resend, since, waited, frame⟩ := exec_ackTimeout h carries waits kept
    exact ⟨t, r, run, hr, resend, since, waited, frame.others, frame.mem⟩

end Sys2Proof.Machine
end


section
/-! PROOFS. A step runs the front command, no command touches the queue, and what the answer to a Ligil command leaves as it
was (R331 to R335, R427). -/

namespace Sys2Proof.Machine

/-! ## Steps and the queue -/

/-- Settles O1: a step looks at the queue, and both queues are given. -/
theorem stepRunsFrontCommand : Obligations.StepRunsFrontCommand := by
  unfold Obligations.StepRunsFrontCommand
  exact fun _ _ _ => ⟨rfl, rfl⟩

/-- Settles O5: every row keeps what every operation of the model keeps, the queue among it. -/
theorem noCommandTouchesTheQueue : Obligations.NoCommandTouchesTheQueue := by
  unfold Obligations.NoCommandTouchesTheQueue
  exact fun c s t run => ((exec_keeps s c).at_next t run).pending

/-! ## The row of an accepted command -/

/-- An accepted command of its row's own code has its row's effect, once it has taken its place in the sequence (R334). -/
theorem exec_of_accepted {s : State} {sl : Slot} {se : Session} (h : Accepted s sl se) {i : Instr} {mine : Bool}
    {run : Session → State → State} (row : exec i s = .next (s.command i sl mine run)) (own : mine = true) :
    exec i s = .next (run se (s.advanceSeq se.id sl)) := by
  rw [row, own, State.command_of_accepted h]

/-! ## Answers and refusals -/

/-- The sessions, the in-band interrupts and the log alone differ. -/
def SameButAnswer (s t : State) : Prop :=
  ∃ sessions power sed, t = { s with ligil := { s.ligil with sessions }, power, sed }

namespace SameButAnswer

variable {s t u : State}

theorem refl (s : State) : SameButAnswer s s := ⟨s.ligil.sessions, s.power, s.sed, rfl⟩

theorem trans (h : SameButAnswer s t) (k : SameButAnswer t u) : SameButAnswer s u := by
  obtain ⟨_, _, _, rfl⟩ := h
  obtain ⟨_, _, _, rfl⟩ := k
  exact ⟨_, _, _, rfl⟩

theorem mapSession (s : State) (id : Nat) (f : Session → Session) : SameButAnswer s (s.mapSession id f) :=
  ⟨_, s.power, s.sed, rfl⟩

theorem advanceSeq (s : State) (id : Nat) (sl : Slot) : SameButAnswer s (s.advanceSeq id sl) := mapSession ..

theorem answer (s : State) (id : Nat) (sl : Slot) (status detail : Nat) (words : List (Nat × Nat)) (payload : List Byte) :
    SameButAnswer s (s.answer id sl status detail words payload) := by
  unfold State.answer
  split
  · exact refl s
  · dsimp only
    split
    · exact ⟨_, _, s.sed, rfl⟩
    · exact ⟨_, s.power, s.sed, rfl⟩

theorem refuse (s : State) (id : Nat) (sl : Slot) (status detail : Nat) : SameButAnswer s (s.refuse id sl status detail) :=
  trans (t := s.raise status detail pkgPath ((sl.named.map fun c => c % 256).getD noCtx))
    ⟨s.ligil.sessions, s.power, _, rfl⟩ (answer ..)

section
variable (h : SameButAnswer s t)
include h

theorem ctxs : t.ctxs = s.ctxs := by obtain ⟨_, _, _, rfl⟩ := h; rfl

theorem mem : t.mem = s.mem := by obtain ⟨_, _, _, rfl⟩ := h; rfl

theorem ports : t.ports = s.ports := by obtain ⟨_, _, _, rfl⟩ := h; rfl

theorem flash : t.flash = s.flash := by obtain ⟨_, _, _, rfl⟩ := h; rfl

theorem boot : t.boot = s.boot := by obtain ⟨_, _, _, rfl⟩ := h; rfl

theorem resets : t.resets = s.resets := by obtain ⟨_, _, _, rfl⟩ := h; rfl

theorem arbiter : t.arbiter = s.arbiter := by obtain ⟨_, _, _, rfl⟩ := h; rfl

theorem pending : t.pending = s.pending := by obtain ⟨_, _, _, rfl⟩ := h; rfl

theorem bg : t.bg = s.bg := by obtain ⟨_, _, _, rfl⟩ := h; rfl

theorem frames : t.ligil.frames = s.ligil.frames := by obtain ⟨_, _, _, rfl⟩ := h; rfl

theorem ctx? (j : Nat) : t.ctx? j = s.ctx? j := congrArg (List.find? _) h.ctxs

end

end SameButAnswer

/-- An answer is no record of the log (R331). -/
theorem State.answer_sed (s : State) (id : Nat) (sl : Slot) (status detail : Nat) (words : List (Nat × Nat))
    (payload : List Byte) : (s.answer id sl status detail words payload).sed = s.sed := by
  obtain ⟨_, _, h⟩ := s.answer_eq id sl status detail words payload
  rw [h]

/-- The session that is answered differs in its slots alone, one of which holds the response (R331). -/
theorem State.session?_answer {s : State} {id : Nat} {x : Session} (h : s.session? id = some x) (sl : Slot)
    (status detail : Nat) (words : List (Nat × Nat)) (payload : List Byte) : ∃ y slots,
    (s.answer id sl status detail words payload).session? id = some { x with slots } ∧ y ∈ slots ∧ y.number = sl.number ∧
      y.status = status ∧ y.payload = payload := by
  obtain ⟨owner, power, answered⟩ := State.answer_of_open sl status detail words payload h
  refine ⟨response owner sl status detail words payload,
    (x.answered (response owner sl status detail words payload)).slots, ?_,
    List.mem_append_right _ (List.mem_singleton_self _), rfl, rfl, rfl⟩
  rw [answered]
  exact State.session?_mapSession_self h fun _ => rfl

/-- A refusal is answered with its status (R427). -/
theorem State.responded_refuse {s : State} {id : Nat} {x : Session} (h : s.session? id = some x) (sl : Slot)
    (status detail : Nat) : (s.refuse id sl status detail).responded id sl status :=
  State.responded_answer (s := s.raise status detail pkgPath ((sl.named.map fun c => c % 256).getD noCtx)) _ _ _ _ _ h

/-! ## The checks (R335) -/

theorem State.execute_of_refused {s : State} {se : Session} {sl : Slot} {st d : Nat} (h : s.verdict se sl = .refuse st d)
    (c : Instr) (run : State → State) : s.execute se c sl run =
      (if st = 0x4402 then s else s.advanceSeq se.id sl).refuse se.id sl st d := by
  simp only [State.execute, h]

/-- A command out of its sequence takes no place in it (R334). -/
theorem State.inSequence_frame {s : State} {se x : Session} (h : s.session? se.id = some x) (st : Nat) (sl : Slot) :
    SameButAnswer s (if st = 0x4402 then s else s.advanceSeq se.id sl) ∧
      ∃ y, (if st = 0x4402 then s else s.advanceSeq se.id sl).session? se.id = some y := by
  split
  · exact ⟨.refl s, x, h⟩
  · exact ⟨.advanceSeq .., _, State.session?_mapSession_self h fun _ => rfl⟩

/-- Settles O30: a refusal is a record of the log and an answer. -/
theorem refusedCommandsChangeNothing : Obligations.RefusedCommandsChangeNothing := by
  unfold Obligations.RefusedCommandsChangeNothing
  intro s se c sl run st d refused known
  obtain ⟨frame, y, hy⟩ := State.inSequence_frame known st sl
  have same := frame.trans (.refuse _ se.id sl st d)
  rw [State.execute_of_refused refused]
  exact ⟨State.responded_refuse hy sl st d, same.ctxs, same.mem, same.ports, same.flash, same.boot, same.resets,
    same.arbiter, same.pending, same.bg⟩

/-- What a command has passed that the checks of orders 2 to 6 let through (R335, R338). -/
structure Passed (s : State) (se : Session) (sl : Slot) : Prop where
  greets : sl.cmd = 1 → se.hello = false
  path : s.pathOk sl = true
  role : roleOk se.roles sl = true
  acts : ∀ c, sl.named = some c → mayAct se (s.ctx? c) sl = none

theorem Passed.of_go {s : State} {se : Session} {sl : Slot} (h : s.verdict se sl = .go) : Passed s se sl := by
  unfold State.verdict at h
  split at h
  · exact nomatch h
  next inSequence =>
  split at h
  · exact nomatch h
  split at h
  · exact nomatch h
  next path =>
  split at h
  · exact nomatch h
  next role =>
  refine ⟨fun code => ?_, by simpa using path, by simpa using role, fun c named => ?_⟩
  · simpa [code] using (not_or.mp inSequence).2
  · rw [named] at h
    dsimp only at h
    split at h
    · exact nomatch h
    next acts => exact acts

/-- A session acts on a context of its own identity; RELEASE and RESET_REQ are an operator's too (R338). -/
theorem exists_ctx_of_mayAct {se : Session} {c : Option Ctx} {sl : Slot} (h : mayAct se c sl = none) :
    ∃ d, c = some d ∧ (d.config.owner = se.identity ∨ se.roles.getLsbD 2 = true) := by
  unfold mayAct at h
  split at h
  · exact nomatch h
  next d =>
  refine ⟨d, rfl, ?_⟩
  split at h
  next operator => exact .inr operator.2
  split at h
  · exact nomatch h
  next owner => exact .inl (not_not.mp owner)

/-- What a session without the operator role may not command (R327, R340). -/
theorem roleOk_operator {roles : BitVec 3} {sl : Slot} (role : roleOk roles sl = true)
    (code : sl.cmd ∈ [0x60, 0x61, 0x62, 0x63, 0x70, 0x71, 0x81]) : roles.getLsbD 2 = true := by
  unfold roleOk at role
  generalize sl.cmd = n at code role
  simp only [List.mem_cons, List.not_mem_nil, or_false] at code
  rcases code with rfl | rfl | rfl | rfl | rfl | rfl | rfl <;> exact role

/-- What a session without the tenant role may not command (R327, R340). -/
theorem roleOk_tenant {roles : BitVec 3} {sl : Slot} (role : roleOk roles sl = true)
    (code : sl.cmd ∈ [0x10, 0x11, 0x13, 0x14, 0x20, 0x21, 0x30, 0x31, 0x32, 0x40, 0x41, 0x42]) :
    roles.getLsbD 0 = true := by
  unfold roleOk at role
  generalize sl.cmd = n at code role
  simp only [List.mem_cons, List.not_mem_nil, or_false] at code
  rcases code with rfl | rfl | rfl | rfl | rfl | rfl | rfl | rfl | rfl | rfl | rfl | rfl <;> exact role

/-- Settles O31: the role check is one look at the command's code, and the named context passes R338. -/
theorem rolesLimitCommands : Obligations.RolesLimitCommands := by
  unfold Obligations.RolesLimitCommands
  intro s se sl go
  have passed := Passed.of_go go
  exact ⟨roleOk_operator passed.role, roleOk_tenant passed.role, fun c named => exists_ctx_of_mayAct (passed.acts c named)⟩

end Sys2Proof.Machine
end


section
/-! PROOFS. ADMIT, RELEASE, ATTACH_COMMONS and DETACH_COMMONS (R343, R346 to R348). -/

namespace Sys2Proof.Machine

/-! ## ADMIT (R343) -/

/-- The arguments that ADMIT asks of a client who asks for no commons (R343). -/
structure AdmitArgs (sl : Slot) : Prop where
  seed : sl.len = 32
  flags : sl.w 4 < 32
  reserved : bitOf (sl.w 4) 1 = false
  noCommons : bitOf (sl.w 4) 4 = false
  hang : sl.w 5 ≤ 10000

/-- The configuration that ADMIT gives a client who asks for no commons (R343). -/
def admitConfig (sl : Slot) (owner : BitVec 128) : CtxConfig :=
  { reference := bitOf (sl.w 4) 0, policy := admitPolicy (bitOf (sl.w 4) 0) (bitsOf (sl.w 4) 3 2), commonsOwner := false,
    hangMs := if sl.w 5 = 0 then 250 else sl.w 5, seed := sl.payload, owner }

/-- The state with one more context. -/
def State.withCtx (s : State) (c : Ctx) : State := { s with ctxs := s.ctxs ++ [c] }

theorem State.ctx?_withCtx (s : State) (c : Ctx) (j : Nat) :
    (s.withCtx c).ctx? j = (s.ctx? j).or (if c.id = j then some c else none) := by
  simp only [State.ctx?, State.withCtx, List.find?_append, List.find?_singleton, beq_iff_eq]

section
variable {s : State} {sl : Slot} {se : Session} (args : AdmitArgs sl)
include args

theorem State.makeContext_of_free {id : Nat} (free : lowestBelow 64 (fun i => (s.ctx? i).isNone) = some id) :
    State.makeContext sl se s =
      (s.withCtx (Ctx.admitted id (admitConfig sl se.identity) se.id)).answer se.id sl 0 0 [(4, id)] [] := by
  obtain ⟨seed, flags, reserved, noCommons, hang⟩ := args
  simp [State.makeContext, State.withCtx, admitConfig, seed, reserved, noCommons, free, Nat.not_le.mpr flags,
    Nat.not_lt.mpr hang]

theorem State.makeContext_of_full (full : ∀ i, i < 64 → (s.ctx? i).isSome = true) :
    State.makeContext sl se s = s.refuse se.id sl 0x2001 9 := by
  obtain ⟨seed, flags, reserved, noCommons, hang⟩ := args
  have none_free : lowestBelow 64 (fun i => (s.ctx? i).isNone) = none := by
    refine List.find?_eq_none.mpr fun i hi => ?_
    rw [Option.isNone_iff_eq_none, ← ne_eq, ← Option.isSome_iff_ne_none]
    exact full i (List.mem_range.mp hi)
  simp [State.makeContext, seed, reserved, noCommons, none_free, Nat.not_le.mpr flags, Nat.not_lt.mpr hang]

end

theorem exec_admitCtx {s : State} {sl : Slot} {se : Session} (h : Accepted s sl se) (code : sl.cmd = 0x10) :
    exec (.admitCtx sl) s = .next (State.makeContext sl se (s.advanceSeq se.id sl)) :=
  exec_of_accepted h rfl (beq_iff_eq.mpr code)

/-- Settles O26: a free id is one that no context has, so the new context is the one it names, and an answer and a refusal
touch no context. -/
theorem admitMakesAContextOrIsRefused : Obligations.AdmitMakesAContextOrIsRefused := by
  unfold Obligations.AdmitMakesAContextOrIsRefused
  refine ⟨fun s sl se id accepted code seed flags reserved noCommons hang free => ?_,
    fun s sl se accepted code seed flags reserved noCommons hang full => ?_⟩
  · have row := exec_admitCtx accepted code
    rw [State.makeContext_of_free (s := s.advanceSeq se.id sl) ⟨seed, flags, reserved, noCommons, hang⟩ free] at row
    have unused : s.ctx? id = none := Option.isNone_iff_eq_none.mp (List.find?_some (p := fun i => (s.ctx? i).isNone) free)
    have same := SameButAnswer.answer ((s.advanceSeq se.id sl).withCtx (Ctx.admitted id (admitConfig sl se.identity) se.id))
      se.id sl 0 0 [(4, id)] []
    have found (j : Nat) := (same.ctx? j).trans
      (State.ctx?_withCtx (s.advanceSeq se.id sl) (Ctx.admitted id (admitConfig sl se.identity) se.id) j)
    refine ⟨_, Ctx.admitted id (admitConfig sl se.identity) se.id, row, ?_, rfl, rfl, rfl, rfl, rfl, rfl, rfl,
      State.responded_answer _ _ _ _ _ (State.session?_advanceSeq accepted), same.mem, fun j other => ?_, same.ports,
      same.flash⟩
    · rw [found id, State.ctx?_advanceSeq, unused]
      exact if_pos rfl
    · exact (found j).trans ((congrArg _ (if_neg (Ne.symm other))).trans Option.or_none)
  · have row := exec_admitCtx accepted code
    rw [State.makeContext_of_full (s := s.advanceSeq se.id sl) ⟨seed, flags, reserved, noCommons, hang⟩ full] at row
    have same := SameButAnswer.refuse (s.advanceSeq se.id sl) se.id sl 0x2001 9
    exact ⟨_, row, State.responded_refuse (State.session?_advanceSeq accepted) .., same.ctxs, same.mem⟩

/-! ## RELEASE (R346) -/

/-- A released context is gone (R346). -/
theorem State.ctx?_finishRelease (s : State) (id : Nat) : (s.finishRelease id).ctx? id = none := by
  unfold State.finishRelease
  split
  next gone => exact gone
  next c _ =>
    refine List.find?_eq_none.mpr fun x hx => ?_
    rw [((SameHeld.sendTables ..).trans (.answerBusy ..)).ctxs] at hx
    split at hx <;> simpa using (List.mem_filter.mp hx).2

/-- What RELEASE does to a context whose commons nobody uses: an operator's is announced to the orchestrator first (R346). -/
theorem State.release_of_idle {s : State} {sl : Slot} {se : Session} {c : Ctx} (hc : s.ctx? (sl.w 4 % 256) = some c)
    (empty : sl.len = 0) (named : sl.ctxOk = true) (unused : s.commonsBusy c.id = false) : ∃ v cause,
    (v = s ∨ v = s.notify c.id 0x5002 1 c.spr.step []) ∧
    (c.phase = .admitted ∨ c.phase = .reserved ∨ c.phase = .ready →
      State.release sl se s = (v.setBusy se.id (.release c.id) sl).finishRelease c.id) ∧
    (c.phase = .running ∨ c.phase = .held → State.release sl se s =
      ((v.setBusy se.id (.release c.id) sl).beginCtxReset c.id cause).mapReset c.id fun r => { r with release := true }) := by
  cases foreign : c.config.owner != se.identity
  · refine ⟨s, 3, .inl rfl, fun phase => ?_, fun phase => ?_⟩
    · rcases phase with phase | phase | phase <;> simp [State.release, hc, empty, named, unused, foreign, phase]
    · rcases phase with phase | phase <;> simp [State.release, hc, empty, named, unused, foreign, phase]
  · refine ⟨s.notify c.id 0x5002 1 c.spr.step [], 1, .inr rfl, fun phase => ?_, fun phase => ?_⟩
    · rcases phase with phase | phase | phase <;> simp [State.release, hc, empty, named, unused, foreign, phase]
    · rcases phase with phase | phase <;> simp [State.release, hc, empty, named, unused, foreign, phase]

/-- A running context takes its reset, which is marked as part of the release (R346). -/
theorem State.reset_for_release {s : State} {id : Nat} {c : Ctx} (hc : s.ctx? id = some c) (phase : c.phase ≠ .resetting)
    (cause : Nat) : ∃ d x, ((s.beginCtxReset id cause).mapReset id fun r => { r with release := true }).ctx? id = some d ∧
      d.phase = .resetting ∧ d.reset = some x ∧ x.release = true ∧ d.resv = c.resv :=
  ⟨_, _, State.ctx?_mapCtx_self (State.ctx?_beginCtxReset hc phase cause) fun _ => rfl, rfl, rfl, rfl, rfl⟩

theorem SameOthers.reset_for_release (s : State) (id cause : Nat) :
    SameOthers id s ((s.beginCtxReset id cause).mapReset id fun r => { r with release := true }) :=
  (SameOthers.beginCtxReset s id cause).trans (.mapCtx _ id fun _ => rfl)

/-- Settles O28: the end of a release takes the context away; a running one's reset changes its own context alone. -/
theorem releaseEndsTheContext : Obligations.ReleaseEndsTheContext := by
  unfold Obligations.ReleaseEndsTheContext
  intro s sl se c accepted code empty named hc unused
  have row : exec (.release sl) s = .next (State.release sl se (s.advanceSeq se.id sl)) :=
    exec_of_accepted accepted rfl (beq_iff_eq.mpr code)
  obtain ⟨v, cause, told, gone, resets⟩ :=
    State.release_of_idle (s := s.advanceSeq se.id sl) (se := se) hc empty named unused
  refine ⟨fun phase => ⟨_, row.trans (congrArg _ (gone phase)), State.ctx?_finishRelease ..⟩, fun phase => ?_⟩
  have self : (s.advanceSeq se.id sl).ctx? c.id = some c := by rwa [State.ctx?_id hc]
  have before : (∃ events eventsLost, v.ctx? c.id = some { c with events, eventsLost }) ∧ v.mem = s.mem ∧
      SameOthers c.id s v := by
    rcases told with rfl | rfl
    · exact ⟨⟨c.events, c.eventsLost, self⟩, rfl, fun _ _ => rfl⟩
    · exact ⟨State.ctx?_notify self .., State.notify_mem .., SameOthers.notify (s.advanceSeq se.id sl) c.id 0x5002 1 c.spr.step []⟩
  obtain ⟨⟨events, eventsLost, hv⟩, mem, others⟩ := before
  have active : c.phase ≠ .resetting := by rcases phase with e | e <;> simp [e]
  obtain ⟨d, x, hd, resetting, reset, release, resv⟩ :=
    State.reset_for_release (s := v.setBusy se.id (.release c.id) sl) hv active cause
  refine ⟨_, d, x, row.trans (congrArg _ (resets phase)), hd, resetting, reset, release, resv,
    (KeepsStored.beginCtxReset ..).mem.trans mem, ?_⟩
  exact others.trans (SameOthers.reset_for_release (v.setBusy se.id (.release c.id) sl) c.id cause)

/-! ## Commons (R347, R348) -/

/-- A context with one more object attached (R347). -/
def Ctx.attach (obj : Nat) (c : Ctx) : Ctx := { c with attached := c.attached ++ [obj] }

/-- A context with an object detached (R348). -/
def Ctx.detach (obj : Nat) (c : Ctx) : Ctx := { c with attached := c.attached.filter (· != obj) }

/-- A context without residency on an object (R348). -/
def Ctx.leave (obj : Nat) (c : Ctx) : Ctx := { c with residency := c.residency.filter (· != obj) }

theorem Ctx.detach_absent (c : Ctx) (obj : Nat) : (c.detach obj).attached.contains obj = false := by simp [Ctx.detach]

theorem SameOthers.attach (s : State) (id obj : Nat) : SameOthers id s (s.mapCtx id (Ctx.attach obj)) :=
  .mapCtx s id fun _ => rfl

theorem SameOthers.detach (s : State) (id obj : Nat) : SameOthers id s (s.mapCtx id (Ctx.detach obj)) :=
  .mapCtx s id fun _ => rfl

theorem State.ctx?_dropResidency {s : State} {id : Nat} {c : Ctx} (hc : s.ctx? id = some c) (obj : Nat) :
    (s.dropResidency id obj).ctx? id = some (c.leave obj) :=
  State.ctx?_mapCtx_self (f := Ctx.leave obj) hc fun _ => rfl

theorem SameOthers.dropResidency (s : State) (id obj : Nat) : SameOthers id s (s.dropResidency id obj) := fun j other =>
  (State.ctx?_mapCtx _ id j (f := Ctx.leave obj) fun _ => rfl).trans (if_neg other)

/-- An object with its list of identities changed (R347, R348). -/
def CommonsObj.changeGrants (f : List (BitVec 128) → List (BitVec 128)) (o : CommonsObj) : CommonsObj :=
  { o with grants := f o.grants }

/-- The identities of a grant (R347). -/
def grantTo (a : BitVec 128) (l : List (BitVec 128)) : List (BitVec 128) := if l.contains a then l else l ++ [a]

theorem contains_grantTo (a : BitVec 128) (l : List (BitVec 128)) : (grantTo a l).contains a = true := by
  unfold grantTo
  split
  next there => exact there
  next => simp

/-- The identities after a revocation (R348). -/
def revokeFrom (a : BitVec 128) (l : List (BitVec 128)) : List (BitVec 128) := l.filter (· != a)

theorem contains_revokeFrom (a : BitVec 128) (l : List (BitVec 128)) : (revokeFrom a l).contains a = false := by
  simp [revokeFrom]

section
variable {s : State} {sl : Slot} {se : Session} {c : Ctx} {o : CommonsObj}

theorem State.attach_of_permitted (hc : s.ctx? (sl.w 4 % 256) = some c) (ho : s.object? (sl.w 5) = some o)
    (args : Slot.commonsArgs sl 0 = none) (fresh : c.attached.contains o.entry.id = false)
    (may : o.owner = c.id ∨ o.grants.contains c.config.owner = true) :
    State.attach sl se s = (s.mapCtx c.id (Ctx.attach o.entry.id)).ok se.id sl := by
  simp only [State.attach, hc, ho, args, fresh, if_pos may]
  rfl

theorem State.changeGrant_of_owner (ho : s.object? (sl.w 5) = some o) (args : Slot.commonsArgs sl 16 = none)
    (owner : o.owner = sl.w 4 % 256) (f : List (BitVec 128) → List (BitVec 128)) :
    State.changeGrant sl f se s = (s.mapObject (sl.w 5) (CommonsObj.changeGrants f)).ok se.id sl := by
  simp only [State.changeGrant, ho, args, owner, ne_eq, not_true, if_false]
  rfl

/-- A detachment takes at most the residency with it, and is one update of its own context (R348). -/
theorem State.detach_of_args (hc : s.ctx? (sl.w 4 % 256) = some c) (args : Slot.commonsArgs sl 0 = none) :
    ∃ v d, State.detach sl se s = v.ok se.id sl ∧ v.ctx? c.id = some d ∧ d.attached.contains (sl.w 5) = false ∧
      v.ligil = s.ligil ∧ v.mem = s.mem ∧ SameOthers c.id s v := by
  have self : s.ctx? c.id = some c := by rwa [State.ctx?_id hc]
  cases attached : c.attached.contains (sl.w 5)
  · refine ⟨s, c, ?_, self, attached, rfl, rfl, fun _ _ => rfl⟩
    simp only [State.detach, hc, args, attached]
    rfl
  · have leaves : State.detach sl se s = ((if (s.object? (sl.w 5)).any fun o => o.holders.contains c.id then
        s.dropResidency c.id (sl.w 5) else s).mapCtx c.id (Ctx.detach (sl.w 5))).ok se.id sl := by
      simp only [State.detach, hc, args, attached]
      rfl
    rw [leaves]
    split
    · exact ⟨_, _, rfl, State.ctx?_mapCtx_self (State.ctx?_dropResidency self _) fun _ => rfl, Ctx.detach_absent .., rfl,
        rfl, (SameOthers.dropResidency s c.id (sl.w 5)).trans (SameOthers.detach _ c.id (sl.w 5))⟩
    · exact ⟨_, _, rfl, State.ctx?_mapCtx_self self fun _ => rfl, Ctx.detach_absent .., rfl, rfl,
        SameOthers.detach s c.id (sl.w 5)⟩

end

/-- A grant changes its object's list of identities (R347, R348). -/
theorem State.object?_changeGrants {s : State} {id : Nat} {o : CommonsObj} (ho : s.object? id = some o)
    (f : List (BitVec 128) → List (BitVec 128)) :
    (s.mapObject id (CommonsObj.changeGrants f)).object? id = some (o.changeGrants f) := by
  rw [State.object?_mapObject s id id (f := CommonsObj.changeGrants f) fun _ => rfl, if_pos rfl, ho, Option.map_some]

theorem State.object?_ok (s : State) (id : Nat) (sl : Slot) (j : Nat) : (s.ok id sl).object? j = s.object? j := by
  rw [State.object?, State.object?, State.ok, (SameButAnswer.answer ..).arbiter]

/-- Settles O29: an attachment and a detachment are one update of their context, a grant and a revocation one of their
object. -/
theorem commonsCommandsComplete : Obligations.CommonsCommandsComplete := by
  unfold Obligations.CommonsCommandsComplete
  intro s sl se c o accepted hc ho
  have self : (s.advanceSeq se.id sl).ctx? c.id = some c := by rwa [State.ctx?_advanceSeq, State.ctx?_id hc]
  have session := State.session?_advanceSeq accepted
  refine ⟨fun code op args fresh may => ?_, fun code op args owner => ?_, fun code op args => ?_,
    fun code op args owner => ?_⟩
  · have row : exec (.attachCommons sl) s = .next (State.attach sl se (s.advanceSeq se.id sl)) :=
      exec_of_accepted accepted rfl (by simp [code, op])
    rw [State.attach_of_permitted (s := s.advanceSeq se.id sl) hc ho args fresh may] at row
    exact ⟨_, _, row, (State.ctx?_answer ..).trans (State.ctx?_mapCtx_self self fun _ => rfl), rfl,
      State.responded_answer _ _ _ _ _ session, State.answer_mem ..,
      fun j other => (State.ctx?_answer ..).trans (SameOthers.attach (s.advanceSeq se.id sl) _ _ j other)⟩
  · have row : exec (.attachCommonsGrant sl) s =
        .next (State.changeGrant sl (grantTo (payloadIdentity sl)) se (s.advanceSeq se.id sl)) :=
      exec_of_accepted accepted rfl (by simp [code, op])
    rw [State.changeGrant_of_owner (s := s.advanceSeq se.id sl) ho args owner] at row
    exact ⟨_, _, row, (State.object?_ok ..).trans (State.object?_changeGrants ho _), contains_grantTo ..,
      State.responded_answer _ _ _ _ _ session, State.answer_ctxs .., State.answer_mem ..⟩
  · have row : exec (.detachCommons sl) s = .next (State.detach sl se (s.advanceSeq se.id sl)) :=
      exec_of_accepted accepted rfl (by simp [code, op])
    obtain ⟨v, d, detaches, hd, absent, ligil, mem, others⟩ :=
      State.detach_of_args (s := s.advanceSeq se.id sl) (se := se) hc args
    rw [detaches] at row
    have open_ : v.session? se.id = some { se with nextSeq := (sl.seq.toNat + 1) % 65536 } := by
      rw [State.session?, ligil]
      exact session
    exact ⟨_, d, row, (State.ctx?_answer ..).trans hd, absent, State.responded_answer _ _ _ _ _ open_,
      (State.answer_mem ..).trans mem, fun j other => (State.ctx?_answer ..).trans (others j other)⟩
  · have row : exec (.detachCommonsRevoke sl) s =
        .next (State.changeGrant sl (revokeFrom (payloadIdentity sl)) se (s.advanceSeq se.id sl)) :=
      exec_of_accepted accepted rfl (by simp [code, op])
    rw [State.changeGrant_of_owner (s := s.advanceSeq se.id sl) ho args owner] at row
    exact ⟨_, _, row, (State.object?_ok ..).trans (State.object?_changeGrants ho _), contains_revokeFrom ..,
      State.responded_answer _ _ _ _ _ session, State.answer_ctxs .., State.answer_mem ..⟩

end Sys2Proof.Machine
end


section
/-! PROOFS. Events and slots (R332, R336), connections and sessions (R327, R330), and HELLO (R341). -/

namespace Sys2Proof.Machine

/-! ## Events (R336) -/

/-- A session whose oldest event has gone into an event slot (R336). -/
def Session.deliver (n : Notice) (rest : List Notice) (i : Nat) (x : Session) : Session :=
  { x with
    events := rest, lost := 0, eventSeq := (x.eventSeq + 1) % 65536
    evSlots := x.evSlots ++ [{ number := i, code := 0xF0, seq := x.eventSeq, lost := x.lost, notice := n }] }

/-- A delivery is one update of its session, announced over I3C (R328, R336). -/
theorem exec_eventDeliver {s : State} {se : Session} {n : Notice} {rest : List Notice} {i : Nat}
    (known : s.session? se.id = some se) (queued : se.events = n :: rest)
    (free : lowestBelow 16 (fun i => !(se.evSlots.any fun x => x.number == i)) = some i) (runs : s.boot.phase = .running)
    (opened : se.hello = true ∨ se.id = 0) (clocked : s.frontStopped se.conn = false) :
    ∃ power, exec (.eventDeliver se.id) s = .next { s.mapSession se.id (Session.deliver n rest i) with power } := by
  have row : exec (.eventDeliver se.id) s = execEventDeliver se.id s := rfl
  have greeted : ¬(s.boot.phase ≠ .running ∨ (!se.hello ∧ se.id ≠ 0) ∨ s.frontStopped se.conn) := by
    rcases opened with e | e <;> simp [runs, clocked, e]
  rw [row, execEventDeliver, known]
  simp only [queued, free, if_neg greeted]
  split
  · exact ⟨_, rfl⟩
  · exact ⟨s.power, rfl⟩

theorem pushNotice_of_room {q : List Notice} (room : q.length < 1024) (lost : Nat) (n : Notice) :
    pushNotice q lost n = (q ++ [n], lost) := if_pos room

theorem pushNotice_of_full {q : List Notice} (full : q.length = 1024) (lost : Nat) (n : Notice) :
    pushNotice q lost n = (q, lost + 1) := if_neg (by omega)

/-! ## Slots (R332) -/

/-- A session with an event slot freed (R332). -/
def Session.freeEvent (i : Nat) (x : Session) : Session := { x with evSlots := x.evSlots.filter fun y => y.number != i }

/-- A session with a command slot freed (R332). -/
def Session.freeCommand (i : Nat) (x : Session) : Session := { x with slots := x.slots.filter fun y => y.number != i }

theorem exec_eventSlotRelease {s : State} {conn i : Nat} {head : FrameHead} {se : Session} (carries : s.sessionOf conn = some se)
    (form : head.ok conn 2 4 = true) (holds : (se.evSlots.any fun x => x.number == i) = true) :
    exec (.eventSlotRelease conn head ⟨i, 0⟩) s = .next (s.mapSession se.id (Session.freeEvent i)) := by
  have row : exec (.eventSlotRelease conn head ⟨i, 0⟩) s = execEventSlotRelease conn head ⟨i, 0⟩ s := rfl
  simp only [row, execEventSlotRelease, carries, form, holds]
  rfl

theorem exec_eventSlotRelease_malformed {s : State} {conn : Nat} {head : FrameHead} {se : Session}
    (carries : s.sessionOf conn = some se) (form : head.ok conn 2 4 = false) (r : SlotRelease) :
    exec (.eventSlotRelease conn head r) s = .next (s.protocolError conn) := by
  have row : exec (.eventSlotRelease conn head r) s = execEventSlotRelease conn head r s := rfl
  simp [row, execEventSlotRelease, carries, form]

theorem exec_commandSlotRelease {s : State} {i : Nat} {se : Session} (carries : s.sessionOf 0 = some se)
    (holds : (se.slots.any fun x => x.number == i && x.owner == 2) = true) (head : FrameHead) :
    exec (.commandSlotRelease 0 head ⟨i, 0⟩) s = .next (s.mapSession 0 (Session.freeCommand i)) := by
  have row : exec (.commandSlotRelease 0 head ⟨i, 0⟩) s = execCommandSlotRelease 0 head ⟨i, 0⟩ s := rfl
  simp only [row, execCommandSlotRelease, carries, holds]
  rfl

/-- Settles O41: a delivery and a release are one update of their session, and a full queue takes no event. -/
theorem slotsAreFilledAndFreed : Obligations.SlotsAreFilledAndFreed := by
  unfold Obligations.SlotsAreFilledAndFreed
  refine ⟨fun s se => ⟨fun n rest i known queued free runs opened clocked => ?_, fun conn head i carries form holds => ?_,
    fun conn head i owner carries form => exec_eventSlotRelease_malformed carries form _,
    fun head i carries first holds => ?_⟩, fun q lost n bound => ⟨?_, ?_, fun room => pushNotice_of_room room lost n,
    fun full => pushNotice_of_full full lost n⟩⟩
  · obtain ⟨power, row⟩ := exec_eventDeliver known queued free runs opened clocked
    exact ⟨_, _, _, row, State.session?_mapSession_self known fun _ => rfl, rfl, rfl,
      List.mem_append_right _ (List.mem_singleton_self _), rfl, rfl, rfl, rfl, rfl, rfl, rfl, rfl⟩
  · exact ⟨_, _, exec_eventSlotRelease carries form holds,
      State.session?_mapSession_self (State.session?_of_sessionOf carries) fun _ => rfl, rfl, rfl, rfl, rfl⟩
  · exact ⟨_, _, exec_commandSlotRelease carries holds head,
      State.session?_mapSession_self (first ▸ State.session?_of_sessionOf carries) fun _ => rfl, rfl, rfl, rfl, rfl⟩
  · rcases bound.lt_or_eq with room | full
    · simpa [pushNotice_of_room room lost n] using room
    · simp [pushNotice_of_full full lost n, full]
  · rcases bound.lt_or_eq with room | full
    · simp [pushNotice_of_room room lost n]
    · simp [pushNotice_of_full full lost n]

/-! ## Connections (R327) -/

/-- A client's connection before it opens a session (R327). -/
def Conn.verified (conn front : Nat) (roles : BitVec 3) (key : List Byte) : Conn :=
  { id := conn, front, roles, identity := sha384Digest128 key, session := none }

section
variable {s : State} {conn front : Nat} (runs : s.boot.phase = .running) (ident : s.boot.ident = true) (tls : conn ≠ 0)
  (fresh : s.conn? conn = none) (two : front < 2) (clocked : s.power.sdsLost.getD front false = false)
include runs ident tls fresh two clocked

/-- What becomes of a client's chain hangs on its verdict alone (R327). -/
theorem exec_clientConnect :
    (∀ roles key, exec (.clientConnect conn front (.verified roles key)) s =
      .next { s with ligil := { s.ligil with conns := s.ligil.conns ++ [Conn.verified conn front roles key] } }) ∧
    exec (.clientConnect conn front .failed) s = .next (s.raise 0x6023 0 (0xA00 + front) noCtx) := by
  have row (cert : CertVerdict) : exec (.clientConnect conn front cert) s = execClientConnect conn front cert s := rfl
  have admits : ¬(s.boot.phase ≠ .running ∨ !s.boot.ident ∨ conn = 0 ∨ (s.conn? conn).isSome ∨ 2 ≤ front ∨
      s.power.sdsLost.getD front false) := by
    rw [clocked, fresh]
    simp [runs, ident, tls, two]
  refine ⟨fun roles key => ?_, ?_⟩
  · rw [row, execClientConnect, if_neg admits]
    rfl
  · rw [row, execClientConnect, if_neg admits]

end

theorem State.conn?_append {s : State} {k : Conn} (fresh : s.conn? k.id = none) :
    (State.conn? { s with ligil := { s.ligil with conns := s.ligil.conns ++ [k] } } k.id) = some k := by
  simp only [State.conn?, List.find?_append] at fresh ⊢
  rw [fresh]
  simp

/-! ## The end of a session (R330) -/

/-- Where no handle is cancelled, nothing changes (R350). -/
theorem State.cancelWhere_none (s : State) {p : Handle → Bool} (none_ : ∀ h, p h = false) : s.cancelWhere p = s := by
  obtain rfl : p = fun _ => false := funext none_
  simp [State.cancelWhere]

/-- A context without the session that orchestrated it, with the events the session was not given (R330). -/
def Ctx.leftBy (se : Session) (c : Ctx) : Ctx :=
  if c.session = some se.id then { c with session := none, events := c.events ++ se.events.filter fun n => n.ctx == c.id }
  else c

theorem Ctx.leftBy_id (se : Session) (c : Ctx) : (c.leftBy se).id = c.id := by
  unfold Ctx.leftBy
  split <;> rfl

theorem State.ctx?_keepEvents (s : State) (se : Session) (j : Nat) :
    (s.keepEvents se).ctx? j = (s.ctx? j).map (Ctx.leftBy se) := by
  have numbered : ((fun c : Ctx => c.id == j) ∘ Ctx.leftBy se) = fun c : Ctx => c.id == j :=
    funext fun c => congrArg (· == j) (c.leftBy_id se)
  have left : (s.keepEvents se).ctxs = s.ctxs.map (Ctx.leftBy se) := rfl
  rw [State.ctx?, left, List.find?_map, numbered, State.ctx?]

/-- The end of a session without handles leaves its contexts without it, and drops at most the update it was sending
(R330, R416). -/
theorem State.endSession_of_noHandles {s : State} {se : Session} (empty : se.handles = []) :
    ∃ boot flash, s.endSession se = { s.keepEvents se with
      boot, flash, ligil := { s.ligil with sessions := s.ligil.sessions.filter fun x => x.id != se.id } } := by
  have kept : s.cancelWhere (fun h => se.handles.any fun x => x.id == h.id) = s :=
    s.cancelWhere_none fun h => by rw [empty, List.any_nil]
  unfold State.endSession
  rw [kept]
  dsimp only
  split
  · exact ⟨_, _, rfl⟩
  · exact ⟨s.boot, s.flash, rfl⟩

theorem State.closeConn_of_session {s : State} {conn : Nat} {se : Session} (tls : conn ≠ 0)
    (carries : s.sessionOf conn = some se) : s.closeConn conn = { s.endSession se with ligil := { (s.endSession se).ligil with
      conns := (s.endSession se).ligil.conns.filter fun k => k.id != conn
      deferred := (s.endSession se).ligil.deferred.filter fun c => !(cameOver conn c) } } := by
  simp only [State.closeConn, if_neg tls, carries]

/-- Settles O40: a connection is one more in the list; the end of a session is its removal and one update of its contexts. -/
theorem connectionsAndSessionsOpenAndEnd : Obligations.ConnectionsAndSessionsOpenAndEnd := by
  unfold Obligations.ConnectionsAndSessionsOpenAndEnd
  refine ⟨fun s conn front roles key runs ident tls fresh two clocked => ?_, fun s conn se c tls carries empty hc => ?_⟩
  · obtain ⟨verified, failed⟩ := exec_clientConnect runs ident tls fresh two clocked
    exact ⟨⟨_, Conn.verified conn front roles key, verified roles key,
      State.conn?_append (k := Conn.verified conn front roles key) fresh, rfl, rfl, rfl, rfl, rfl, rfl, rfl⟩,
      ⟨_, failed, rfl, rfl, rfl⟩⟩
  · have row : exec (.sessionEnd conn) s = .next (s.closeConn conn) := rfl
    obtain ⟨boot, flash, ended⟩ := State.endSession_of_noHandles (s := s) empty
    rw [State.closeConn_of_session tls carries, ended] at row
    refine ⟨_, c.leftBy se, row, List.find?_eq_none.mpr fun k hk => ?_, List.find?_eq_none.mpr fun x hx => ?_, rfl,
      (s.ctx?_keepEvents se c.id).trans (congrArg (Option.map _) hc), ?_, ?_, ?_, ?_, fun mine => ?_, fun other => if_neg other⟩
    · simpa using (List.mem_filter.mp hk).2
    · simpa using (List.mem_filter.mp hx).2
    · unfold Ctx.leftBy; split <;> rfl
    · unfold Ctx.leftBy; split <;> rfl
    · unfold Ctx.leftBy; split <;> rfl
    · unfold Ctx.leftBy; split <;> rfl
    · rw [Ctx.leftBy, if_pos mine]
      exact ⟨rfl, rfl⟩

/-! ## HELLO (R329, R341) -/

/-- A session as HELLO opens it on a connection (R329). -/
def Session.opened (id : Nat) (k : Conn) : Session :=
  { id, conn := k.id, roles := k.roles, identity := k.identity, nextSeq := 0, hello := false, slots := [], evSlots := [],
    events := [], eventSeq := 0, lost := 0, handles := [], busy := [] }

/-- The state with a session opened on a connection (R329). -/
def State.withSession (s : State) (id : Nat) (k : Conn) : State :=
  { s with ligil := { s.ligil with
      sessions := s.ligil.sessions ++ [Session.opened id k]
      conns := s.ligil.conns.map fun x => if x.id = k.id then { x with session := some id } else x } }

theorem State.freeSession_unused {s : State} {id : Nat} (free : s.freeSession = some id) : s.session? id = none := by
  obtain ⟨i, hi, rfl⟩ := Option.map_eq_some_iff.mp free
  exact Option.isNone_iff_eq_none.mp (List.find?_some (p := fun i => (s.session? (i + 1)).isNone) hi)

theorem State.session?_withSession {s : State} {id : Nat} (unused : s.session? id = none) (k : Conn) :
    (s.withSession id k).session? id = some (Session.opened id k) := by
  simp only [State.session?, State.withSession, List.find?_append] at unused ⊢
  rw [unused]
  simp [Session.opened]

/-- A first HELLO passes the checks of every session that it opens (R334, R335). -/
theorem State.verdict_hello (s : State) (id : Nat) (k : Conn) {sl : Slot} (code : sl.cmd = 1) (first : sl.seq = 0) :
    s.verdict (Session.opened id k) sl = .go := by
  have inSequence : ¬(sl.seq.toNat ≠ (Session.opened id k).expected sl ∨ (sl.cmd = 1 ∧ (Session.opened id k).hello = true)) := by
    rw [Session.expected, code, first]
    simp [Session.opened]
  have known : commandCodes.contains sl.cmd = true := by rw [code]; rfl
  have path : s.pathOk sl = true := by
    unfold State.pathOk
    rw [code]
    split
    · rfl
    · split <;> rfl
  have role : roleOk (Session.opened id k).roles sl = true := by
    rw [roleOk, code]
    rfl
  have named : sl.named = none := by rw [Slot.named, code]; rfl
  simp only [State.verdict, if_neg inSequence, known, path, role, named]
  rfl

/-- A HELLO on a connection without a session opens the lowest free one, and has its effect in it (R329). -/
theorem exec_hello_opens {s : State} {sl : Slot} {k : Conn} {id : Nat} (serving : s.serving sl.conn = true)
    (none_ : s.sessionOf sl.conn = none) (hk : s.conn? sl.conn = some k) (form : sl.formOk = true)
    (header : sl.headerOk = true) (code : sl.cmd = 1) (first : sl.seq = 0) (free : s.freeSession = some id) :
    exec (.hello sl) s = .next (State.hello sl (Session.opened id k) ((s.withSession id k).advanceSeq id sl)) := by
  have row : exec (.hello sl) s = .next (s.command (.hello sl) sl (sl.cmd == 0x01) (State.hello sl)) := rfl
  have opens : s.openSession k = (s.withSession id k, some (Session.opened id k)) := by
    unfold State.openSession
    rw [free]
    rfl
  rw [row]
  simp only [State.command, serving, none_, hk, form, code, opens, State.execute, State.verdict_hello _ id k code first,
    header, beq_self_eq_true, bne_self_eq_false, Bool.not_true, Bool.and_false, Bool.or_self, Bool.false_eq_true, if_false,
    if_true]
  rfl

/-- A session that has said HELLO (R341). -/
def Session.greet (x : Session) : Session := { x with hello := true, eventSeq := 0 }

/-- The session hears of a chip reset once it has said HELLO, if it hears of it at all; then it takes its contexts and is
answered (R341). -/
theorem State.hello_of_args {sl : Slot} (empty : sl.len = 0) (version : sl.w 4 = 1) (claim : sl.w 5 < 3) (s : State)
    (se : Session) : ∃ v words, (v = s.mapSession se.id Session.greet ∨
        ∃ n, v = (s.mapSession se.id Session.greet).notifySession se.id n) ∧
      State.hello sl se s = ((s.claimable se (sl.w 5)).foldl (fun s c => s.claim se.id c) v).answer se.id sl 0 0 words [] := by
  have args : ¬(sl.w 4 ≠ 1 ∨ 3 ≤ sl.w 5) := by omega
  unfold State.hello
  rw [if_neg (not_not.mpr empty), if_neg args]
  dsimp only
  split
  · split
    · exact ⟨_, _, .inr ⟨_, rfl⟩, rfl⟩
    · exact ⟨_, _, .inl rfl, rfl⟩
  · exact ⟨_, _, .inl rfl, rfl⟩

theorem State.claimable_none (s : State) (se : Session) : s.claimable se 0 = [] := by simp [State.claimable]

/-- A session that is open stays so where the ids of the open ones are as before. -/
theorem State.session?_of_ids {s t : State} (ids : t.ligil.sessions.map Session.id = s.ligil.sessions.map Session.id)
    {j : Nat} {x : Session} (hx : s.session? j = some x) : ∃ y, t.session? j = some y := by
  have named : j ∈ t.ligil.sessions.map Session.id := by
    rw [ids, ← State.session?_id hx]
    exact List.mem_map_of_mem (List.mem_of_find?_eq_some hx)
  obtain ⟨y, hy, rfl⟩ := List.mem_map.mp named
  exact Option.isSome_iff_exists.mp (List.find?_isSome.mpr ⟨y, hy, beq_self_eq_true _⟩)

/-- The states differ in Ligil alone, which has the same sessions open. -/
def SameButEvents (s t : State) : Prop :=
  ∃ ligil : Ligil, ligil.sessions.map Session.id = s.ligil.sessions.map Session.id ∧ t = { s with ligil }

namespace SameButEvents

variable {s t u : State}

theorem refl (s : State) : SameButEvents s s := ⟨s.ligil, rfl, rfl⟩

theorem trans (h : SameButEvents s t) (k : SameButEvents t u) : SameButEvents s u := by
  obtain ⟨_, ids, rfl⟩ := h
  obtain ⟨_, ids', rfl⟩ := k
  exact ⟨_, ids'.trans ids, rfl⟩

theorem foldl {α : Type} {f : State → α → State} (h : ∀ s a, SameButEvents s (f s a)) (l : List α) (s : State) :
    SameButEvents s (l.foldl f s) :=
  List.foldlRecOn (motive := SameButEvents s) l f (.refl s) fun t ht a _ => ht.trans (h t a)

theorem mapSession (s : State) (id : Nat) {f : Session → Session} (hf : ∀ x, (f x).id = x.id) :
    SameButEvents s (s.mapSession id f) := by
  refine ⟨_, ?_, rfl⟩
  rw [List.map_map]
  refine List.map_congr_left fun x _ => ?_
  dsimp only [Function.comp]
  split
  · exact hf x
  · rfl

theorem notifySession (s : State) (id : Nat) (n : Notice) : SameButEvents s (s.notifySession id n) :=
  mapSession s id (f := fun se => { se with
    events := (pushNotice se.events se.lost n).1, lost := (pushNotice se.events se.lost n).2 }) fun _ => rfl

theorem session? (h : SameButEvents s t) {j : Nat} {x : Session} (hx : s.session? j = some x) :
    ∃ y, t.session? j = some y := by
  obtain ⟨ligil, ids, rfl⟩ := h
  exact State.session?_of_ids ids hx

end SameButEvents

/-- A context that a session orchestrates (R341). -/
def Ctx.claimedBy (id : Nat) (c : Ctx) : Ctx := { c with session := some id, events := [], eventsLost := 0 }

/-- A session without the events of a context that another one takes (R341). -/
def Session.cede (id : Nat) (x : Session) : Session := { x with events := x.events.filter fun n => n.ctx != id }

/-- A claim moves events between queues, and is one update of its context (R341). -/
theorem State.claim_eq (s : State) (id : Nat) (c : Ctx) :
    ∃ v, SameButEvents s v ∧ s.claim id c = v.mapCtx c.id (Ctx.claimedBy id) := by
  have queued (v : State) (l : List Notice) : SameButEvents v
      ((l.foldl (fun s n => s.notifySession id n) v).mapSession id fun x => { x with lost := x.lost + c.eventsLost }) :=
    (SameButEvents.foldl (fun s n => .notifySession s id n) l v).trans (.mapSession _ id fun _ => rfl)
  unfold State.claim
  dsimp only
  split
  · exact ⟨_, (SameButEvents.mapSession s _ (f := Session.cede c.id) fun _ => rfl).trans (queued ..), rfl⟩
  · exact ⟨_, queued .., rfl⟩

/-- The contexts that are claimed, and they alone, have the session (R341). -/
theorem State.claims_frame (id : Nat) (l : List Ctx) (s : State) :
    (l.foldl (fun s c => s.claim id c) s).mem = s.mem ∧
    (∀ j x, s.session? j = some x → ∃ y, (l.foldl (fun s c => s.claim id c) s).session? j = some y) ∧
    ∀ j, (l.foldl (fun s c => s.claim id c) s).ctx? j =
      if j ∈ l.map Ctx.id then (s.ctx? j).map (Ctx.claimedBy id) else s.ctx? j := by
  induction l generalizing s with
  | nil => exact ⟨rfl, fun _ x hx => ⟨x, hx⟩, fun _ => rfl⟩
  | cons c l ih =>
    obtain ⟨v, same, claimed⟩ := s.claim_eq id c
    obtain ⟨mem, open_, found⟩ := ih (s.claim id c)
    have before (j : Nat) : v.ctx? j = s.ctx? j := by obtain ⟨_, _, rfl⟩ := same; rfl
    have kept : v.mem = s.mem := by obtain ⟨_, _, rfl⟩ := same; rfl
    have first (j : Nat) : (s.claim id c).ctx? j = if j = c.id then (s.ctx? j).map (Ctx.claimedBy id) else s.ctx? j := by
      rw [claimed, State.ctx?_mapCtx v c.id j (f := Ctx.claimedBy id) fun _ => rfl, before]
    refine ⟨mem.trans (claimed ▸ kept), fun j x hx => ?_, fun j => (found j).trans ?_⟩
    · obtain ⟨y, hy⟩ := same.session? hx
      exact open_ j y (claimed ▸ hy)
    · rw [first]
      by_cases now : j = c.id
      · simp only [List.map_cons, List.mem_cons, now, true_or, if_true]
        split
        · rw [Option.map_map]
          rfl
        · rfl
      · simp only [List.map_cons, List.mem_cons, now, false_or, if_false]

theorem State.mem_claimable {s : State} {se : Session} {c : Ctx} (hc : s.ctx? c.id = some c)
    (owner : c.config.owner = se.identity) (alone : c.session = none) : c ∈ s.claimable se 1 :=
  List.mem_filter.mpr ⟨List.mem_of_find?_eq_some hc, by simp [owner, alone]⟩

/-- Settles O25: the session is opened, greeted and answered; every claimable context is updated once at least. -/
theorem helloOpensASessionAndClaims : Obligations.HelloOpensASessionAndClaims := by
  unfold Obligations.HelloOpensASessionAndClaims
  refine ⟨fun s sl k id serving none_ hk form header code first free empty version claim => ?_,
    fun s sl se c accepted code empty version claim hc owner alone => ?_⟩
  · have row := exec_hello_opens serving none_ hk form header code first free
    obtain ⟨v, words, greeted, effect⟩ := State.hello_of_args empty version (by omega : sl.w 5 < 3)
      ((s.withSession id k).advanceSeq id sl) (Session.opened id k)
    rw [claim, State.claimable_none, List.foldl_nil] at effect
    have advanced : ((s.withSession id k).advanceSeq id sl).session? id =
        some { Session.opened id k with nextSeq := (sl.seq.toNat + 1) % 65536 } :=
      State.session?_mapSession_self (State.session?_withSession (State.freeSession_unused free) k) fun _ => rfl
    have hv : ∃ x, v.session? id = some x ∧ x.hello = true ∧ x.roles = k.roles ∧ x.identity = k.identity ∧
        x.conn = k.id ∧ x.nextSeq = 1 := by
      have next : (sl.seq.toNat + 1) % 65536 = 1 := by rw [first]; rfl
      have said := State.session?_mapSession_self (f := Session.greet) advanced fun _ => rfl
      rcases greeted with rfl | ⟨n, rfl⟩
      · exact ⟨_, said, rfl, rfl, rfl, rfl, next⟩
      · exact ⟨_, State.session?_mapSession_self said fun _ => rfl, rfl, rfl, rfl, rfl, next⟩
    have same : v.ctxs = s.ctxs ∧ v.mem = s.mem := by
      rcases greeted with rfl | ⟨n, rfl⟩ <;> exact ⟨rfl, rfl⟩
    obtain ⟨x, hx, hello, roles, identity, conn, next⟩ := hv
    obtain ⟨y, slots, answered, -⟩ := State.session?_answer hx sl 0 0 words []
    exact ⟨_, _, row.trans (congrArg _ effect), answered, hello, roles, identity, conn, next,
      State.responded_answer _ _ _ _ _ hx, (State.answer_ctxs ..).trans same.1, (State.answer_mem ..).trans same.2⟩
  · have row : exec (.hello sl) s = .next (State.hello sl se (s.advanceSeq se.id sl)) :=
      exec_of_accepted accepted rfl (beq_iff_eq.mpr code)
    obtain ⟨v, words, greeted, effect⟩ := State.hello_of_args empty version (by omega : sl.w 5 < 3) (s.advanceSeq se.id sl) se
    have said := State.session?_mapSession_self (f := Session.greet) (State.session?_advanceSeq accepted) fun _ => rfl
    have hv : (∃ x, v.session? se.id = some x) ∧ v.ctx? c.id = some c ∧ v.mem = s.mem := by
      rcases greeted with rfl | ⟨n, rfl⟩
      · exact ⟨⟨_, said⟩, hc, rfl⟩
      · exact ⟨(SameButEvents.notifySession _ se.id n).session? said, hc, rfl⟩
    obtain ⟨⟨x, hx⟩, here, mem⟩ := hv
    obtain ⟨kept, open_, found⟩ := State.claims_frame se.id ((s.advanceSeq se.id sl).claimable se (sl.w 5)) v
    obtain ⟨y, hy⟩ := open_ se.id x hx
    have mine : c.id ∈ ((s.advanceSeq se.id sl).claimable se (sl.w 5)).map Ctx.id := by
      rw [claim]
      exact List.mem_map_of_mem (State.mem_claimable (s := s.advanceSeq se.id sl) hc owner alone)
    have claimed := found c.id
    rw [if_pos mine, here, Option.map_some] at claimed
    exact ⟨_, c.claimedBy se.id, row.trans (congrArg _ effect), (State.ctx?_answer ..).trans claimed, rfl, rfl, rfl,
      State.responded_answer _ _ _ _ _ hy, (State.answer_mem ..).trans (kept.trans mem)⟩

end Sys2Proof.Machine
end


section
/-! PROOFS. What every write through a window or into a snapshot area leaves as it was (R222, R244, R350), and the handles of
bulk data. -/

namespace Sys2Proof.Machine

/-! ## What every write leaves -/

/-- A relation between states that holds across the small updates of which writes consist: of a context, of a session's queue
of events, of memory with its uncorrectable words, and of the free values. -/
structure HoldsAcrossWrites (R : State → State → Prop) : Prop where
  refl : ∀ s, R s s
  trans : ∀ {s t u}, R s t → R t u → R s u
  mapCtx : ∀ s id f, R s (s.mapCtx id f)
  notifySession : ∀ s id n, R s (s.notifySession id n)
  stored : ∀ (s : State) mem bg, R s { s with mem, bg }
  draw : ∀ s, R s s.draw.2

namespace HoldsAcrossWrites

variable {R : State → State → Prop} (h : HoldsAcrossWrites R)
include h

theorem notify (s : State) (id code detail step : Nat) (data : List Nat) : R s (s.notify id code detail step data) := by
  unfold State.notify
  split
  · exact h.refl s
  · dsimp only
    split
    · exact h.notifySession ..
    · exact h.mapCtx ..

theorem snapComplete (s : State) (id : Nat) : R s (s.snapComplete id) := by
  unfold State.snapComplete
  split
  · exact h.refl s
  · split
    · split
      · dsimp only
        split
        · exact h.trans (h.mapCtx ..) (h.notify ..)
        · exact h.mapCtx ..
      · exact h.refl s
    · exact h.refl s

theorem releaseSlot (s : State) (id win : Nat) : R s (s.releaseSlot id win) := by
  unfold State.releaseSlot
  split
  · exact h.refl s
  · split
    · exact h.refl s
    · split
      · dsimp only
        refine h.trans (h.trans ?_ (h.mapCtx ..)) (h.snapComplete ..)
        split
        · exact h.stored ..
        · exact h.refl s
      · exact h.refl s

theorem firstWrite (s : State) (id off : Nat) : R s (s.firstWrite id off) := by
  unfold State.firstWrite
  split
  · split
    · dsimp only
      split
      · exact h.trans (h.trans (h.mapCtx ..) (h.releaseSlot ..)) (h.mapCtx ..)
      · exact h.mapCtx ..
    · exact h.refl s
  · exact h.refl s

theorem pokes (s : State) (a : Nat) (bs : List Byte) : R s (s.pokes a bs) := h.stored ..

theorem wrPage {s t : State} {id off : Nat} {bs : List Byte} (written : s.wrPage id off bs = .ok t) : R s t := by
  unfold State.wrPage at written
  split at written
  · cases written
  · split at written
    · split at written <;> cases written
      exact h.trans (h.firstWrite ..) (h.pokes ..)
    · cases written
    · split at written <;> cases written
      exact h.refl s

theorem undefPages (n k : Nat) (s : State) (id off i len : Nat) : R s (State.undefPages n k s id off i len) := by
  induction k generalizing s off i len with
  | zero => exact h.refl s
  | succ k ih =>
    unfold State.undefPages
    split
    · exact h.refl s
    · dsimp only
      split
      · next written => exact h.trans (h.wrPage written) (ih ..)
      · exact ih ..

theorem undefRange (s : State) (id off len : Nat) : R s (s.undefRange id off len) := h.trans (h.draw s) (h.undefPages ..)

theorem undefAreaPages (n : Nat) (c : Ctx) (k : Nat) (s : State) (off i len : Nat) :
    R s (State.undefAreaPages n c k s off i len) := by
  induction k generalizing s off i len with
  | zero => exact h.refl s
  | succ k ih =>
    unfold State.undefAreaPages
    split
    · exact h.refl s
    · dsimp only
      split
      · exact h.trans (h.pokes ..) (ih ..)
      · exact ih ..

theorem undefArea (s : State) (c : Ctx) (start len : Nat) : R s (s.undefArea c start len) :=
  h.trans (h.draw s) (h.undefAreaPages ..)

theorem undefHandle (s : State) (k : Handle) : R s (s.undefHandle k) := by
  unfold State.undefHandle
  split
  · exact h.refl s
  · split
    · split
      · exact h.undefArea ..
      · exact h.refl s
    · exact h.undefRange ..

end HoldsAcrossWrites

/-! ## Handles -/

/-- A session's id with its bulk handles. -/
def Session.held (x : Session) : Nat × List Handle := (x.id, x.handles)

/-- Every open session has the handles it had; ports and flash are as before. -/
structure KeepsHandles (s t : State) : Prop where
  held : t.ligil.sessions.map Session.held = s.ligil.sessions.map Session.held
  ports : t.ports = s.ports
  flash : t.flash = s.flash

namespace KeepsHandles

variable {s t u : State}

theorem refl (s : State) : KeepsHandles s s := ⟨rfl, rfl, rfl⟩

theorem trans (h : KeepsHandles s t) (k : KeepsHandles t u) : KeepsHandles s u :=
  ⟨k.held.trans h.held, k.ports.trans h.ports, k.flash.trans h.flash⟩

theorem mapSession (s : State) (id : Nat) {f : Session → Session} (hf : ∀ x, (f x).held = x.held) :
    KeepsHandles s (s.mapSession id f) := by
  refine ⟨?_, rfl, rfl⟩
  rw [State.mapSession_ligil, List.map_map]
  refine List.map_congr_left fun x _ => ?_
  dsimp only [Function.comp]
  split
  · exact hf x
  · rfl

theorem holdsAcrossWrites : HoldsAcrossWrites KeepsHandles where
  refl := refl
  trans := trans
  mapCtx _ _ _ := ⟨rfl, rfl, rfl⟩
  notifySession s id n := mapSession s id (f := fun se => { se with
    events := (pushNotice se.events se.lost n).1, lost := (pushNotice se.events se.lost n).2 }) fun _ => rfl
  stored _ _ _ := ⟨rfl, rfl, rfl⟩
  draw _ := ⟨rfl, rfl, rfl⟩

theorem answer (s : State) (id : Nat) (sl : Slot) (status detail : Nat) (words : List (Nat × Nat)) (payload : List Byte) :
    KeepsHandles s (s.answer id sl status detail words payload) := by
  unfold State.answer
  split
  · exact refl s
  · have slotted (r : CmdSlot) : KeepsHandles s (s.mapSession id fun x =>
        { x with slots := (x.slots.filter fun y => y.number != sl.number) ++ [r] }) := mapSession s id fun _ => rfl
    dsimp only
    split
    · exact ⟨(slotted _).held, rfl, rfl⟩
    · exact slotted _

theorem refuse (s : State) (id : Nat) (sl : Slot) (status detail : Nat) : KeepsHandles s (s.refuse id sl status detail) :=
  trans (t := s.raise status detail pkgPath ((sl.named.map fun c => c % 256).getD noCtx)) ⟨rfl, rfl, rfl⟩ (answer ..)

/-- An open session stays open. -/
theorem session? (h : KeepsHandles s t) {j : Nat} {x : Session} (hx : s.session? j = some x) :
    ∃ y, t.session? j = some y := by
  refine State.session?_of_ids ?_ hx
  have ids (l : List Session) : l.map Session.id = (l.map Session.held).map Prod.fst := by rw [List.map_map]; rfl
  rw [ids, ids, h.held]

/-- What every open session's handles are before, they are after. -/
theorem handles (h : KeepsHandles s t) {p : Nat → List Handle → Prop} (before : ∀ x ∈ s.ligil.sessions, p x.id x.handles) :
    ∀ x ∈ t.ligil.sessions, p x.id x.handles := by
  intro x hx
  have among : x.held ∈ s.ligil.sessions.map Session.held := h.held ▸ List.mem_map_of_mem hx
  obtain ⟨y, hy, same⟩ := List.mem_map.mp among
  have id : y.id = x.id := congrArg Prod.fst same
  have handles : y.handles = x.handles := congrArg Prod.snd same
  exact id ▸ handles ▸ before y hy

end KeepsHandles

/-- A session with one more handle (R350). -/
def Session.withHandle (h : Handle) (x : Session) : Session := { x with handles := x.handles ++ [h] }

/-- A session without a handle (R350). -/
def Session.withoutHandle (id : Nat) (x : Session) : Session := { x with handles := x.handles.filter fun k => k.id != id }

theorem State.session?_openHandle {s : State} {se x : Session} (hx : s.session? se.id = some x) (h : Handle) :
    (s.openHandle se h).1.session? se.id = some (x.withHandle { h with id := s.ligil.nextHandle % 2 ^ 32 }) :=
  State.session?_mapSession_self (f := Session.withHandle { h with id := s.ligil.nextHandle % 2 ^ 32 }) hx fun _ => rfl

theorem State.session?_dropHandle {s : State} {se x : Session} (hx : s.session? se.id = some x) (id : Nat) :
    (s.dropHandle se id).session? se.id = some (x.withoutHandle id) :=
  State.session?_mapSession_self (f := Session.withoutHandle id) hx fun _ => rfl

/-- No session of that id has the handle that is given up (R350). -/
theorem State.dropHandle_handles (s : State) (se : Session) (id : Nat) :
    ∀ x ∈ (s.dropHandle se id).ligil.sessions, x.id = se.id → ∀ k ∈ x.handles, k.id ≠ id := by
  intro x hx named k hk
  have hx : x ∈ s.ligil.sessions.map fun x => if x.id = se.id then x.withoutHandle id else x := hx
  obtain ⟨y, -, rfl⟩ := List.mem_map.mp hx
  split at hk
  · simpa using (List.mem_filter.mp hk).2
  next other =>
    rw [if_neg other] at named
    exact absurd named other

/-! ### Reading a range needs no session -/

theorem State.rdPages_ligil (s : State) (ligil : Ligil) (c : Ctx) (k off n : Nat) :
    State.rdPages { s with ligil } c k off n = s.rdPages c k off n := by
  induction k generalizing off n with
  | zero => rfl
  | succ k ih =>
    simp only [State.rdPages, ih]
    rfl

theorem State.areaPages_ligil (s : State) (ligil : Ligil) (c : Ctx) (k off n : Nat) :
    State.areaPages { s with ligil } c k off n = s.areaPages c k off n := by
  induction k generalizing off n with
  | zero => rfl
  | succ k ih =>
    simp only [State.areaPages, ih]
    rfl

/-- The bytes of a handle's range are the same whatever the sessions hold (R350). -/
theorem State.handleBytes_ligil (s : State) (ligil : Ligil) (h : Handle) :
    State.handleBytes { s with ligil } h = s.handleBytes h := by
  simp only [State.handleBytes, State.areaBytes, State.rdBytes, State.rdPages_ligil, State.areaPages_ligil]
  rfl

end Sys2Proof.Machine
end


section
/-! PROOFS. BIND_DATA and BULK_FRAME (R333, R350). -/

namespace Sys2Proof.Machine

/-! ## Opening (R350) -/

/-- The frames of an open-out follow those that wait to be sent (R350). -/
def State.sendRange (s : State) (handle : Nat) (data : List Byte) : State :=
  { s with ligil := { s.ligil with frames := s.ligil.frames ++ bulkFrames handle data } }

section
variable {s : State} {sl : Slot} {se : Session} {c : Ctx} {h : Handle} (hc : s.ctx? (sl.w 4 % 256) = some c)
  (checks : s.openChecks sl se c = .ok h)
include hc checks

theorem State.openIn_of_checks : State.openIn sl se s =
    (s.openHandle se h).1.answer se.id sl 0 0 [(4, (s.openHandle se h).2)] [] := by
  simp only [State.openIn, hc, checks]

theorem State.openOut_of_checks {data : List Byte} (read : s.handleBytes h = .ok data) : State.openOut sl se s =
    ((s.openHandle se h).1.sendRange (s.openHandle se h).2 data).answer se.id sl 0 0 [(4, (s.openHandle se h).2)] [] := by
  simp only [State.openOut, hc, checks, read]
  rfl

end

/-! ## Closing (R350) -/

section
variable {s : State} {sl : Slot} {se : Session} {c : Ctx} {h : Handle} (hc : s.ctx? (sl.w 4 % 256) = some c)
  (empty : sl.len = 0) (named : sl.ctxOk = true) (op : sl.w 5 < 8)
  (open_ : se.handles.find? (fun h => h.id == sl.w 10 && h.ctx == c.id && !h.exporting) = some h)
include hc empty named op open_

theorem State.closeBulk_outward (outward : h.inward = false) : ∃ words, State.closeBulk sl se s =
    (s.dropHandle se h.id).answer se.id sl 0 0 words [] := by
  simp only [State.closeBulk, hc, empty, named, op, open_, outward]
  exact ⟨_, rfl⟩

theorem State.closeBulk_inward (inward : h.inward = true) : State.closeBulk sl se s = s.closeIn sl se c h := by
  simp only [State.closeBulk, hc, empty, named, op, open_, inward]
  rfl

end

theorem State.handleBytes_dropHandle (s : State) (se : Session) (hid : Nat) (h : Handle) :
    (s.dropHandle se hid).handleBytes h = s.handleBytes h :=
  State.handleBytes_ligil s _ h

/-- The word that names a counter does so by its bit 17 (R350). -/
theorem bitOf_seventeen {w : Nat} (low : w < 2 ^ 18) : bitOf w 17 = decide (2 ^ 17 ≤ w) := by
  rw [bitOf, Nat.testBit_eq_decide_div_mod_eq, decide_eq_decide]
  omega

section
variable {s : State} {sl : Slot} {se : Session} {c : Ctx} {h : Handle} {data : List Byte} (low : sl.w 12 < 2 ^ 18)
  (read : s.handleBytes h = .ok data)
include low read

/-- A range with the right CRC-32C is closed without a signal, where the command names no counter (R350). -/
theorem State.closeIn_silent (sound : crc32c data = sl.w 11) (silent : sl.w 12 < 2 ^ 17) :
    s.closeIn sl se c h = (s.dropHandle se h.id).ok se.id sl := by
  have none_ : bitOf (sl.w 12) 17 = false := by rw [bitOf_seventeen low]; exact decide_eq_false (by omega)
  have read : (s.dropHandle se h.id).handleBytes h = .ok data := (s.handleBytes_dropHandle ..).trans read
  simp only [State.closeIn, low, none_, read, sound]
  rfl

/-- A range with the right CRC-32C signals the counter that the command names (R350). -/
theorem State.closeIn_signals (sound : crc32c data = sl.w 11) (names : 2 ^ 17 ≤ sl.w 12)
    (counter : c.hasCounter (sl.w 12 % 2 ^ 17) = true) : s.closeIn sl se c h =
      ((s.dropHandle se h.id).signal c.id pkgPath (sl.w 12 % 2 ^ 17) 1).ok se.id sl := by
  have some_ : bitOf (sl.w 12) 17 = true := by rw [bitOf_seventeen low]; exact decide_eq_true names
  have read : (s.dropHandle se h.id).handleBytes h = .ok data := (s.handleBytes_dropHandle ..).trans read
  simp only [State.closeIn, low, some_, counter, read, sound]
  rfl

/-- A range with another CRC-32C is undefined (R350). -/
theorem State.closeIn_broken (broken : crc32c data ≠ sl.w 11) (silent : sl.w 12 < 2 ^ 17) :
    s.closeIn sl se c h = ((s.dropHandle se h.id).undefHandle h).refuse se.id sl 0x2501 0 := by
  have none_ : bitOf (sl.w 12) 17 = false := by rw [bitOf_seventeen low]; exact decide_eq_false (by omega)
  have read : (s.dropHandle se h.id).handleBytes h = .ok data := (s.handleBytes_dropHandle ..).trans read
  simp only [State.closeIn, low, none_, read, if_neg broken]
  rfl

end

/-- What a close of a range with another CRC-32C leaves: the handle is gone, and what is undefined is memory (R350). -/
theorem State.closeIn_broken_frame {s : State} {se x : Session} (hx : s.session? se.id = some x) (sl : Slot) (h : Handle) :
    (((s.dropHandle se h.id).undefHandle h).refuse se.id sl 0x2501 0).responded se.id sl 0x2501 ∧
    (∀ x ∈ (((s.dropHandle se h.id).undefHandle h).refuse se.id sl 0x2501 0).ligil.sessions,
      x.id = se.id → ∀ k ∈ x.handles, k.id ≠ h.id) ∧
    (((s.dropHandle se h.id).undefHandle h).refuse se.id sl 0x2501 0).ports = s.ports ∧
    (((s.dropHandle se h.id).undefHandle h).refuse se.id sl 0x2501 0).flash = s.flash := by
  have undefined := KeepsHandles.holdsAcrossWrites.undefHandle (s.dropHandle se h.id) h
  have refused := KeepsHandles.refuse ((s.dropHandle se h.id).undefHandle h) se.id sl 0x2501 0
  have kept := undefined.trans refused
  obtain ⟨y, hy⟩ := undefined.session? (State.session?_dropHandle hx h.id)
  exact ⟨State.responded_refuse hy sl 0x2501 0,
    kept.handles (p := fun id l => id = se.id → ∀ k ∈ l, k.id ≠ h.id) (s.dropHandle_handles se h.id), kept.ports, kept.flash⟩

/-- Settles O33: an open and a close are one update of the session's handles, after which the answer or the signal comes. -/
theorem bulkHandlesOpenAndClose : Obligations.BulkHandlesOpenAndClose := by
  unfold Obligations.BulkHandlesOpenAndClose
  rintro s _ sl se c accepted code rfl hc
  have session := State.session?_advanceSeq accepted
  have closes : sl.w 5 % 4 = 2 → exec (.bindDataClose sl) s = .next (State.closeBulk sl se (s.advanceSeq se.id sl)) :=
    fun op => exec_of_accepted accepted rfl (by simp [code, op])
  refine ⟨fun h op checks => ?_, fun h data op checks read => ?_, fun h op empty named low open_ outward => ?_,
    fun h data op empty named low open_ inward word read => ⟨fun sound silent => ?_, fun sound names counter room => ?_,
      fun broken silent => ?_⟩⟩
  · have row : exec (.bindDataOpenIn sl) s = .next (State.openIn sl se (s.advanceSeq se.id sl)) :=
      exec_of_accepted accepted rfl (by simp [code, op])
    rw [State.openIn_of_checks hc checks] at row
    have opened := State.session?_openHandle session h
    obtain ⟨y, slots, answered, -⟩ := State.session?_answer opened sl 0 0 _ []
    exact ⟨_, _, row, answered, rfl, State.responded_answer _ _ _ _ _ opened, State.answer_ctxs .., State.answer_mem ..⟩
  · have row : exec (.bindDataOpenOut sl) s = .next (State.openOut sl se (s.advanceSeq se.id sl)) :=
      exec_of_accepted accepted rfl (by simp [code, op])
    rw [State.openOut_of_checks hc checks read] at row
    have opened : (((s.advanceSeq se.id sl).openHandle se h).1.sendRange (s.ligil.nextHandle % 2 ^ 32) data).session? se.id = _ :=
      State.session?_openHandle session h
    obtain ⟨y, slots, answered, -⟩ := State.session?_answer opened sl 0 0 _ []
    exact ⟨_, _, row, answered, rfl, State.responded_answer _ _ _ _ _ opened,
      (SameButAnswer.answer ..).frames, State.answer_ctxs .., State.answer_mem ..⟩
  · obtain ⟨words, effect⟩ := State.closeBulk_outward hc empty named low open_ outward
    have closed := State.session?_dropHandle session h.id
    obtain ⟨y, slots, answered, -⟩ := State.session?_answer closed sl 0 0 words []
    exact ⟨_, _, (closes op).trans (congrArg _ effect), answered, rfl, State.responded_answer _ _ _ _ _ closed,
      State.answer_ctxs .., State.answer_mem ..⟩
  · have effect := (State.closeBulk_inward hc empty named low open_ inward).trans
      (State.closeIn_silent (se := se) (c := c) word read sound silent)
    have closed := State.session?_dropHandle session h.id
    obtain ⟨y, slots, answered, -⟩ := State.session?_answer closed sl 0 0 [] []
    exact ⟨_, _, (closes op).trans (congrArg _ effect), answered, rfl, State.responded_answer _ _ _ _ _ closed,
      State.answer_ctxs .., State.answer_mem ..⟩
  · have effect := (State.closeBulk_inward hc empty named low open_ inward).trans
      (State.closeIn_signals (se := se) word read sound names counter)
    have self : ((s.advanceSeq se.id sl).dropHandle se h.id).ctx? c.id = some c := by rwa [State.ctx?_id hc]
    rw [State.signal_of_fit (q := (sl.w 12 % 2 ^ 17, 1)) self (Nat.succ_le_of_lt room)] at effect
    refine ⟨_, _, (closes op).trans (congrArg _ effect), (State.ctx?_answer ..).trans (State.ctx?_mapCtx_self self fun _ => rfl),
      ?_, fun k other => ?_, State.responded_answer _ _ _ _ _ (State.session?_dropHandle session h.id),
      fun j other => (State.ctx?_answer ..).trans ?_, State.answer_mem ..⟩
    · rw [Ctx.counter_addSignal, if_pos rfl]
    · rw [Ctx.counter_addSignal, if_neg (Ne.symm other), Nat.add_zero]
    · exact SameOthers.mapCtx ((s.advanceSeq se.id sl).dropHandle se h.id) c.id
        (f := fun c => c.addSignal (sl.w 12 % 2 ^ 17, 1)) (fun _ => rfl) j other
  · have effect := (State.closeBulk_inward hc empty named low open_ inward).trans
      (State.closeIn_broken (se := se) (c := c) word read broken silent)
    exact ⟨_, (closes op).trans (congrArg _ effect), State.closeIn_broken_frame session sl h⟩

/-! ## Frames (R350) -/

/-- The first `k` parts of a list, cut at multiples of `n`, follow each other. -/
theorem flatMap_parts {α : Type} (l : List α) (n k : Nat) :
    (List.range k).flatMap (fun i => (l.drop (n * i)).take n) = l.take (n * k) := by
  induction k with
  | zero => rw [Nat.mul_zero, List.take_zero, List.range_zero, List.flatMap_nil]
  | succ k ih => rw [List.range_succ, List.flatMap_append, ih, Nat.mul_succ, List.take_add, List.flatMap_singleton]

theorem bulkFrames_carry (h : Nat) (data : List Byte) : (bulkFrames h data).flatMap BulkOut.data = data := by
  have whole : data.length ≤ 65536 * ceilDiv data.length 65536 := by unfold ceilDiv; omega
  rw [bulkFrames, List.flatMap_map, flatMap_parts, List.take_of_length_le whole]

theorem bulkFrames_parts {h : Nat} {data : List Byte} {f : BulkOut} (hf : f ∈ bulkFrames h data) :
    f.handle = h ∧ f.data.length ≤ 65536 ∧ f.data ≠ [] ∧ f.offset % 65536 = 0 := by
  obtain ⟨i, hi, rfl⟩ := List.mem_map.mp hf
  have within : 65536 * i < data.length := by
    have bound := List.mem_range.mp hi
    unfold ceilDiv at bound
    omega
  refine ⟨rfl, List.length_take_le .., fun empty => ?_, Nat.mul_mod_right ..⟩
  have length := congrArg List.length empty
  simp only [List.length_take, List.length_drop, List.length_nil] at length
  omega

section
variable {s : State} {conn : Nat} {b : BulkHead} {head : FrameHead} {data : List Byte} {se : Session} {h : Handle} {c : Ctx}
  (runs : s.frontStopped conn = false) (carries : s.sessionOf conn = some se)
include runs carries

theorem exec_bulkFrame_unexpected (none_ : se.handles.find? (fun h => h.id == b.handle && h.inward) = none)
    (connected : conn = 0 ∨ (s.conn? conn).isSome = true) :
    exec (.bulkFrame conn head b data) s = .next (s.protocolError conn) := by
  have row : exec (.bulkFrame conn head b data) s = execBulkFrame conn head b data s := rfl
  simp only [row, execBulkFrame, runs, carries, Option.bind_some, none_, Option.bind_none, if_pos connected]
  rfl

variable (open_ : se.handles.find? (fun h => h.id == b.handle && h.inward) = some h) (hc : s.ctx? h.ctx = some c)
include open_ hc

theorem exec_bulkFrame_malformed (bad : bulkOk conn head b data = false ∨ h.length < b.offset + data.length) :
    exec (.bulkFrame conn head b data) s = .next (s.protocolError conn) := by
  have row : exec (.bulkFrame conn head b data) s = execBulkFrame conn head b data s := rfl
  have refused : (!(bulkOk conn head b data) || !(decide (b.offset + data.length ≤ h.length))) = true := by
    rcases bad with e | e
    · simp [e]
    · simp [e]
  simp only [row, execBulkFrame, runs, carries, Option.bind_some, open_, hc, Option.map_some, if_pos refused]
  rfl

theorem exec_bulkFrame_written {u : State} (form : bulkOk conn head b data = true)
    (within : b.offset + data.length ≤ h.length) (window : h.area = false)
    (written : s.wrBytes c.id (h.start + b.offset) data = .ok u) : exec (.bulkFrame conn head b data) s = .next u := by
  have row : exec (.bulkFrame conn head b data) s = execBulkFrame conn head b data s := rfl
  simp only [row, execBulkFrame, runs, carries, Option.bind_some, open_, hc, Option.map_some, form, within, window, written]
  rfl

end

/-- Settles O34: the frames of a range are its parts in order; a frame is written, or is a protocol error. -/
theorem bulkFramesCarryRanges : Obligations.BulkFramesCarryRanges := by
  unfold Obligations.BulkFramesCarryRanges
  refine ⟨fun h data => ⟨bulkFrames_carry h data, fun f hf => bulkFrames_parts hf⟩,
    fun s u conn b head data se h c runs carries => ⟨?_, ?_, ?_⟩⟩
  · exact fun open_ hc form within window written =>
      exec_bulkFrame_written runs carries open_ hc form within window written
  · exact fun open_ hc bad => exec_bulkFrame_malformed runs carries open_ hc bad
  · exact fun none_ connected => exec_bulkFrame_unexpected runs carries none_ connected

end Sys2Proof.Machine
end


section
/-! PROOFS. SNAPSHOT, RESTORE, EXPORT_SNAPSHOT and EXPORT_END (R354, R356, R357). -/

namespace Sys2Proof.Machine

/-- An image with no pending page is drained already (R244, R245). -/
theorem State.drainAll_of_drained {s : State} {id : Nat} {d : Ctx} (hd : s.ctx? id = some d) {q : Snapshot} (image : d.snap = some q)
    (drained : q.pending = []) : s.drainAll id = s := by
  simp only [State.drainAll, hd, Option.bind_some, image, drained, List.foldl_nil]

section
variable {s : State} {sl : Slot} {se : Session} {c : Ctx} (hc : s.ctx? (sl.w 4 % 256) = some c) (empty : sl.len = 0)
  (named : sl.ctxOk = true)
include hc empty named

theorem State.snapshotCmd_of_idle (idle : c.steps = []) (still : c.exporting = false) :
    State.snapshotCmd sl se s = (s.ok se.id sl).takeSnapshot c.id .requested := by
  simp only [State.snapshotCmd, hc, empty, named, idle, still]
  rfl

theorem State.snapshotCmd_of_steps (busy : c.steps ≠ []) :
    State.snapshotCmd sl se s = (s.mapCtx c.id fun c => { c with snapAsked := true }).ok se.id sl := by
  have busy : c.steps.isEmpty = false := List.isEmpty_eq_false_iff.mpr busy
  simp only [State.snapshotCmd, hc, empty, named, busy]
  rfl

/-- A context that is not HELD and has no step discards nothing before its image is taken over (R356). -/
theorem State.restore_of_checks {p : Plan} (phase : c.phase ≠ .held) (idle : c.steps = [])
    (found : s.findRecord c < c.pages.area.length)
    (checks : s.restoreChecks c (s.findRecord c) (s.readRecord (c.pages.area.getD (s.findRecord c) 0)) = .ok p) :
    State.restore sl se s =
      (s.takeImage c.id (s.findRecord c) (s.readRecord (c.pages.area.getD (s.findRecord c) 0)) p).ok se.id sl := by
  have same : { c with steps := [] } = c := by rw [← idle]
  simp only [State.restore, hc, empty, named, if_neg phase, same, if_pos found, checks]
  rfl

/-- The handle by which EXPORT_SNAPSHOT sends pages 0 to `area` of a context's area (R357). -/
def Ctx.exportHandle (c : Ctx) (area : Nat) : Handle :=
  { id := 0, ctx := c.id, inward := false, area := true, start := 0, length := (area + 1) * pageSize, exporting := true }

def Ctx.asExporting (c : Ctx) : Ctx := { c with exporting := true }

theorem State.exportSnapshot_of_drained {q : Snapshot} {data : List Byte} (room : se.handles.length < 16)
    (image : c.snap = some q) (drained : q.pending = []) (read : s.areaBytes c 0 ((q.area + 1) * pageSize) = .ok data) :
    ∃ words, State.exportSnapshot sl se s =
      (((s.openHandle se (c.exportHandle q.area)).1.mapCtx c.id Ctx.asExporting).sendRange
        (s.ligil.nextHandle % 2 ^ 32) data).answer se.id sl 0 0 words [] := by
  have self : s.ctx? c.id = some c := by rwa [State.ctx?_id hc]
  have room : decide (16 ≤ se.handles.length) = false := decide_eq_false (Nat.not_le.mpr room)
  simp only [State.exportSnapshot, hc, empty, named, room, image, drained, read, List.findSome?_nil,
    State.drainAll_of_drained self image drained]
  exact ⟨_, rfl⟩

end

/-! ## EXPORT_END (R357) -/

/-- The handle by which a session exports a context's snapshot, as EXPORT_END looks for it. -/
def Session.exportOf (id : Nat) (se : Session) : Option (Session × Nat) :=
  (se.handles.find? fun h => h.ctx == id && h.exporting).map fun h => (se, h.id)

theorem Session.exportOf_eq_some {id k : Nat} {x y : Session} (found : x.exportOf id = some (y, k)) :
    y = x ∧ ∃ h ∈ x.handles, h.ctx = id ∧ h.exporting = true ∧ h.id = k := by
  obtain ⟨h, hh, same⟩ := Option.map_eq_some_iff.mp found
  have exports := List.find?_some hh
  rw [Bool.and_eq_true, beq_iff_eq] at exports
  obtain ⟨ctx, exporting⟩ := exports
  obtain ⟨rfl, rfl⟩ := Prod.mk.inj same
  exact ⟨rfl, h, List.mem_of_find?_eq_some hh, ctx, exporting, rfl⟩

/-- The one handle by which a snapshot of a context is still sent. -/
structure State.OnlyExport (s : State) (id : Nat) (se : Session) (h : Handle) : Prop where
  session : se ∈ s.ligil.sessions
  handle : h ∈ se.handles
  ctx : h.ctx = id
  exporting : h.exporting = true
  only : ∀ x ∈ s.ligil.sessions, ∀ k ∈ x.handles, k.ctx = id → k.exporting = true → x = se ∧ k.id = h.id
  unique : ∀ x ∈ s.ligil.sessions, x.id = se.id → x = se

def Ctx.notExporting (c : Ctx) : Ctx := { c with exporting := false }

namespace State.OnlyExport

variable {s : State} {id : Nat} {se : Session} {h : Handle} (one : s.OnlyExport id se h)
include one

theorem findSome? : s.ligil.sessions.findSome? (Session.exportOf id) = some (se, h.id) := by
  have found : (se.handles.find? fun h => h.ctx == id && h.exporting).isSome = true :=
    List.find?_isSome.mpr ⟨h, one.handle, by simp [one.ctx, one.exporting]⟩
  have some_ : (s.ligil.sessions.findSome? (Session.exportOf id)).isSome = true :=
    List.findSome?_isSome_iff.mpr ⟨se, one.session, by rwa [Session.exportOf, Option.isSome_map]⟩
  obtain ⟨⟨y, k⟩, result⟩ := Option.isSome_iff_exists.mp some_
  obtain ⟨x, hx, exports⟩ := List.exists_of_findSome?_eq_some result
  obtain ⟨rfl, k', hk, ctx, exporting, rfl⟩ := Session.exportOf_eq_some exports
  obtain ⟨rfl, same⟩ := one.only y hx k' hk ctx exporting
  rw [result, same]

/-- Once its handle is given up nothing exports the context (R357). -/
theorem none_after : ∀ x ∈ (s.dropHandle se h.id).ligil.sessions, ∀ k ∈ x.handles, k.ctx = id → k.exporting = false := by
  intro x hx k hk ctx
  have gone := s.dropHandle_handles se h.id x hx
  have hx : x ∈ s.ligil.sessions.map fun x => if x.id = se.id then x.withoutHandle h.id else x := hx
  obtain ⟨y, hy, rfl⟩ := List.mem_map.mp hx
  refine Bool.eq_false_iff.mpr fun exporting => ?_
  split at hk
  next own =>
    rw [if_pos own] at gone
    exact gone own k hk (one.only y hy k (List.mem_filter.mp hk).1 ctx exporting).2
  next other => exact other (congrArg Session.id (one.only y hy k hk ctx exporting).1)

theorem exec_exportEnd {c : Ctx} (hc : s.ctx? id = some c) (silent : c.snapAsked = false) :
    exec (.exportEnd id) s = .next ((s.dropHandle se h.id).mapCtx id Ctx.notExporting) := by
  have ended : ((s.dropHandle se h.id).ligil.sessions.any fun x => x.handles.any fun h => h.ctx == id && h.exporting) =
      false := by
    refine List.any_eq_false.mpr fun x hx running => ?_
    obtain ⟨k, hk, here⟩ := List.any_eq_true.mp running
    rw [Bool.and_eq_true, beq_iff_eq] at here
    obtain ⟨ctx, exporting⟩ := here
    exact Bool.false_ne_true ((one.none_after x hx k hk ctx).symm.trans exporting)
  have self : ((s.dropHandle se h.id).mapCtx id fun c => { c with exporting := false }).ctx? id = some c.notExporting :=
    State.ctx?_mapCtx_self (s := s.dropHandle se h.id) hc fun _ => rfl
  have found := one.findSome?
  unfold Session.exportOf at found
  have row : exec (.exportEnd id) s = execExportEnd id s := rfl
  simp only [row, execExportEnd, found, ended, self, Ctx.notExporting, silent]
  rfl

end State.OnlyExport

/-- Settles O37: each command's checks pass, and what it does is read off; at EXPORT_END the one sending handle is found and
dropped. -/
theorem snapshotCommandsComplete : Obligations.SnapshotCommandsComplete := by
  unfold Obligations.SnapshotCommandsComplete
  refine ⟨?_, ?_⟩
  · rintro s _ sl se c accepted rfl hc empty named
    have session := State.session?_advanceSeq accepted
    have self : (s.advanceSeq se.id sl).ctx? c.id = some c := by rwa [State.ctx?_id hc]
    refine ⟨fun code idle still => ?_, fun code busy => ?_, fun p code phase idle found checks => ?_,
      fun q data code room image drained read => ?_⟩
    · rw [exec_of_accepted accepted rfl (beq_iff_eq.mpr code), State.snapshotCmd_of_idle hc empty named idle still]
    · have row : exec (.snapshot sl) s = _ := exec_of_accepted accepted rfl (beq_iff_eq.mpr code)
      rw [State.snapshotCmd_of_steps hc empty named busy] at row
      refine ⟨_, _, row, (State.ctx?_answer ..).trans (State.ctx?_mapCtx_self self fun _ => rfl), rfl, rfl,
        State.responded_answer _ _ _ _ _ session, State.answer_mem .., fun j other => (State.ctx?_answer ..).trans ?_⟩
      exact SameOthers.mapCtx (s.advanceSeq se.id sl) c.id (f := fun c => { c with snapAsked := true }) (fun _ => rfl) j other
    · rw [exec_of_accepted accepted rfl (beq_iff_eq.mpr code),
        State.restore_of_checks hc empty named (by rw [phase]; decide) idle found checks]
    · have row : exec (.exportSnapshot sl) s = _ := exec_of_accepted accepted rfl (beq_iff_eq.mpr code)
      obtain ⟨words, effect⟩ := State.exportSnapshot_of_drained hc empty named room image drained read
      rw [effect] at row
      refine ⟨_, _, row, (State.ctx?_answer ..).trans (State.ctx?_mapCtx_self (f := Ctx.asExporting) self fun _ => rfl), rfl,
        (SameButAnswer.answer ..).frames, State.responded_answer _ _ _ _ _ (State.session?_openHandle session _),
        State.answer_mem .., fun j other => (State.ctx?_answer ..).trans ?_⟩
      exact SameOthers.mapCtx (s.advanceSeq se.id sl) c.id (f := Ctx.asExporting) (fun _ => rfl) j other
  · intro s id c se h hc session handle ctx exporting silent only unique
    have one : s.OnlyExport id se h := ⟨session, handle, ctx, exporting, only, unique⟩
    exact ⟨_, _, one.exec_exportEnd hc silent, State.ctx?_mapCtx_self (s := s.dropHandle se h.id) hc fun _ => rfl, rfl, rfl,
      one.none_after, rfl, SameOthers.mapCtx (s.dropHandle se h.id) id (f := Ctx.notExporting) fun _ => rfl⟩

end Sys2Proof.Machine
end


section
/-! PROOFS. QUERY_STATS, QUERY_CAPS, LOG_READ and DUMP_READ (R358, R359, R437, R444 to R447). -/

namespace Sys2Proof.Machine

/-- The session's slot holds an OK answer with a payload (R331). -/
def State.AnsweredOk (t : State) (id : Nat) (sl : Slot) (payload : List Byte) (x : Session) (y : CmdSlot) : Prop :=
  t.session? id = some x ∧ y ∈ x.slots ∧ y.number = sl.number ∧ y.status = 0 ∧ y.payload = payload

/-- An accepted command that is answered OK in a state with the same sessions finds its answer in its slot. -/
theorem Accepted.answeredOk {s v : State} {sl : Slot} {se : Session} (accepted : Accepted s sl se)
    (ligil : v.ligil = (s.advanceSeq se.id sl).ligil) (detail : Nat) (words : List (Nat × Nat)) (payload : List Byte) :
    ∃ x y, (v.answer se.id sl 0 detail words payload).AnsweredOk se.id sl payload x y := by
  have session : v.session? se.id = (s.advanceSeq se.id sl).session? se.id := by unfold State.session?; rw [ligil]
  obtain ⟨y, slots, answered, among, number, status, carries⟩ := State.session?_answer
    (session.trans (State.session?_advanceSeq accepted)) sl 0 detail words payload
  exact ⟨_, y, answered, among, number, status, carries⟩

/-- A refusal is an event that waits to be logged (R427), and configures nothing. -/
theorem State.refuse_cfgs (s : State) (id : Nat) (sl : Slot) (status detail : Nat) :
    (s.refuse id sl status detail).sed.cfgs = s.sed.cfgs := by
  rw [State.refuse, State.refuseWith, State.answer_sed]
  rfl

/-- What is free does not depend on the sessions (R359). -/
theorem State.capsPayload_ligil (s : State) (ligil : Ligil) : State.capsPayload { s with ligil } = s.capsPayload := by
  have held : State.withheldPages { s with ligil } = s.withheldPages := rfl
  have top : State.freeTop { s with ligil } = s.freeTop := rfl
  have sub : State.freeSub { s with ligil } = s.freeSub := rfl
  have die : State.dieOk { s with ligil } = s.dieOk := rfl
  simp only [State.capsPayload, held, top, sub, die]

/-! ## Queries and reading the log (R358, R359, R444, R445) -/

section
variable {s : State} {sl : Slot} (se : Session) (empty : sl.len = 0)
include empty

theorem State.queryCaps_of_empty :
    State.queryCaps sl se s = s.answer se.id sl 0 0 s.capsWords s.capsPayload := by
  unfold State.queryCaps
  rw [if_neg (not_not_intro empty)]

theorem State.queryStats_of_image {c : Ctx} {b : List Byte} (named : sl.w 4 < 256) (selector : contextSelector (sl.w 5) = true)
    (hc : s.ctx? (sl.w 4) = some c) (image : s.ctxImage c (sl.w 5) (sl.w 6) = some (.ok b)) :
    State.queryStats sl se s = s.okPayload se.id sl b := by
  have low : sl.w 5 < 256 := by
    simp only [contextSelector, Bool.and_eq_true, decide_eq_true_eq] at selector
    omega
  have named : sl.ctxOk = true := decide_eq_true named
  simp only [State.queryStats, empty, named, low, selector, hc, Option.bind_some, image]
  rfl

/-- Reading records draws the sequences that no record has (R445, log entry 5). -/
theorem State.logReadRecords_of_ram (op : sl.w 4 = 0) (high : sl.w 6 < 65536) (some_ : 0 < sl.w 7) (few : sl.w 7 < 64) :
    ∃ detail words, State.logReadRecords sl se s = State.answer { s with free := s.free + 3 } se.id sl 0 detail words
      (((s.sed.ring.filter fun r => decide (sl.w48 5 ≤ r.seq)).take (sl.w 7)).flatMap SedRec.bytes) := by
  have sound : ¬(2 ≤ sl.w 4 ∨ 65536 ≤ sl.w 6 ∨ sl.w 7 = 0 ∨ 64 ≤ sl.w 7) := by omega
  unfold State.logReadRecords
  rw [if_neg (not_not_intro empty), if_neg sound, op]
  exact ⟨_, _, rfl⟩

theorem State.logReadConfig_of_sound (op : sl.w 4 = 2) (low : sl.w 5 < 65536) (some_ : 0 < sl.w 7) (few : sl.w 7 ≤ 504) :
    State.logReadConfig sl se s = s.answer se.id sl 0 0 []
      ((((Sed.sorted s.sed.cfgs).filter fun c => decide (sl.w 5 ≤ c.code)).take (sl.w 7)).flatMap CodeCfg.bytes) := by
  have sound : ¬(16 ≤ sl.w 4 ∨ 65536 ≤ sl.w 5 ∨ sl.w 7 = 0 ∨ 504 < sl.w 7) := by omega
  unfold State.logReadConfig
  rw [if_neg (not_not_intro empty), if_neg sound]

theorem State.logReadSet_of_sound (op : sl.w 4 = 6) (some_ : 0 < sl.w 5) (few : sl.w 5 ≤ 63) :
    State.logReadSet sl se s = s.answer se.id sl 0 0 [] ((getKey [] s.sed.sets (sl.w 5)).flatMap (leBytes 4)) := by
  have sound : ¬(16 ≤ sl.w 4 ∨ sl.w 5 = 0 ∨ 63 < sl.w 5) := by omega
  unfold State.logReadSet
  rw [if_neg (not_not_intro empty), if_neg sound]

theorem State.dumpRead_of_dump {d : Dump} (some_ : 0 < sl.w 5) (few : sl.w 5 ≤ maxPayload)
    (dump : s.sed.dump.or s.sed.dumpFlash = some d) : ∃ words, State.dumpRead sl se s =
      s.answer se.id sl 0 0 words ((d.bytes.drop (sl.w 4)).take (sl.w 5)) := by
  have sound : ¬(sl.w 5 = 0 ∨ maxPayload < sl.w 5) := by omega
  unfold State.dumpRead
  rw [if_neg (not_not_intro empty), if_neg sound, dump]
  exact ⟨_, rfl⟩

theorem State.dumpRead_of_none (some_ : 0 < sl.w 5) (few : sl.w 5 ≤ maxPayload) (ram : s.sed.dump = none)
    (flash : s.sed.dumpFlash = none) : State.dumpRead sl se s = s.refuse se.id sl 0x5009 0 := by
  have sound : ¬(sl.w 5 = 0 ∨ maxPayload < sl.w 5) := by omega
  unfold State.dumpRead
  rw [if_neg (not_not_intro empty), if_neg sound, ram, flash]
  rfl

end

/-! ## Configuring the log (R437, R446) -/

/-- The entry of a key that is written anew is the one that a search finds (R446). -/
theorem find?_filter_append_self {α : Type} {g : α → Nat} {a : α} {k : Nat} (ha : g a = k) (l : List α) :
    (l.filter (fun x => g x != k) ++ [a]).find? (fun x => g x == k) = some a := by
  have absent : (l.filter fun x => g x != k).find? (fun x => g x == k) = none := by
    refine List.find?_eq_none.mpr fun x hx => ?_
    have other := (List.mem_filter.mp hx).2
    simpa using other
  rw [List.find?_append, absent, Option.none_or, List.find?_singleton, ha, beq_self_eq_true, if_pos rfl]

theorem State.mapSettings_eq (s : State) (f : Settings → Settings) : ∃ flash, s.mapSettings f = { s with flash } := by
  unfold State.mapSettings
  split
  · exact ⟨_, rfl⟩
  · split
    · exact ⟨_, rfl⟩
    · exact ⟨_, rfl⟩

/-- A configured code's bucket is no configuration (R432). -/
theorem State.configure_cfgs (s : State) (e : CodeCfg) (rated : floodExempt e.code = false) :
    ∃ sed, s.configure e = { s with sed } ∧ (s.configure e).codeCfg e.code = e := by
  obtain ⟨sed, logged⟩ := SameButLog.writeFirst s
    { code := 0x31, detail := e.code, src := pkgPath, ctx := noCtx, words := (List.range 2).map fun i => leAt e.bytes (4 * i) 4 }
  have found : ∀ l : List CodeCfg, ((l.filter (fun c => c.code != e.code) ++ [e]).find? fun c => c.code == e.code) = some e :=
    find?_filter_append_self rfl
  unfold State.configure
  simp only [logged, rated, Bool.false_eq_true, if_false]
  split
  · exact ⟨_, rfl, by rw [State.codeCfg, found, Option.getD_some]⟩
  · exact ⟨_, rfl, by rw [State.codeCfg, State.setBucket, found, Option.getD_some]⟩

section
variable {s : State} {sl : Slot} (se : Session)

section
variable (op : sl.w 4 = 4) (one : sl.w 7 = 1) (len : sl.len = 8)
include op one len

theorem State.logWriteConfig_of_entry {e : CodeCfg} (entry : parseCfg (sliceBytes sl.payload 0 8) = some e) :
    ∃ flash, State.logWriteConfig sl se s = State.ok { s.configure e with flash } se.id sl := by
  obtain ⟨flash, written⟩ := (s.configure e).mapSettings_eq fun x => { x with cfgs := (s.configure e).sed.cfgs }
  refine ⟨flash, ?_⟩
  rw [← written]
  unfold State.logWriteConfig
  simp [op, one, len, entry]

omit op in
theorem State.logWriteConfig_of_unsound (none_ : parseCfg (sliceBytes sl.payload 0 8) = none) :
    State.logWriteConfig sl se s = s.invalid se.id sl 3 := by
  unfold State.logWriteConfig
  simp [one, len, none_]

end

/-- The log with a snapshot set written (R437). -/
def Sed.withSet (sed : Sed) (set : Nat) (entries : List Nat) : Sed :=
  { sed with sets := sed.sets.filter (fun x => x.1 != set) ++ [(set, entries)] }

theorem Sed.getKey_withSet (sed : Sed) (set : Nat) (entries : List Nat) : getKey [] (sed.withSet set entries).sets set = entries := by
  have found := find?_filter_append_self (g := Prod.fst) (a := (set, entries)) rfl sed.sets
  rw [getKey, Sed.withSet, found]

/-- A set of one entry is written after its record (R437). -/
theorem State.logWriteSet_of_entry (op : sl.w 4 = 8) (len : sl.len = 4) (some_ : 0 < sl.w 5) (few : sl.w 5 ≤ 63)
    (high : bitsOf (leAt sl.payload 0 4) 30 24 = 0) (low : leAt sl.payload 0 4 % 4 = 0) :
    ∃ sed flash, State.logWriteSet sl se s = State.ok { s with sed, flash } se.id sl ∧
      getKey [] sed.sets (sl.w 5) = [leAt sl.payload 0 4] := by
  obtain ⟨sed, logged⟩ := SameButLog.writeFirst s
    { code := 0x31, detail := sl.w 5, src := pkgPath, ctx := noCtx, words := [leAt sl.payload 0 4] }
  have few : ¬63 < sl.w 5 := Nat.not_lt.mpr few
  have some_ : sl.w 5 ≠ 0 := Nat.ne_of_gt some_
  obtain ⟨flash, stored⟩ := State.mapSettings_eq { s with sed := sed.withSet (sl.w 5) [leAt sl.payload 0 4] }
    fun x => { x with sets := (sed.withSet (sl.w 5) [leAt sl.payload 0 4]).sets }
  refine ⟨_, flash, ?_, sed.getKey_withSet (sl.w 5) _⟩
  rw [← stored]
  unfold State.logWriteSet
  simp [op, len, high, low, few, some_, logged, Sed.withSet]

end

/-- Settles O38: an accepted command's answer stands in its slot, and a configured code or set is the one found after. -/
theorem queryLogAndDumpCommandsComplete : Obligations.QueryLogAndDumpCommandsComplete := by
  unfold Obligations.QueryLogAndDumpCommandsComplete
  refine ⟨?_, ?_, ?_⟩
  · rintro s _ sl se accepted rfl empty
    refine ⟨fun code => ?_, fun c b code named selector hc image => ?_⟩
    · have row : exec (.queryCaps sl) s = _ := exec_of_accepted accepted rfl (beq_iff_eq.mpr code)
      have free : (s.advanceSeq se.id sl).capsPayload = s.capsPayload :=
        State.capsPayload_ligil s (s.advanceSeq se.id sl).ligil
      rw [State.queryCaps_of_empty se empty, free] at row
      obtain ⟨x, y, answered, among, number, status, carries⟩ := accepted.answeredOk rfl 0 (s.advanceSeq se.id sl).capsWords
        s.capsPayload
      exact ⟨_, x, y, row, answered, among, number, status, carries, State.answer_ctxs .., State.answer_mem ..,
        (SameButAnswer.answer ..).flash, State.answer_sed ..⟩
    · have row : exec (.queryStats sl) s = .next (State.queryStats sl se (s.advanceSeq se.id sl)) :=
        exec_of_accepted accepted rfl (beq_iff_eq.mpr code)
      rw [State.queryStats_of_image (s := s.advanceSeq se.id sl) se empty named selector hc image] at row
      obtain ⟨x, y, answered, among, number, status, carries⟩ := accepted.answeredOk rfl 0 [] (b.take maxPayload)
      exact ⟨_, x, y, row, answered, among, number, status, carries, State.answer_ctxs .., State.answer_mem ..,
        (SameButAnswer.answer ..).flash, State.answer_sed ..⟩
  · intro s sl se accepted empty
    refine ⟨fun code op high some_ few => ?_, fun code op low some_ few => ?_, fun code op some_ few => ?_,
      fun d code some_ few dump => ?_, fun code some_ few ram flash => ?_⟩
    · have row : exec (.logReadRecords sl) s = _ := exec_of_accepted accepted rfl (by simp [code, Slot.logOp, op])
      obtain ⟨detail, words, effect⟩ := State.logReadRecords_of_ram (s := s.advanceSeq se.id sl) se empty op high some_ few
      rw [effect] at row
      obtain ⟨x, y, answered, among, number, status, carries⟩ := accepted.answeredOk
        (v := { s.advanceSeq se.id sl with free := (s.advanceSeq se.id sl).free + 3 }) rfl detail words _
      exact ⟨_, x, y, row, answered, among, number, status, State.answer_sed .., State.answer_ctxs .., State.answer_mem ..,
        carries⟩
    · have row : exec (.logReadConfig sl) s = _ :=
        exec_of_accepted accepted rfl (by simp [Slot.isLog, code, Slot.logOp, op])
      rw [State.logReadConfig_of_sound se empty op low some_ few] at row
      obtain ⟨x, y, answered, among, number, status, carries⟩ := accepted.answeredOk rfl 0 [] _
      exact ⟨_, x, y, row, answered, among, number, status, State.answer_sed .., State.answer_ctxs .., State.answer_mem ..,
        carries⟩
    · have row : exec (.logReadSet sl) s = _ := exec_of_accepted accepted rfl (by simp [Slot.isLog, code, Slot.logOp, op])
      rw [State.logReadSet_of_sound se empty op some_ few] at row
      obtain ⟨x, y, answered, among, number, status, carries⟩ := accepted.answeredOk rfl 0 [] _
      exact ⟨_, x, y, row, answered, among, number, status, State.answer_sed .., State.answer_ctxs .., State.answer_mem ..,
        carries⟩
    · have row : exec (.dumpRead sl) s = _ := exec_of_accepted accepted rfl (beq_iff_eq.mpr code)
      obtain ⟨words, effect⟩ := State.dumpRead_of_dump (s := s.advanceSeq se.id sl) se empty some_ few dump
      rw [effect] at row
      obtain ⟨x, y, answered, among, number, status, carries⟩ := accepted.answeredOk rfl 0 words _
      exact ⟨_, x, y, row, answered, among, number, status, State.answer_sed .., State.answer_mem .., carries⟩
    · have row : exec (.dumpRead sl) s = _ := exec_of_accepted accepted rfl (beq_iff_eq.mpr code)
      rw [State.dumpRead_of_none (s := s.advanceSeq se.id sl) se empty some_ few ram flash] at row
      exact ⟨_, row, State.responded_refuse (State.session?_advanceSeq accepted) .., State.answer_mem ..⟩
  · intro s sl se accepted code
    have session := State.session?_advanceSeq accepted
    refine ⟨fun e op one len entry rated => ?_, fun op one len none_ => ?_, fun op len some_ few high low => ?_⟩
    · have row : exec (.logWriteConfig sl) s = _ :=
        exec_of_accepted accepted rfl (by simp [Slot.isLog, code, Slot.logOp, op])
      obtain ⟨sed, configured, found⟩ := State.configure_cfgs (s.advanceSeq se.id sl) e rated
      obtain ⟨flash, effect⟩ := State.logWriteConfig_of_entry (s := s.advanceSeq se.id sl) se op one len entry
      rw [effect, configured] at row
      rw [configured] at found
      refine ⟨_, row, ?_, State.responded_answer _ _ _ _ _ session, State.answer_ctxs .., State.answer_mem ..⟩
      rw [State.codeCfg, State.ok, State.answer_sed]
      exact found
    · have row : exec (.logWriteConfig sl) s = _ :=
        exec_of_accepted accepted rfl (by simp [Slot.isLog, code, Slot.logOp, op])
      rw [State.logWriteConfig_of_unsound se one len none_] at row
      exact ⟨_, row, State.refuse_cfgs .., (SameButAnswer.refuse ..).flash,
        State.responded_refuse session ..⟩
    · have row : exec (.logWriteSet sl) s = _ :=
        exec_of_accepted accepted rfl (by simp [Slot.isLog, code, Slot.logOp, op])
      obtain ⟨sed, flash, effect, found⟩ := State.logWriteSet_of_entry (s := s.advanceSeq se.id sl) se op len some_ few high low
      rw [effect] at row
      exact ⟨_, row, by rwa [State.ok, State.answer_sed], State.responded_answer _ _ _ _ _ session, State.answer_ctxs ..,
        State.answer_mem ..⟩

end Sys2Proof.Machine
end


section
/-! PROOFS. That RESET_REQ leaves memory as it was fails at level 2 for a copy engine (R360, R378): the reset fails the
fill that runs on the engine, whose pages return to the pool, and a restored context to which the object's residency is
still owed takes it at once, with a fill of its own (R232, R234). -/

namespace Sys2Proof.Machine

/-- The commons object 5 of context 0, whose fill runs on copy engine 0: its home page is the first of subsoil, its
resident page is the first of topsoil, and a restored context 0 counts among its holders. -/
def fillingObject : CommonsObj :=
  { entry := { id := 5, size := 1, home := 0, view := 0, places := [0], counter := 0 }
    owner := 0, home := [16384], resident := [0], phase := .filling, holders := [0], waiters := [], grants := [], engine := 0 }

/-- Context 0 after a RESTORE, to which the residency of object 5 is owed. -/
def owingContext : Ctx :=
  { Ctx.admitted 0 { reference := false, policy := .cont, commonsOwner := true, hangMs := 250, seed := [], owner := 9 }
      1 with
    phase := .held, owed := [5], pages := { CtxPages.empty with poolTop := [0] } }

/-- An operator's session. -/
def operatorSession : Session :=
  { Session.zero with id := 1, conn := 1, roles := 7, identity := 9, nextSeq := 1, hello := true }

/-- A byte in the home page of the object that is being filled. -/
def fillingState : State :=
  { State.reset with
    ctxs := [owingContext], arbiter := { objects := [fillingObject], queue := [] }, mem := [(pageAddr 16384, 1)]
    ligil := { Ligil.init with
      conns := [{ id := 1, front := 0, roles := 7, identity := 9, session := some 1 }]
      sessions := [Session.zero, operatorSession] } }

/-- RESET_REQ of level 2 for copy engine 0. -/
def resetCopyEngine : Slot :=
  { conn := 1, head := { type := 1, reserved := 0, length := 64 }, owner := 1, reserved := 0, code := 0x80, session := 1
    seq := 1, len := 0, status := 0, detail := 0, args := [2, 0x500, 0, 0, 0, 0, 0, 0, 0, 0, 0, 0], payload := [] }

theorem accepted_resetCopyEngine : Accepted fillingState resetCopyEngine operatorSession where
  serving := by decide +kernel
  session := by decide +kernel
  form := by decide +kernel
  header := by decide +kernel
  names := by decide +kernel
  free := by decide +kernel
  open_ := Or.inl rfl
  idle := rfl
  alone := by decide +kernel
  verdict := by decide +kernel

/-- The state after the engine reset has begun. -/
def resetBegun : State := State.resetReq resetCopyEngine operatorSession (fillingState.advanceSeq 1 resetCopyEngine)

theorem exec_resetCopyEngine : exec (.resetReq resetCopyEngine) fillingState = .next resetBegun :=
  exec_of_accepted accepted_resetCopyEngine rfl rfl

/-- The home page's byte stands in the resident page, which held none before. -/
theorem memRead_resetBegun : memRead resetBegun.mem (pageAddr 0) = 1 := by decide +kernel

theorem memRead_fillingState : memRead fillingState.mem (pageAddr 0) = 0 := by decide +kernel

/-- Refutes O39: in `fillingState` the reset of copy engine 0 changes memory. -/
theorem not_resetRequestsStartResets : ¬ Obligations.ResetRequestsStartResets := by
  unfold Obligations.ResetRequestsStartResets
  intro h
  obtain ⟨-, -, engines, -⟩ := h fillingState resetCopyEngine operatorSession accepted_resetCopyEngine rfl rfl
  obtain ⟨t, -, run, -, -, -, kept, -⟩ := engines rfl (Or.inr (by decide)) (by decide +kernel) (by decide +kernel)
    (by decide +kernel)
  obtain rfl : resetBegun = t := Host.Outcome.next.inj (exec_resetCopyEngine.symm.trans run)
  have byte := memRead_resetBegun
  rw [kept, memRead_fillingState] at byte
  exact absurd byte (by decide)

end Sys2Proof.Machine
end


section
/-! PROOFS. ATTEST and the replacement of firmware (R342, R397, R402, R406, R408, R411 to R420). -/

namespace Sys2Proof.Machine

/-! ## What a write to flash leaves (R406, R408) -/

/-- The flash after a write of bank `b`'s image area, which a protection of the bank holds off (R408). -/
structure BankWritten (s : State) (b : Nat) (i : BankImage) (flash : Flash) : Prop where
  bank : flash.bank b = if s.bankProtected b then s.flash.bank b else i
  other : ∀ j, (j = 0 ↔ b ≠ 0) → flash.bank j = s.flash.bank j
  staging : flash.staging = s.flash.staging
  rollback : flash.rollback = s.flash.rollback

/-- The flash after a write of bank `b`'s staging area, which a protection of the bank holds off (R408). -/
structure StagingWritten (s : State) (b : Nat) (l : List Byte) (flash : Flash) : Prop where
  staging : flash.staging b = if s.bankProtected b then s.flash.staging b else l
  bank : flash.bank = s.flash.bank
  rollback : flash.rollback = s.flash.rollback

/-- The flash after the boot control record is written, where the package writes one (R400, R406). -/
structure CtlWritten (s : State) (c : BootCtl) (flash : Flash) : Prop where
  control : s.boot.ident = true → s.boot.phase ≠ .recovery → flash.control = some c
  bank : flash.bank = s.flash.bank
  rollback : flash.rollback = s.flash.rollback

theorem Flash.setBank_bank (f : Flash) (b : Nat) (i : BankImage) : (f.setBank b i).bank b = i := by
  unfold Flash.setBank Flash.bank
  split <;> rfl

theorem Flash.setBank_bank_other (f : Flash) {b j : Nat} (i : BankImage) (other : j = 0 ↔ b ≠ 0) :
    (f.setBank b i).bank j = f.bank j := by
  by_cases first : b = 0
  · have second : j ≠ 0 := fun e => other.mp e first
    rw [Flash.setBank, if_pos first, Flash.bank, Flash.bank, if_neg second, if_neg second]
  · have second : j = 0 := other.mpr first
    rw [Flash.setBank, if_neg first, Flash.bank, Flash.bank, if_pos second, if_pos second]

theorem Flash.setBank_staging (f : Flash) (b : Nat) (i : BankImage) : (f.setBank b i).staging = f.staging := by
  unfold Flash.setBank
  split <;> rfl

theorem Flash.setBank_rollback (f : Flash) (b : Nat) (i : BankImage) : (f.setBank b i).rollback = f.rollback := by
  unfold Flash.setBank
  split <;> rfl

theorem Flash.setStaging_staging (f : Flash) (b : Nat) (l : List Byte) : (f.setStaging b l).staging b = l := by
  unfold Flash.setStaging Flash.staging
  split <;> rfl

theorem Flash.setStaging_bank (f : Flash) (b : Nat) (l : List Byte) : (f.setStaging b l).bank = f.bank := by
  unfold Flash.setStaging
  split <;> rfl

theorem Flash.setStaging_rollback (f : Flash) (b : Nat) (l : List Byte) : (f.setStaging b l).rollback = f.rollback := by
  unfold Flash.setStaging
  split <;> rfl

theorem State.putBank_eq (s : State) (b : Nat) (i : BankImage) :
    ∃ flash, s.putBank b i = { s with flash } ∧ BankWritten s b i flash := by
  unfold State.putBank
  split
  next protected_ => exact ⟨s.flash, rfl, (if_pos protected_).symm, fun _ _ => rfl, rfl, rfl⟩
  next open_ => exact ⟨_, rfl, (Flash.setBank_bank ..).trans (if_neg open_).symm, fun _ => Flash.setBank_bank_other _ _,
    Flash.setBank_staging .., Flash.setBank_rollback ..⟩

theorem State.putStaging_eq (s : State) (b : Nat) (l : List Byte) :
    ∃ flash, s.putStaging b l = { s with flash } ∧ StagingWritten s b l flash := by
  unfold State.putStaging
  split
  next protected_ => exact ⟨s.flash, rfl, (if_pos protected_).symm, rfl, rfl⟩
  next open_ => exact ⟨_, rfl, (Flash.setStaging_staging ..).trans (if_neg open_).symm, Flash.setStaging_bank ..,
    Flash.setStaging_rollback ..⟩

theorem State.writeCtl_eq (s : State) (c : BootCtl) :
    ∃ free flash, s.writeCtl c = { s with free, flash } ∧ CtlWritten s c flash := by
  have bank := s.writeCtl_bank c
  have rollback := s.writeCtl_rollback c
  unfold State.writeCtl at bank rollback ⊢
  split
  next writes =>
    rw [if_pos writes] at bank rollback
    obtain e | ⟨recs, free, -, e⟩ := s.writeUnitRec_cases 0x10 c.body
    · rw [e] at bank rollback ⊢
      exact ⟨_, _, rfl, fun _ _ => rfl, bank, rollback⟩
    · rw [e] at bank rollback ⊢
      exact ⟨_, _, rfl, fun _ _ => rfl, bank, rollback⟩
  next silent => exact ⟨s.free, s.flash, rfl, fun ident phase => absurd ⟨ident, phase⟩ silent, rfl, rfl⟩

/-- An authenticated update of RPMC counter 0 raises it and never lowers it (R397). -/
theorem State.raiseRollback_rollback (s : State) (v : Nat) :
    (s.raiseRollback v).flash.rollback = if s.mayRaise then max s.flash.rollback v else s.flash.rollback := by
  simp only [State.raiseRollback, rpmcTake, if_true]

theorem SameButAnswer.now {s t : State} (same : SameButAnswer s t) : t.now = s.now := by
  obtain ⟨_, _, _, rfl⟩ := same
  rfl

theorem State.askReset_asked {s : State} (unasked : s.resets.asked = none) (cause : Nat) :
    (s.askReset cause).resets.asked = some (cause, s.now) := by
  rw [State.askReset]
  dsimp only
  rw [unasked, Option.none_or]

/-! ## ATTEST (R411) -/

section
variable {s : State} {sl : Slot} (se : Session)

theorem State.attest_of_identity (len : sl.len = 32) (signs : s.maySign = true) : State.attest sl se s =
    State.okPayload { s with free := s.free + 1 } se.id sl
      (s.report sl.payload ++ (s.unitSign (s.report sl.payload)).1 ++ Config.unitChain) := by
  have refused : ¬(!s.maySign) = true := by rw [signs]; decide
  unfold State.attest
  rw [if_neg (not_not_intro len), if_neg refused]
  unfold State.unitSign
  dsimp only [State.draw]

/-! ## FW_OFFER (R413, R414) -/

section
variable (len : sl.len = 512) (size : sl.w64 4 = imgLength sl.payload) (ident : s.boot.ident = true) (idle : s.boot.upd = .idle)
include len size ident idle

theorem State.fwOffer_of_refused {code d : Nat} (fails : s.offerFails sl.payload = some (code, d)) :
    State.fwOffer sl se s = s.refuse se.id sl code d := by
  have known : ¬(!s.boot.ident && s.boot.phase == .running) = true := by rw [ident]; exact Bool.false_ne_true
  unfold State.fwOffer
  rw [if_neg (not_not_intro len), if_neg (not_not_intro size), if_neg known, if_neg fun busy => busy.1 idle, fails]

/-- An offer that passes erases the other bank and its staging area (R414). -/
theorem State.fwOffer_of_passed (passes : s.offerFails sl.payload = none) : ∃ flash, State.fwOffer sl se s =
      State.ok { s with flash, boot := { s.boot with upd := .receiving, offer := some (se.id, sl.payload) } } se.id sl ∧
    flash.staging s.updBank = (if s.bankProtected s.updBank then s.flash.staging s.updBank else []) ∧
    flash.bank s.updBank = (if s.bankProtected s.updBank then s.flash.bank s.updBank else .erased) ∧
    flash.rollback = s.flash.rollback := by
  obtain ⟨erased, eB, banks⟩ := s.putBank_eq s.updBank .erased
  obtain ⟨flash, eS, stages⟩ := State.putStaging_eq { s with flash := erased } s.updBank []
  refine ⟨flash, ?_, ?_, ?_, stages.rollback.trans banks.rollback⟩
  · have known : ¬(!s.boot.ident && s.boot.phase == .running) = true := by rw [ident]; exact Bool.false_ne_true
    have unstaged : s.boot.upd ≠ .staged := by rw [idle]; decide
    have written : (s.putBank s.updBank .erased).putStaging s.updBank [] = { s with flash } := by rw [eB, eS]
    unfold State.fwOffer
    rw [if_neg (not_not_intro len), if_neg (not_not_intro size), if_neg known, if_neg fun busy => busy.1 idle, passes]
    dsimp only
    rw [if_neg unstaged, written]
  · rw [stages.staging, banks.staging]
    rfl
  · rw [stages.bank, banks.bank]

end

/-! ## FW_CHUNK (R413, R415) -/

/-- Whether the image in a staging area is signed with the key of the header offered (R415). -/
def chunkSigned (h all : List Byte) : Bool :=
  ecdsaVerify (sliceBytes h 152 96) (sha384 (all.take (imgLength h - 96))) (sliceBytes all (imgLength h - 96) 96)

section
variable {h all : List Byte} (form : sl.formOk = true) (some_ : 0 < sl.len) (receiving : s.boot.upd = .receiving)
  (offer : s.boot.offer = some (se.id, h)) (next : sl.w64 4 = (s.flash.staging s.updBank).length)
  (whole : all = s.flash.staging s.updBank ++ sl.payload)
include form some_ receiving offer next whole

/-- A chunk that the offered length has room for is appended, and the image is judged once it is whole (R415). -/
theorem State.fwChunk_of_next (room : all.length ≤ imgLength h) : State.fwChunk sl se s =
    let v := s.putStaging s.updBank all
    if all.length < imgLength h then v.ok se.id sl
    else if chunkSigned h all then (v.setUpd .applying).ok se.id sl
    else ({ v.putStaging v.updBank [] with boot := { (v.putStaging v.updBank []).boot with offer := none } }.setUpd .idle).refuse
      se.id sl 0x6004 2 := by
  subst whole
  simp only [Slot.formOk, Bool.and_eq_true, beq_iff_eq] at form
  obtain ⟨⟨⟨-, length⟩, -⟩, -⟩ := form
  rw [List.length_append, length] at room
  have sound : ¬(sl.w64 4 ≠ (s.flash.staging s.updBank).length ∨
      imgLength h < (s.flash.staging s.updBank).length + sl.len) := by omega
  unfold State.fwChunk
  rw [if_neg (Nat.ne_of_gt some_), receiving, offer]
  dsimp only
  rw [if_neg (not_not_intro rfl), if_neg sound]
  rfl

end

/-! ## FW_ACTIVATE and FW_CONFIRM (R413, R417, R420) -/

/-- A staged image is armed; a chip reset follows where the command asks for one (R417). -/
theorem State.fwActivate_of_staged (empty : sl.len = 0) (arg : sl.w 4 < 2) (staged : s.boot.upd = .staged)
    (running : s.boot.phase = .running) : State.fwActivate sl se s =
      let v := ((s.writeCtl { s.bootCtl with armed := true, upd := 4 }).setUpd .armed).ok se.id sl
      if sl.w 4 = 1 then v.askReset 0xB else v := by
  have known : ¬(s.boot.upd ≠ .staged ∧ s.boot.upd ≠ .armed) := fun busy => busy.1 staged
  have booted : s.boot.phase ≠ .recovery := by rw [running]; decide
  unfold State.fwActivate
  rw [if_neg (not_not_intro empty), if_neg (Nat.not_le.mpr arg), if_neg known, if_neg booted, if_pos staged]

/-- The firmware that confirms its trial is the active one, under its security version (R420). -/
theorem State.fwConfirm_of_trial (empty : sl.len = 0) (trial : s.boot.upd = .trial) : ∃ free flash sed,
    State.fwConfirm sl se s =
      State.ok { s with free, flash, sed, boot := { s.boot with upd := .confirmed, trial := false } } se.id sl ∧
    flash.rollback = (if s.mayRaise then max s.flash.rollback s.boot.sver else s.flash.rollback) ∧
    (s.boot.ident = true → s.boot.phase ≠ .recovery →
      flash.control = some { s.bootCtl with active := s.boot.bank, trial := false, upd := 6 }) := by
  obtain ⟨free, flash, written, ctl⟩ := (s.raiseRollback s.boot.sver).writeCtl_eq { (s.raiseRollback s.boot.sver).bootCtl with
    active := (s.raiseRollback s.boot.sver).boot.bank, trial := false, upd := 6 }
  refine ⟨free, { flash with recFmtBoth := none }, (s.raise 0x6010 0 pkgPath noCtx).sed, ?_,
    ctl.rollback.trans (s.raiseRollback_rollback _), ctl.control⟩
  unfold State.fwConfirm
  rw [if_neg (not_not_intro empty), if_neg (not_not_intro trial)]
  dsimp only
  rw [written]
  rfl

end

/-! ## FW_APPLY_DONE (R402, R404, R416) -/

theorem State.imageFails_putBank (s : State) (b : Nat) (i : BankImage) (l : List Byte) :
    (s.putBank b i).imageFails l = s.imageFails l := by
  obtain ⟨flash, written, banks⟩ := s.putBank_eq b i
  rw [written]
  unfold State.imageFails
  dsimp only
  rw [banks.rollback]
  rfl

/-- What an update that ended leaves of the state `s`: its boot state with the update over, and flash with the same banks
and the same RPMC counter 0 (R412). -/
structure UpdateOver (s : State) (upd : UpdPhase) (t : State) : Prop where
  upd : t.boot.upd = upd
  offer : t.boot.offer = none
  bank : t.flash.bank = s.flash.bank
  rollback : t.flash.rollback = s.flash.rollback
  ctxs : t.ctxs = s.ctxs
  mem : t.mem = s.mem

theorem UpdateOver.notifyOps {s t : State} {upd : UpdPhase} (over_ : UpdateOver s upd t) (code detail : Nat) :
    UpdateOver s upd (t.notifyOps code detail) := by
  obtain ⟨ligil, told⟩ := t.notifyOps_eq code detail
  rw [told]
  exact ⟨over_.upd, over_.offer, over_.bank, over_.rollback, over_.ctxs, over_.mem⟩

theorem UpdateOver.applyFailed (s : State) (code detail : Nat) : UpdateOver s .idle (s.applyFailed code detail) := by
  obtain ⟨ligil, told⟩ := (s.raise code detail pkgPath noCtx).notifyOps_eq code detail
  obtain ⟨free, flash, written, ctl⟩ := ((s.raise code detail pkgPath noCtx).notifyOps code detail).writeCtl_eq
    { ((s.raise code detail pkgPath noCtx).notifyOps code detail).bootCtl with staged := false, upd := 0 }
  unfold State.applyFailed
  dsimp only
  rw [written]
  rw [told] at ctl ⊢
  exact ⟨rfl, rfl, ctl.bank, ctl.rollback, rfl, rfl⟩

/-- The image in a bank is staged: the boot control record says so, and operators hear of it (R406, R416). -/
def State.stageImage (s : State) (full : List Byte) : State :=
  let v := s.writeCtl { s.bootCtl with staged := true, upd := 2, sver := imgSver full, digest := imgDigest full }
  ((({ v with boot := { v.boot with offer := none } } : State).setUpd .staged).raise 0x20 (leAt full 16 2) pkgPath
    noCtx).notifyOps 0x20 (leAt full 16 2)

theorem UpdateOver.stageImage (s : State) (full : List Byte) : UpdateOver s .staged (s.stageImage full) := by
  obtain ⟨free, flash, written, ctl⟩ := s.writeCtl_eq
    { s.bootCtl with staged := true, upd := 2, sver := imgSver full, digest := imgDigest full }
  refine UpdateOver.notifyOps ?_ _ _
  rw [written]
  exact ⟨rfl, rfl, ctl.bank, ctl.rollback, rfl, rfl⟩

theorem exec_fwApplyDone {s : State} {staged : List Byte} (applying : s.boot.upd = .applying)
    (area : staged = s.flash.staging s.updBank) (full : imgIsDiff staged = false) :
    exec .fwApplyDone s = .next (if (s.imageFails staged).isSome then
      (s.putBank s.updBank (.image staged)).applyFailed 0x6004 3 else
      (s.putBank s.updBank (.image staged)).stageImage staged) := by
  subst area
  have built : builtImage (s.flash.bank s.boot.bank).bytes (s.flash.staging s.updBank) = s.flash.staging s.updBank := by
    rw [builtImage, full]
    rfl
  have row : exec .fwApplyDone s = execFwApplyDone s := rfl
  rw [row]
  unfold execFwApplyDone
  rw [if_neg (not_not_intro applying)]
  dsimp only
  rw [full, built, State.imageFails_putBank, Bool.false_and, Bool.false_and, if_neg Bool.false_ne_true,
    if_neg Bool.false_ne_true]
  split
  · rfl
  · rfl

/-- Where an update has ended in bank `b`, flash holds there what was written, and the other bank is as before. -/
theorem UpdateOver.banks {s t : State} {upd : UpdPhase} {b : Nat} {i : BankImage}
    (over_ : UpdateOver (s.putBank b i) upd t) :
    t.flash.bank b = (if s.bankProtected b then s.flash.bank b else i) ∧
      (∀ j, (j = 0 ↔ b ≠ 0) → t.flash.bank j = s.flash.bank j) ∧ t.flash.rollback = s.flash.rollback ∧
      t.ctxs = s.ctxs ∧ t.mem = s.mem := by
  obtain ⟨flash, written, banks⟩ := s.putBank_eq b i
  rw [written] at over_
  exact ⟨(congrFun over_.bank b).trans banks.bank, fun j other => (congrFun over_.bank j).trans (banks.other j other),
    over_.rollback.trans banks.rollback, over_.ctxs, over_.mem⟩

/-! ## The obligation -/

section
variable {s : State} {sl : Slot} {se : Session} (accepted : Accepted s sl se)
include accepted

theorem exec_attest_signs (code : sl.cmd = 0x02) (len : sl.len = 32) (signs : s.maySign = true) :
    ∃ t x y, exec (.attest sl) s = .next t ∧ t.session? se.id = some x ∧ y ∈ x.slots ∧ y.number = sl.number ∧ y.status = 0 ∧
      y.payload = (s.report sl.payload ++ (s.unitSign (s.report sl.payload)).1 ++ Config.unitChain).take maxPayload ∧
      t.boot = s.boot ∧ t.flash = s.flash ∧ t.ctxs = s.ctxs ∧ t.mem = s.mem := by
  have row : exec (.attest sl) s = .next (State.attest sl se (s.advanceSeq se.id sl)) :=
    exec_of_accepted accepted rfl (beq_iff_eq.mpr code)
  have report : (s.advanceSeq se.id sl).report sl.payload = s.report sl.payload := rfl
  have signature (b : List Byte) : ((s.advanceSeq se.id sl).unitSign b).1 = (s.unitSign b).1 := rfl
  rw [State.attest_of_identity (s := s.advanceSeq se.id sl) se len signs, report, signature] at row
  obtain ⟨x, y, answered, among, number, status, carries⟩ := accepted.answeredOk
    (v := { s.advanceSeq se.id sl with free := (s.advanceSeq se.id sl).free + 1 }) rfl 0 [] _
  exact ⟨_, x, y, row, answered, among, number, status, carries, (SameButAnswer.answer ..).boot,
    (SameButAnswer.answer ..).flash, State.answer_ctxs .., State.answer_mem ..⟩

section
variable (code : sl.cmd = 0x60) (len : sl.len = 512) (size : sl.w64 4 = imgLength sl.payload) (ident : s.boot.ident = true)
  (idle : s.boot.upd = .idle)
include code len size ident idle

theorem exec_fwOffer_passed (passes : s.offerFails sl.payload = none) : ∃ t, exec (.fwOffer sl) s = .next t ∧
    t.boot.upd = .receiving ∧ t.boot.offer = some (se.id, sl.payload) ∧
    t.flash.staging s.updBank = (if s.bankProtected s.updBank then s.flash.staging s.updBank else []) ∧
    t.flash.bank s.updBank = (if s.bankProtected s.updBank then s.flash.bank s.updBank else .erased) ∧
    t.flash.rollback = s.flash.rollback ∧ t.responded se.id sl 0 ∧ t.ctxs = s.ctxs ∧ t.mem = s.mem := by
  have row : exec (.fwOffer sl) s = .next (State.fwOffer sl se (s.advanceSeq se.id sl)) :=
    exec_of_accepted accepted rfl (beq_iff_eq.mpr code)
  obtain ⟨flash, effect, staging, bank, rollback⟩ :=
    State.fwOffer_of_passed (s := s.advanceSeq se.id sl) se len size ident idle passes
  rw [effect] at row
  have same := SameButAnswer.answer { s.advanceSeq se.id sl with flash, boot := { (s.advanceSeq se.id sl).boot with
    upd := .receiving, offer := some (se.id, sl.payload) } } se.id sl 0 0 [] []
  refine ⟨_, row, congrArg Boot.upd same.boot, congrArg Boot.offer same.boot, ?_, ?_, ?_,
    State.responded_answer _ _ _ _ _ (State.session?_advanceSeq accepted), same.ctxs, same.mem⟩
  · exact (congrArg (fun f => f.staging s.updBank) same.flash).trans staging
  · exact (congrArg (fun f => f.bank s.updBank) same.flash).trans bank
  · exact (congrArg Flash.rollback same.flash).trans rollback

theorem exec_fwOffer_refused {refusal d : Nat} (fails : s.offerFails sl.payload = some (refusal, d)) :
    ∃ t, exec (.fwOffer sl) s = .next t ∧ t.boot = s.boot ∧ t.flash = s.flash ∧ t.responded se.id sl refusal ∧
      t.ctxs = s.ctxs ∧ t.mem = s.mem := by
  have row : exec (.fwOffer sl) s = .next (State.fwOffer sl se (s.advanceSeq se.id sl)) :=
    exec_of_accepted accepted rfl (beq_iff_eq.mpr code)
  rw [State.fwOffer_of_refused (s := s.advanceSeq se.id sl) se len size ident idle fails] at row
  have same := SameButAnswer.refuse (s.advanceSeq se.id sl) se.id sl refusal d
  exact ⟨_, row, same.boot, same.flash, State.responded_refuse (State.session?_advanceSeq accepted) .., same.ctxs, same.mem⟩

end

section
variable {h all : List Byte} (code : sl.cmd = 0x61) (some_ : 0 < sl.len) (receiving : s.boot.upd = .receiving)
  (offer : s.boot.offer = some (se.id, h)) (next : sl.w64 4 = (s.flash.staging s.updBank).length)
  (whole : all = s.flash.staging s.updBank ++ sl.payload)
include code some_ receiving offer next whole

/-- A chunk's bytes stand in the staging area before the image is judged (R415). -/
theorem exec_fwChunk (room : all.length ≤ imgLength h) : ∃ flash, StagingWritten (s.advanceSeq se.id sl) s.updBank all flash ∧
    exec (.fwChunk sl) s = .next
      (let v : State := { s.advanceSeq se.id sl with flash }
      if all.length < imgLength h then v.ok se.id sl
      else if chunkSigned h all then (v.setUpd .applying).ok se.id sl
      else ({ v.putStaging v.updBank [] with
        boot := { (v.putStaging v.updBank []).boot with offer := none } }.setUpd .idle).refuse se.id sl 0x6004 2) := by
  have row : exec (.fwChunk sl) s = .next (State.fwChunk sl se (s.advanceSeq se.id sl)) :=
    exec_of_accepted accepted rfl (beq_iff_eq.mpr code)
  obtain ⟨flash, written, staged⟩ := (s.advanceSeq se.id sl).putStaging_eq s.updBank all
  rw [State.fwChunk_of_next (s := s.advanceSeq se.id sl) se accepted.form some_ receiving offer next whole room] at row
  have written : (s.advanceSeq se.id sl).putStaging (s.advanceSeq se.id sl).updBank all = { s.advanceSeq se.id sl with flash } :=
    written
  rw [written] at row
  exact ⟨flash, staged, row⟩

theorem exec_fwChunk_more (more : all.length < imgLength h) : ∃ t, exec (.fwChunk sl) s = .next t ∧
    t.flash.staging s.updBank = (if s.bankProtected s.updBank then s.flash.staging s.updBank else all) ∧
    t.boot.upd = .receiving ∧ t.responded se.id sl 0 ∧ t.ctxs = s.ctxs ∧ t.mem = s.mem := by
  obtain ⟨flash, staged, row⟩ := exec_fwChunk accepted code some_ receiving offer next whole more.le
  dsimp only at row
  rw [if_pos more] at row
  have same := SameButAnswer.answer { s.advanceSeq se.id sl with flash } se.id sl 0 0 [] []
  exact ⟨_, row, (congrArg (fun f => f.staging s.updBank) same.flash).trans staged.staging,
    (congrArg Boot.upd same.boot).trans receiving, State.responded_answer _ _ _ _ _ (State.session?_advanceSeq accepted),
    same.ctxs, same.mem⟩

theorem exec_fwChunk_signed (full : all.length = imgLength h) (signed : chunkSigned h all = true) :
    ∃ t, exec (.fwChunk sl) s = .next t ∧
      t.flash.staging s.updBank = (if s.bankProtected s.updBank then s.flash.staging s.updBank else all) ∧
      t.boot.upd = .applying ∧ t.responded se.id sl 0 := by
  obtain ⟨flash, staged, row⟩ := exec_fwChunk accepted code some_ receiving offer next whole full.le
  dsimp only at row
  rw [if_neg full.not_lt, if_pos signed] at row
  have same := SameButAnswer.answer (State.setUpd { s.advanceSeq se.id sl with flash } .applying) se.id sl 0 0 [] []
  exact ⟨_, row, (congrArg (fun f => f.staging s.updBank) same.flash).trans staged.staging, congrArg Boot.upd same.boot,
    State.responded_answer _ _ _ _ _ (State.session?_advanceSeq accepted)⟩

theorem exec_fwChunk_unsigned (full : all.length = imgLength h) (unsigned : chunkSigned h all = false) :
    ∃ t, exec (.fwChunk sl) s = .next t ∧
      t.flash.staging s.updBank = (if s.bankProtected s.updBank then s.flash.staging s.updBank else []) ∧
      t.boot.upd = .idle ∧ t.boot.offer = none ∧ t.responded se.id sl 0x6004 := by
  obtain ⟨flash, staged, row⟩ := exec_fwChunk accepted code some_ receiving offer next whole full.le
  dsimp only at row
  rw [if_neg full.not_lt, if_neg (by rw [unsigned]; decide)] at row
  obtain ⟨last, written, erased⟩ := State.putStaging_eq { s.advanceSeq se.id sl with flash } s.updBank []
  have written : State.putStaging { s.advanceSeq se.id sl with flash } (State.updBank { s.advanceSeq se.id sl with flash }) [] =
    { s.advanceSeq se.id sl with flash := last } := written
  rw [written] at row
  have same := SameButAnswer.refuse (State.setUpd { s.advanceSeq se.id sl with
    flash := last, boot := { (s.advanceSeq se.id sl).boot with offer := none } } .idle) se.id sl 0x6004 2
  have area : last.staging s.updBank = if s.bankProtected s.updBank then s.flash.staging s.updBank else [] := by
    refine erased.staging.trans ?_
    change (if s.bankProtected s.updBank then flash.staging s.updBank else []) = _
    split
    next protected_ => exact staged.staging.trans (if_pos protected_)
    next => rfl
  exact ⟨_, row, (congrArg (fun f => f.staging s.updBank) same.flash).trans area, congrArg Boot.upd same.boot,
    congrArg Boot.offer same.boot, State.responded_refuse (s := State.setUpd { s.advanceSeq se.id sl with
      flash := last, boot := { (s.advanceSeq se.id sl).boot with offer := none } } .idle) (State.session?_advanceSeq accepted) ..⟩

end

theorem exec_fwActivate_staged (code : sl.cmd = 0x62) (empty : sl.len = 0) (arg : sl.w 4 < 2) (staged : s.boot.upd = .staged)
    (running : s.boot.phase = .running) (unasked : s.resets.asked = none) : ∃ t, exec (.fwActivate sl) s = .next t ∧
    t.boot.upd = .armed ∧ (s.boot.ident = true → t.flash.control = some { s.bootCtl with armed := true, upd := 4 }) ∧
    t.resets.asked = (if sl.w 4 = 1 then some (0xB, s.now) else none) ∧ t.responded se.id sl 0 ∧ t.ctxs = s.ctxs ∧
    t.mem = s.mem := by
  have row : exec (.fwActivate sl) s = .next (State.fwActivate sl se (s.advanceSeq se.id sl)) :=
    exec_of_accepted accepted rfl (beq_iff_eq.mpr code)
  rw [State.fwActivate_of_staged (s := s.advanceSeq se.id sl) se empty arg staged running] at row
  obtain ⟨free, flash, written, ctl⟩ := (s.advanceSeq se.id sl).writeCtl_eq
    { (s.advanceSeq se.id sl).bootCtl with armed := true, upd := 4 }
  dsimp only at row
  rw [written] at row
  have same := SameButAnswer.answer (State.setUpd { s.advanceSeq se.id sl with free, flash } .armed) se.id sl 0 0 [] []
  have control (ident : s.boot.ident = true) := ctl.control ident (by rw [State.advanceSeq_boot, running]; decide)
  have responded := State.responded_answer (s := State.setUpd { s.advanceSeq se.id sl with free, flash } .armed) sl 0 0 [] []
    (State.session?_advanceSeq accepted)
  have asked := congrArg Resets.asked same.resets
  by_cases asks : sl.w 4 = 1
  · rw [if_pos asks] at row ⊢
    refine ⟨_, row, congrArg Boot.upd same.boot, fun ident => (congrArg Flash.control same.flash).trans (control ident), ?_,
      responded, same.ctxs, same.mem⟩
    exact (State.askReset_asked (asked.trans unasked) 0xB).trans (congrArg (fun now => some (0xB, now)) same.now)
  · rw [if_neg asks] at row ⊢
    exact ⟨_, row, congrArg Boot.upd same.boot, fun ident => (congrArg Flash.control same.flash).trans (control ident),
      asked.trans unasked, responded, same.ctxs, same.mem⟩

theorem exec_fwConfirm_trial (code : sl.cmd = 0x63) (empty : sl.len = 0) (trial : s.boot.upd = .trial) :
    ∃ t, exec (.fwConfirm sl) s = .next t ∧ t.boot.upd = .confirmed ∧ t.boot.trial = false ∧
    t.flash.rollback = (if s.mayRaise then max s.flash.rollback s.boot.sver else s.flash.rollback) ∧
    (s.boot.ident = true → s.boot.phase ≠ .recovery →
      t.flash.control = some { s.bootCtl with active := s.boot.bank, trial := false, upd := 6 }) ∧
    t.responded se.id sl 0 ∧ t.ctxs = s.ctxs ∧ t.mem = s.mem := by
  have row : exec (.fwConfirm sl) s = .next (State.fwConfirm sl se (s.advanceSeq se.id sl)) :=
    exec_of_accepted accepted rfl (beq_iff_eq.mpr code)
  obtain ⟨free, flash, sed, effect, rollback, control⟩ := State.fwConfirm_of_trial (s := s.advanceSeq se.id sl) se empty trial
  rw [effect] at row
  have same := SameButAnswer.answer { s.advanceSeq se.id sl with free, flash, sed, boot := { (s.advanceSeq se.id sl).boot with
    upd := .confirmed, trial := false } } se.id sl 0 0 [] []
  refine ⟨_, row, congrArg Boot.upd same.boot, congrArg Boot.trial same.boot,
    (congrArg Flash.rollback same.flash).trans rollback, fun ident booted =>
      (congrArg Flash.control same.flash).trans (control ident booted),
    State.responded_answer _ _ _ _ _ (State.session?_advanceSeq accepted), same.ctxs, same.mem⟩

end

/-- Settles O43: a write of a bank, of a staging area and of the boot control record is described once, and each command's
effect is one of them or two. -/
theorem firmwareCommandsUpdate : Obligations.FirmwareCommandsUpdate := by
  unfold Obligations.FirmwareCommandsUpdate
  refine ⟨fun s sl se accepted => ⟨?_, ?_, ?_, ?_, ?_⟩, ?_⟩
  · exact fun code len signs => exec_attest_signs accepted code len signs
  · exact fun code len ident _ idle size => ⟨exec_fwOffer_passed accepted code len size ident idle,
      fun _ _ fails => exec_fwOffer_refused accepted code len size ident idle fails⟩
  · exact fun h all code some_ receiving offer next whole =>
      ⟨exec_fwChunk_more accepted code some_ receiving offer next whole,
        exec_fwChunk_signed accepted code some_ receiving offer next whole,
        exec_fwChunk_unsigned accepted code some_ receiving offer next whole⟩
  · exact fun code empty arg staged running unasked => exec_fwActivate_staged accepted code empty arg staged running unasked
  · exact fun code empty trial => exec_fwConfirm_trial accepted code empty trial
  · intro s staged applying running area full
    have row := exec_fwApplyDone applying area full
    refine ⟨fun passes => ?_, fun fails => ?_⟩
    · rw [passes, Option.isSome_none, if_neg Bool.false_ne_true] at row
      have over_ := UpdateOver.stageImage (s.putBank s.updBank (.image staged)) staged
      obtain ⟨bank, other, rollback, ctxs, mem⟩ := over_.banks
      have updBank : s.updBank = 1 - s.boot.bank := if_neg (by rw [running]; decide)
      exact ⟨_, row, over_.upd, over_.offer, bank, fun two => other _ (by omega), rollback, ctxs, mem⟩
    · rw [if_pos fails] at row
      have over_ := UpdateOver.applyFailed (s.putBank s.updBank (.image staged)) 0x6004 3
      obtain ⟨bank, -, rollback, ctxs, mem⟩ := over_.banks
      exact ⟨_, row, over_.upd, over_.offer, bank, rollback, ctxs, mem⟩

end Sys2Proof.Machine
end


section
/-! PROOFS. The state after reset (R218, R322, R328, R330, R380, R434, R459). -/

namespace Sys2Proof.Machine

/-- Settles O3: no byte is written yet. -/
theorem resetMemoryIsCanonical : Obligations.ResetMemoryIsCanonical := by
  unfold Obligations.ResetMemoryIsCanonical
  exact Memory.wf_nil

/-- Among codes that are configured alike, a code is found exactly when it is one of them. -/
theorem find?_configured {cfg : Nat → CodeCfg} (code : ∀ k, (cfg k).code = k) (codes : List Nat) (c : Nat) :
    ((codes.map cfg).find? fun x => x.code == c) = if c ∈ codes then some (cfg c) else none := by
  induction codes with
  | nil => rfl
  | cons k codes ih =>
    rw [List.map_cons, List.find?_cons, code, ih]
    by_cases same : k = c
    · simp [same]
    · simp [beq_eq_false_iff_ne.mpr same, Ne.symm same]

/-- The configuration of R434. -/
theorem State.codeCfg_reset (c : Nat) : State.reset.codeCfg c =
    if c = 0x2101 ∨ c = 0x2201 then { code := c, rate := true, burst := 32, p := 10, set := 0 }
    else if c = 0x3101 ∨ c = 0x3107 ∨ c = 0x3108 then { code := c, rate := true, burst := 16, p := 8, set := 0 }
    else if c = 0x1001 ∨ c = 0x1002 ∨ c = 0x1003 then { code := c, rate := true, burst := 8, p := 12, set := 0 }
    else { code := c, rate := false, burst := 1, p := 0, set := if c = 0x1101 ∨ c = 0x1103 then 1 else 0 } := by
  change (Sed.defaults.find? fun x => x.code == c).getD { code := c, rate := false, burst := 1, p := 0, set := 0 } = _
  have found := fun cfg code codes => find?_configured (cfg := cfg) code codes c
  rw [Sed.defaults, List.find?_append, List.find?_append, List.find?_append, found _ fun _ => rfl, found _ fun _ => rfl,
    found _ fun _ => rfl, found _ fun _ => rfl]
  simp only [List.mem_cons, List.not_mem_nil, or_false]
  split_ifs <;> rfl

/-- Settles O2: every port is the same initial one, and each group of configured codes is looked up as a whole. -/
theorem resetLeavesTheStatedValues : Obligations.ResetLeavesTheStatedValues := by
  unfold Obligations.ResetLeavesTheStatedValues
  refine ⟨memRead_nil, rfl, rfl, fun p hp => ?_, rfl, rfl, rfl, rfl, State.codeCfg_reset⟩
  have port : State.reset.ports[p]? = some Port.init := List.getElem?_replicate_of_lt hp
  rw [port]
  rfl

end Sys2Proof.Machine
end


section
/-! PROOFS. That ENGINE_RESET leaves memory as it was fails for a copy engine in `fillingState`, as RESET_REQ of its level does
there (R234, R378). -/

namespace Sys2Proof.Machine

/-- The reset of copy engine 0 fails the fill that runs on it, and the home page's byte comes to stand in the resident page,
which context 0 takes at once. -/
theorem memRead_resetEngine_fillingState :
    memRead (fillingState.resetEngine (.copy 0) 1).mem (pageAddr 0) = 1 := by decide +kernel

/-- Refutes O56: in `fillingState` the reset of copy engine 0 changes memory. -/
theorem not_enginesAreResetAndReturn : ¬ Obligations.EnginesAreResetAndReturn := by
  unfold Obligations.EnginesAreResetAndReturn
  intro h
  obtain ⟨starts, -⟩ := h fillingState (.copy 0) (by decide +kernel)
  obtain ⟨t, run, -, -, -, -, kept, -⟩ := starts 1 rfl rfl rfl (by decide)
  obtain rfl : fillingState.resetEngine (.copy 0) 1 = t := Host.Outcome.next.inj run
  have byte := memRead_resetEngine_fillingState
  rw [kept, memRead_fillingState] at byte
  exact absurd byte (by decide)

end Sys2Proof.Machine
end


section
/-! PROOFS. The log's writer (R428 to R433, R437, R439, R440): how it makes room, what a new record brings, and how the buckets of
the two flood modes change. -/

namespace Sys2Proof.Machine

/-! ## Room in the ring (R440) -/

theorem dropOldest_subset {p : SedRec → Bool} {l k : List SedRec} (h : dropOldest p l = some k) : k ⊆ l := by
  induction l generalizing k with
  | nil => cases h
  | cons r rs ih =>
    unfold dropOldest at h
    split at h
    · cases h
      exact fun x hx => List.mem_cons_of_mem r (List.drop_subset r.exts rs hx)
    · obtain ⟨later, dropped, rfl⟩ := Option.map_eq_some_iff.mp h
      exact List.cons_subset_cons r (ih dropped)

/-- The log goes on: a record in the ring is an old one or has a later sequence, and the flood handling of every code stands as it
stood. -/
structure Sed.Continues (a b : Sed) : Prop where
  ring : ∀ r ∈ b.ring, r ∈ a.ring ∨ a.nextSeq ≤ r.seq
  nextSeq : a.nextSeq ≤ b.nextSeq
  suppressed : b.suppressed = a.suppressed
  buckets : b.buckets = a.buckets
  cfgs : b.cfgs = a.cfgs

namespace Sed.Continues

variable {a b c : Sed}

theorem refl (a : Sed) : a.Continues a := ⟨fun _ h => .inl h, le_rfl, rfl, rfl, rfl⟩

theorem trans (h : a.Continues b) (k : b.Continues c) : a.Continues c where
  ring r hr := by
    rcases k.ring r hr with old | new
    · exact h.ring r old
    · exact .inr (h.nextSeq.trans new)
  nextSeq := h.nextSeq.trans k.nextSeq
  suppressed := k.suppressed.trans h.suppressed
  buckets := k.buckets.trans h.buckets
  cfgs := k.cfgs.trans h.cfgs

theorem of_makeRoom {n sev fuel : Nat} (h : makeRoom n sev fuel a = some b) : a.Continues b := by
  induction fuel generalizing a with
  | zero => cases h
  | succ fuel ih =>
    have without {ring : List SedRec} {lostPending lost : Nat} (fewer : ring ⊆ a.ring) :
        a.Continues { a with ring, lostPending, lost } := ⟨fun _ h => .inl (fewer h), le_rfl, rfl, rfl, rfl⟩
    unfold makeRoom at h
    dsimp only at h
    split at h
    · cases h
      exact refl _
    · split at h
      · next flushed => exact (without (dropOldest_subset flushed)).trans (ih h)
      · split at h
        · cases h
        · split at h
          · next dropped =>
            refine (without ?_).trans (ih h)
            rcases (Option.orElse_eq_some ..).mp dropped with low | ⟨-, dropped⟩
            · exact dropOldest_subset low
            · rcases (Option.orElse_eq_some ..).mp dropped with middle | ⟨-, high⟩
              · exact dropOldest_subset middle
              · exact dropOldest_subset high
          · cases h

end Sed.Continues

/-! ## New records (R425, R437, R440) -/

/-- A record of an event, with its code, source, detail and context, that stands for one occurrence. -/
structure SedRec.Of (ev : Event) (r : SedRec) : Prop where
  code : r.code = ev.code
  src : r.src = ev.src
  detail : r.detail = ev.detail
  ctx : r.ctx = ev.ctx
  rep : r.rep = 1

/-- The ring gains the event's record and its extension records, whose sequences no record of it has yet. -/
theorem State.appendRec_ring (s : State) (sd : Sed) (ev : Event) (set supp : Nat) (words : List Nat) (partBit : Bool) :
    (∀ r ∈ (s.appendRec sd ev set supp words partBit).sed.ring, r ∈ sd.ring ∨ sd.nextSeq ≤ r.seq) ∧
    ∃ r ∈ (s.appendRec sd ev set supp words partBit).sed.ring, r.seq = sd.nextSeq ∧ r.Of ev := by
  refine ⟨fun r hr => ?_, _, List.mem_append_right _ List.mem_cons_self, rfl, rfl, rfl, rfl, rfl, rfl⟩
  rcases List.mem_append.mp hr with old | new
  · exact .inl old
  · rcases List.mem_cons.mp new with rfl | extension
    · exact .inr le_rfl
    · obtain ⟨i, -, rfl⟩ := List.mem_map.mp extension
      exact .inr (by show sd.nextSeq ≤ sd.nextSeq + 1 + i; omega)

theorem Sed.Continues.appendRec (s : State) (sd : Sed) (ev : Event) (set supp : Nat) (words : List Nat) (partBit : Bool) :
    sd.Continues (s.appendRec sd ev set supp words partBit).sed where
  ring := (s.appendRec_ring sd ev set supp words partBit).1
  nextSeq := by show sd.nextSeq ≤ sd.nextSeq + 1 + _; omega
  suppressed := rfl
  buckets := rfl
  cfgs := rfl

theorem Sed.Continues.writeLost (s : State) : s.sed.Continues s.writeLost.sed := by
  unfold State.writeLost
  split
  · exact refl _
  · split
    · next sd room =>
      have made := of_makeRoom room
      have counted : sd.Continues { sd with lostPending := 0 } := ⟨fun _ h => .inl h, le_rfl, rfl, rfl, rfl⟩
      exact (made.trans counted).trans (appendRec s { sd with lostPending := 0 } ..)
    · exact refl _

/-- An event is written as a new record, or, when it is of low severity, lost with its code's count of suppressed events kept
for the next record (R440). -/
theorem State.writeRec_cases {s t : State} {ev : Event} {supp : Nat} (h : s.writeRec ev supp = some t) :
    (∃ sd set words partBit, s.sed.Continues sd ∧ t.sed = (s.writeLost.appendRec sd ev set supp words partBit).sed) ∨
    severity ev.code < 5 ∧ s.sed.Continues { t.sed with buckets := s.sed.buckets } ∧
      t.sed.buckets = s.writeLost.withSupp ev.code supp ∧ t.sed.lostPending ≠ 0 := by
  have continues := Sed.Continues.writeLost s
  unfold State.writeRec at h
  dsimp only at h
  split at h
  · next sd room =>
    cases h
    exact .inl ⟨sd, _, _, _, continues.trans (.of_makeRoom room), rfl⟩
  · split at h
    · next low =>
      cases h
      refine .inr ⟨low, ⟨continues.ring, continues.nextSeq, continues.suppressed, rfl, continues.cfgs⟩, rfl,
        Nat.succ_ne_zero _⟩
    · cases h

/-! ## Buckets (R432) -/

theorem State.bucket_code (s : State) (code : Nat) : (s.bucket code).code = code := by
  unfold State.bucket
  cases found : s.sed.buckets.find? fun b => b.code == code with
  | none => rfl
  | some b => exact beq_iff_eq.mp (List.find?_some (p := fun b : Bucket => b.code == code) found)

/-- A code's bucket depends on the log's buckets and configuration alone. -/
theorem State.bucket_congr {s t : State} (buckets : t.sed.buckets = s.sed.buckets) (cfgs : t.sed.cfgs = s.sed.cfgs) (k : Nat) :
    t.bucket k = s.bucket k := by
  rw [State.bucket, State.bucket, State.codeCfg, State.codeCfg, buckets, cfgs]

theorem State.bucket_setBucket (s : State) (b : Bucket) (k : Nat) :
    (s.setBucket b).bucket k = if k = b.code then b else s.bucket k := by
  have found : ((s.setBucket b).sed.buckets.find? fun x => x.code == k) =
      if k = b.code then some b else s.sed.buckets.find? fun x => x.code == k := by
    change List.find? _ (s.sed.buckets.filter (fun x => x.code != b.code) ++ [b]) = _
    rw [List.find?_append, List.find?_filter, List.find?_singleton]
    by_cases same : k = b.code
    · rw [List.find?_eq_none.mpr fun x _ => by simp [same]]
      simp [same]
    · have other : (fun x : Bucket => decide ((x.code != b.code) = true ∧ (x.code == k) = true)) = fun x => x.code == k := by
        funext x
        by_cases it : x.code = k
        · simp [it, same]
        · simp [it]
      rw [other]
      simp [same, Ne.symm same]
  unfold State.bucket
  rw [found]
  split
  · rfl
  · rfl

/-! ## What a record's writing leaves -/

section
variable {s t : State} {ev : Event} {supp : Nat}

theorem State.writeRec_continues (h : s.writeRec ev supp = some t) :
    s.sed.Continues { t.sed with buckets := s.sed.buckets } := by
  rcases State.writeRec_cases h with ⟨sd, set, words, partBit, continues, written⟩ | ⟨-, continues, -⟩
  · have appended := continues.trans (.appendRec s.writeLost sd ev set supp words partBit)
    rw [written]
    exact ⟨appended.ring, appended.nextSeq, appended.suppressed, rfl, appended.cfgs⟩
  · exact continues

/-- The buckets change for the count of a code's suppressed events alone, where the event that was to carry it is lost. -/
theorem State.writeRec_buckets (h : s.writeRec ev supp = some t) :
    t.sed.buckets = s.sed.buckets ∨ t.sed.buckets = s.writeLost.withSupp ev.code supp := by
  rcases State.writeRec_cases h with ⟨sd, set, words, partBit, continues, written⟩ | ⟨-, -, lost, -⟩
  · rw [written]
    exact .inl (continues.trans (.appendRec s.writeLost sd ev set supp words partBit)).buckets
  · exact .inr lost

theorem State.writeRec_buckets_zero (h : s.writeRec ev 0 = some t) : t.sed.buckets = s.sed.buckets := by
  rcases State.writeRec_buckets h with same | lost
  · exact same
  · exact lost.trans (Sed.Continues.writeLost s).buckets

theorem State.writeRec_tokens (h : s.writeRec ev supp = some t) (k : Nat) : (t.bucket k).tokens = (s.bucket k).tokens := by
  have cfgs : t.sed.cfgs = s.sed.cfgs := (State.writeRec_continues h).cfgs
  rcases State.writeRec_buckets h with same | lost
  · rw [State.bucket_congr same cfgs]
  · have before := Sed.Continues.writeLost s
    have kept (k : Nat) : s.writeLost.bucket k = s.bucket k := State.bucket_congr before.buckets before.cfgs k
    unfold State.withSupp at lost
    split at lost
    · rw [State.bucket_congr (lost.trans before.buckets) cfgs]
    · rw [State.bucket_congr lost (cfgs.trans before.cfgs.symm), State.bucket_setBucket, kept, kept, State.bucket_code]
      split
      · next it => rw [it]
      · rfl

/-- The event stands in the ring as a record of its own, unless it is of low severity and lost. -/
theorem State.writeRec_new (h : s.writeRec ev supp = some t) (room : 5 ≤ severity ev.code ∨ t.sed.lostPending = 0) :
    ∃ r ∈ t.sed.ring, s.sed.nextSeq ≤ r.seq ∧ r.Of ev := by
  rcases State.writeRec_cases h with ⟨sd, set, words, partBit, continues, written⟩ | ⟨low, -, -, lost⟩
  · obtain ⟨-, r, among, seq, of⟩ := s.writeLost.appendRec_ring sd ev set supp words partBit
    exact ⟨r, written ▸ among, continues.nextSeq.trans seq.ge, of⟩
  · rcases room with high | none_
    · omega
    · exact absurd none_ lost

end

/-! ## The two flood modes (R430 to R433) -/

section
variable {s t : State} {ev : Event}

theorem State.writeEvent_of_exempt (exempt : floodExempt ev.code = true) : s.writeEvent ev = s.writeRec ev 0 := by
  rw [State.writeEvent, if_pos exempt]

theorem State.writeEvent_of_repeat (exempt : floodExempt ev.code = false) (mode : (s.codeCfg ev.code).rate = false)
    (h : s.writeEvent ev = some t) : (∃ ring, t = { s with sed := { s.sed with ring, lastFold := s.now } }) ∨
      s.writeRepeat ev = some t := by
  simp only [State.writeEvent, exempt, mode, Bool.false_eq_true, if_false] at h
  split at h
  · split at h
    · cases h
      exact .inl ⟨_, rfl⟩
    · exact .inr h
  · exact .inr h

theorem State.writeEvent_of_rate (exempt : floodExempt ev.code = false) (mode : (s.codeCfg ev.code).rate = true)
    (h : s.writeEvent ev = some t) : t.sed.ring = s.sed.ring ∨
      ∃ b supp, (s.setBucket b).writeRec ev supp = some t := by
  simp only [State.writeEvent, exempt, mode, Bool.false_eq_true, if_false, if_true] at h
  split at h
  · cases h
    exact .inl rfl
  · exact .inr ⟨_, _, h⟩

/-- A code in repeat mode is written with what its rate limit suppressed before its configuration changed, and no bucket loses
a token by that (R432). -/
theorem State.writeRepeat_keeps_flood (h : s.writeRepeat ev = some t) : t.sed.suppressed = s.sed.suppressed ∧
    ∀ k, (t.bucket k).tokens = (s.bucket k).tokens := by
  unfold State.writeRepeat at h
  dsimp only at h
  split at h
  · exact ⟨(State.writeRec_continues h).suppressed, State.writeRec_tokens h⟩
  · refine ⟨(State.writeRec_continues h).suppressed, fun k => ?_⟩
    rw [State.writeRec_tokens h, State.bucket_setBucket, State.bucket_code]
    split
    · next it => rw [it]
    · rfl

end

/-- Settles O59: a record that is written lies behind every record that stands, and only a bucket without a token suppresses. -/
theorem floodModesKeepTheirPromises : Obligations.FloodModesKeepTheirPromises := by
  unfold Obligations.FloodModesKeepTheirPromises
  intro s t ev h
  refine ⟨fun mode => ?_, fun mode r hr => ?_, fun group => ?_⟩
  · cases exempt : floodExempt ev.code with
    | true =>
      rw [State.writeEvent_of_exempt exempt] at h
      exact ⟨(State.writeRec_continues h).suppressed, State.writeRec_tokens h⟩
    | false =>
      rcases State.writeEvent_of_repeat exempt mode h with ⟨ring, rfl⟩ | written
      · exact ⟨rfl, fun _ => rfl⟩
      · exact State.writeRepeat_keeps_flood written
  · cases exempt : floodExempt ev.code with
    | true =>
      rw [State.writeEvent_of_exempt exempt] at h
      exact (State.writeRec_continues h).ring r hr
    | false =>
      rcases State.writeEvent_of_rate exempt mode h with same | ⟨b, supp, written⟩
      · exact .inl (same ▸ hr)
      · exact (State.writeRec_continues written).ring r hr
  · have exempt : floodExempt ev.code = true := by simpa [floodExempt] using group
    rw [State.writeEvent_of_exempt exempt] at h
    have continues := State.writeRec_continues h
    refine ⟨continues.suppressed, State.writeRec_buckets_zero h, continues.ring, fun room => ?_⟩
    obtain ⟨r, among, later, of⟩ := State.writeRec_new h room
    exact ⟨r, among, later, of.code, of.src, of.detail, of.ctx, of.rep⟩

end Sys2Proof.Machine
end


section
/-! PROOFS. SED_EVENT_POST, SED_RECORD_WRITE, SED_RECORD_CLOSE, SED_TOKEN_REFILL and SED_FLUSH (R425, R426, R428, R431, R432,
R439). -/

namespace Sys2Proof.Machine

/-! ## An event reaches the writer (R428) -/

/-- Below the 960 places that events of low severity may take, the writer accepts whatever its source has. -/
theorem State.postEvent_of_room {s : State} {src : Nat} {ev : Event} (waits : s.sed.bus.find? (fun e => e.src == src) = some ev)
    (room : s.sed.queue.length < 960) :
    s.postEvent src = { s with sed := { s.sed with bus := s.sed.bus.erase ev, queue := s.sed.queue ++ [ev] } } := by
  have few := List.length_filter_le (fun e => decide (severity e.code < 5)) s.sed.queue
  have lowHeld : decide (960 ≤ (s.sed.queue.filter fun e => decide (severity e.code < 5)).length) = false :=
    decide_eq_false (by omega)
  have free : ¬ 1024 ≤ s.sed.queue.length := by omega
  simp only [State.postEvent, waits, lowHeld, decide_eq_false free, Bool.or_self, Bool.and_false, Bool.false_eq_true, if_false,
    if_neg free]

/-! ## The oldest event is written (R425, R431) -/

theorem exec_sedRecordWrite {s t : State} {ev : Event} {q : List Event} (front : s.sed.queue = ev :: q)
    (written : State.writeEvent { s with sed := { s.sed with queue := q } } ev = some t) : exec .sedRecordWrite s = .next t := by
  change execSedRecordWrite s = _
  simp only [execSedRecordWrite, front, written]

theorem makeRoom_of_fits {n sev fuel : Nat} {sd : Sed} (fits : sd.ring.length + n ≤ 65536) :
    makeRoom n sev (fuel + 1) sd = some sd := by
  rw [makeRoom, if_pos fits]

/-- The record of an event with no words to show (R425). -/
def State.plainRec (s : State) (ev : Event) (supp : Nat) : SedRec :=
  { code := ev.code, sev := severity ev.code, src := ev.src, rep := 1, detail := ev.detail, time := s.opMs / 1000,
    pcc := s.flash.pcc, seq := s.sed.nextSeq, ctx := ev.ctx, flags := 0, snap := eightWords [], supp := min 0xFFFF supp, span := 0 }

/-- An event without words of its own and without a snapshot set takes one place of the ring. -/
theorem State.writeRec_of_fits {s : State} {ev : Event} (set : (s.codeCfg ev.code).set = 0) (words : ev.words = [])
    (config : ev.code ≠ 0x31) (noneLost : s.sed.lostPending = 0) (fits : s.sed.ring.length < 65536) (supp : Nat) :
    s.writeRec ev supp = some { s with sed := { s.sed with
      ring := s.sed.ring ++ [s.plainRec ev supp], nextSeq := s.sed.nextSeq + 1, openRec := true, lastFold := s.now,
      written := satAdd 0xFFFFFFFF s.sed.written 1 } } := by
  have one : extensions ev.code 0 = 0 := if_pos ⟨config, Nat.zero_le 8⟩
  have lost : s.writeLost = s := if_pos noneLost
  have room : makeRoom 1 (severity ev.code) 65536 s.sed = some s.sed := makeRoom_of_fits (fuel := 65535) (by omega)
  simp only [State.writeRec, if_neg config, set, words, if_true, List.length_nil, one, lost, Nat.add_zero, room,
    State.appendRec]
  rfl

/-- An event that folds into the open record is counted there (R431). -/
theorem State.writeEvent_of_folds {s : State} {ev : Event} {r : SedRec} (exempt : floodExempt ev.code = false)
    (mode : (s.codeCfg ev.code).rate = false) (newest : s.sed.ring.getLast? = some r) (isOpen : s.recOpen = true)
    (folds : r.folds ev = true) : ∃ span, s.writeEvent ev = some { s with sed := { s.sed with
      ring := s.sed.ring.dropLast ++ [{ r with rep := r.rep + 1, span }], lastFold := s.now } } := by
  simp only [State.writeEvent, exempt, mode, newest, isOpen, folds, Bool.and_self, Bool.false_eq_true, if_false, if_true]
  exact ⟨_, rfl⟩

/-! ## A record closes, a bucket gains a token (R431, R432) -/

theorem exec_sedRecordClose {s : State} (isOpen : s.sed.openRec = true) : exec .sedRecordClose s =
    .next { s.advanceTo (s.sed.lastFold + 1000000) with
      sed := { (s.advanceTo (s.sed.lastFold + 1000000)).sed with openRec := false } } := if_pos isOpen

/-- A code's bucket with one token more, from the moment that it was due. -/
def State.oneToken (s : State) (code : Nat) : Bucket :=
  let b := s.bucket code
  { b with tokens := b.tokens + 1, since := b.since + 2 ^ (s.codeCfg code).p * 1000 }

theorem exec_sedTokenRefill {s : State} {code : Nat} (mode : (s.codeCfg code).rate = true)
    (short : (s.bucket code).tokens < (s.codeCfg code).burst) : exec (.sedTokenRefill code) s =
      .next ((s.advanceTo (s.oneToken code).since).setBucket (s.oneToken code)) := by
  refine if_pos ?_
  rw [mode, decide_eq_true short]
  rfl

/-! ## The log is flushed (R439) -/

/-- A flush changes the flash ring, which holds no more than its places, and finds one for every record of a whole ring. -/
theorem exec_sedFlush (s : State) : ∃ flash, exec .sedFlush s = .next { s with sed := { s.sed with
      flash, flushed := s.sed.nextSeq, openRec := false, savedMs := s.opMs } } ∧ flash.length ≤ 262144 ∧
    (s.sed.ring.length ≤ 65536 → ∀ r ∈ s.sed.ring, s.sed.flushed ≤ r.seq → r ∈ flash) := by
  refine ⟨_, rfl, ?_, fun fits r among fresh => ?_⟩
  · rw [List.length_drop]
    omega
  · have short : (s.sed.ring.filter fun r => decide (s.sed.flushed ≤ r.seq)).length ≤ 65536 :=
      (List.length_filter_le ..).trans fits
    rw [List.drop_append_of_le_length (by rw [List.length_append]; omega)]
    exact List.mem_append_right _ (List.mem_filter.mpr ⟨among, decide_eq_true fresh⟩)

/-- Settles O51: every row is one update of the log, and the two that wait let time pass first. -/
theorem theLogRecordsEvents : Obligations.TheLogRecordsEvents := by
  unfold Obligations.TheLogRecordsEvents
  intro s
  refine ⟨?_, ?_, ?_, ?_, ?_, ?_⟩
  · exact fun src ev waits room => congrArg Host.Outcome.next (State.postEvent_of_room waits room)
  · intro ev q front exempt set words config noneLost fits
    have written := State.writeRec_of_fits (s := { s with sed := { s.sed with queue := q } }) set words config noneLost fits 0
    have row := exec_sedRecordWrite front ((State.writeEvent_of_exempt exempt).trans written)
    exact ⟨_, s.plainRec ev 0, row, rfl, rfl, rfl, rfl, rfl, rfl, rfl, rfl, rfl, rfl, rfl, rfl, rfl, rfl, rfl⟩
  · intro ev q r front exempt mode newest isOpen folds
    obtain ⟨span, written⟩ := State.writeEvent_of_folds (s := { s with sed := { s.sed with queue := q } }) exempt mode newest
      isOpen folds
    have some_ : 0 < s.sed.ring.length := List.length_pos_of_mem (List.mem_of_getLast? newest)
    refine ⟨_, exec_sedRecordWrite front written, rfl, rfl, ?_, ?_, ?_, rfl, rfl⟩
    · change (s.sed.ring.dropLast ++ [_]).length = _
      rw [List.length_append, List.length_dropLast, List.length_singleton]
      omega
    · change (s.sed.ring.dropLast ++ [_]).getLast?.map SedRec.rep = _
      rw [List.getLast?_concat]
      rfl
    · exact List.dropLast_concat
  · intro isOpen
    obtain ⟨ctxs, now, passed, due⟩ := s.advanceTo_eq (s.sed.lastFold + 1000000)
    have row := exec_sedRecordClose isOpen
    rw [passed] at row
    exact ⟨_, row, rfl, rfl, due, rfl, rfl⟩
  · intro code mode short
    obtain ⟨ctxs, now, passed, -⟩ := s.advanceTo_eq (s.oneToken code).since
    have row := exec_sedTokenRefill mode short
    rw [passed] at row
    have own : (s.oneToken code).code = code := s.bucket_code code
    have buckets (k : Nat) := State.bucket_setBucket { s with ctxs, now } (s.oneToken code) k
    rw [own] at buckets
    have self := (buckets code).trans (if_pos rfl)
    exact ⟨_, row, (congrArg Bucket.tokens self :), (congrArg Bucket.supp self :), (congrArg Bucket.since self :),
      fun k other => (buckets k).trans (if_neg other), rfl, rfl⟩
  · obtain ⟨flash, row, short, whole⟩ := exec_sedFlush s
    exact ⟨_, row, rfl, rfl, rfl, rfl, short, whole, rfl, rfl⟩

end Sys2Proof.Machine
end


section
/-! PROOFS. Power states of units (R462 to R464): how a unit enters one, reaches it, and wakes from it. -/

namespace Sys2Proof.Machine

/-! ## A unit's power record -/

@[simp] theorem State.unit_setUnit_self (s : State) (p : Nat) (u : UnitPower) : (s.setUnit p u).unit p = u :=
  getKey_setKey_self ..

@[simp] theorem State.unit_advanceTo (s : State) (t p : Nat) : (s.advanceTo t).unit p = s.unit p := by
  obtain ⟨ctxs, now, passed, -⟩ := s.advanceTo_eq t
  rw [passed]
  rfl

/-- Time passes up to a moment that is not over yet. -/
theorem State.advanceTo_now {s : State} {t : Nat} (later : s.now ≤ t) : (s.advanceTo t).now = t := by
  unfold State.advanceTo
  split
  · next past => exact le_antisymm later past
  · rfl

/-! ## Entering a state (R463, R464) -/

/-- The state that a unit's idle time or its prediction allows. -/
def State.powerTarget (s : State) (p : Nat) : Nat := deepest ((s.nextT p).getD (s.idleT p))

/-- The power record of a unit that may go to a state: the request waits for a wake in progress, and else the entry begins. -/
def UnitPower.request (u : UnitPower) (target now : Nat) : UnitPower :=
  if u.waking then { u with shutPending := some target } else { u with entering := some (target, now) }

section
variable {s : State} {p : Nat} (named : powerUnit p = true)
include named

theorem exec_powerStateEnter (deeper : (s.unit p).depth < s.powerTarget p) (still : (s.unit p).entering = none)
    (may : s.mayPower p (s.powerTarget p) = true) :
    exec (.powerStateEnter p) s = .next (s.setUnit p ((s.unit p).request (s.powerTarget p) s.now)) := by
  change execPowerStateEnter p s = _
  unfold State.powerTarget at deeper may
  simp only [execPowerStateEnter, named, decide_eq_false (Nat.not_le.mpr deeper), still, may, State.powerTarget,
    UnitPower.request]
  cases (s.unit p).waking <;> rfl

/-! ## The enable (R464) -/

theorem exec_powerEnable : exec (.powerEnable p) s = .next (s.enable p) := if_pos named

theorem exec_powerWake {d : Nat} (still : (s.unit p).entering = none) (next : s.nextT p = some d) :
    exec (.powerWake p) s = .next ((s.advanceTo (s.now + (d / 10 - wakeUs (s.unit p).state))).enable p) := by
  change execPowerWake p s = _
  simp only [execPowerWake, next, named, still]
  rfl

end

section
variable {s : State} {p : Nat}

/-- An entry whose clock has stopped goes on, and the enable waits for its end. -/
theorem State.enable_of_stopped {st start : Nat} (entering : (s.unit p).entering = some (st, start))
    (stopped : clockStopped st (s.now - start) = true) : s.enable p = s.setUnit p { s.unit p with wakePending := true } := by
  simp only [State.enable, entering, stopped, if_true]

/-- An earlier enable calls the entry off. -/
theorem State.enable_of_entering {st start : Nat} (entering : (s.unit p).entering = some (st, start))
    (early : clockStopped st (s.now - start) = false) :
    s.enable p = s.setUnit p { s.unit p with state := 0, entering := none, idleSince := s.now } := by
  simp only [State.enable, entering, early, Bool.false_eq_true, if_false]

theorem State.enable_of_down (still : (s.unit p).entering = none) (down : (s.unit p).state ≠ 0)
    (asleep : (s.unit p).waking = false) : s.enable p = s.setUnit p { s.unit p with waking := true } := by
  simp only [State.enable, still]
  exact if_pos ⟨down, by rw [asleep]; rfl⟩

/-! ## An entry and a wake end (R464) -/

theorem exec_powerStateReached {st start : Nat} (entering : (s.unit p).entering = some (st, start)) :
    exec (.powerStateReached p) s = .next ((s.advanceTo (start + reachUs st)).setUnit p
      { s.unit p with state := st, entering := none, waking := (s.unit p).wakePending, wakePending := false }) := by
  change execPowerStateReached p s = _
  simp only [execPowerStateReached, entering, State.unit_advanceTo]

theorem exec_powerWakeDone (waking : (s.unit p).waking = true) : exec (.powerWakeDone p) s = .next (s.setUnit p
    { state := 0, entering := (s.unit p).shutPending.map fun t => (t, s.now), waking := false, wakePending := false,
      shutPending := none, idleSince := s.now }) := if_pos waking

end

/-- Settles O48: each row replaces the unit's own record, once the time that it takes has passed. -/
theorem unitsChangePowerState : Obligations.UnitsChangePowerState := by
  unfold Obligations.UnitsChangePowerState
  intro s p named
  refine ⟨?_, ?_, ?_, ?_⟩
  · exact fun deeper still may => ⟨_, exec_powerStateEnter named deeper still may, rfl, rfl, rfl, State.unit_setUnit_self ..⟩
  · intro st start entering
    refine ⟨?_, s.enable p, exec_powerEnable named, ?_⟩
    · obtain ⟨ctxs, now, passed, due⟩ := s.advanceTo_eq (start + reachUs st)
      have row := exec_powerStateReached entering
      rw [passed] at row
      have own (u : UnitPower) := State.unit_setUnit_self { s with ctxs, now } p u
      exact ⟨_, row, congrArg UnitPower.state (own _), congrArg UnitPower.entering (own _), congrArg UnitPower.waking (own _),
        due, rfl⟩
    · cases stopped : clockStopped st (s.now - start) with
      | true =>
        rw [State.enable_of_stopped entering stopped]
        exact ⟨rfl, rfl, fun _ => State.unit_setUnit_self .., nofun⟩
      | false =>
        rw [State.enable_of_entering entering stopped]
        exact ⟨rfl, rfl, nofun, fun _ => by simp⟩
  · intro still down asleep
    have enabled {t : State} (same : t.unit p = s.unit p) : t.enable p = t.setUnit p { s.unit p with waking := true } := by
      rw [← same]
      exact State.enable_of_down (same ▸ still) (same ▸ down) (same ▸ asleep)
    refine ⟨⟨_, exec_powerEnable named, ?_⟩, fun d next => ⟨_, exec_powerWake named still next, ?_⟩⟩
    · rw [enabled rfl]
      exact ⟨State.unit_setUnit_self .., rfl, rfl⟩
    · rw [enabled (State.unit_advanceTo ..)]
      exact ⟨State.unit_setUnit_self .., State.advanceTo_now (by omega), State.advanceTo_mem ..⟩
  · intro waking
    exact ⟨_, exec_powerWakeDone waking, by simp⟩

end Sys2Proof.Machine
end


section
/-! PROOFS. POWER_POLICY, and ports that go OFF below 1,600 W and return (R459, R465). -/

namespace Sys2Proof.Machine

/-! ## Answers leave the power settings (R331) -/

/-- An answer changes of the power record the in-band interrupts alone. -/
theorem State.answer_power (s : State) (id : Nat) (sl : Slot) (status detail : Nat) (words : List (Nat × Nat))
    (payload : List Byte) : ∃ ibi, (s.answer id sl status detail words payload).power = { s.power with ibi } := by
  unfold State.answer
  split
  · exact ⟨s.power.ibi, rfl⟩
  · dsimp only
    split
    · exact ⟨_, rfl⟩
    · exact ⟨s.power.ibi, rfl⟩

/-! ## POWER_POLICY (R459) -/

/-- The settings of the firmware that runs (R406). -/
def State.settings (s : State) : Settings := if s.boot.bank = 0 then s.flash.setA else s.flash.setB

theorem State.settings_mapSettings {s : State} (running : s.boot.phase = .running) (f : Settings → Settings) :
    (s.mapSettings f).settings = f s.settings := by
  unfold State.mapSettings State.settings
  rw [if_neg (not_not.mpr running)]
  split <;> rfl

theorem State.returnAll_eq (s : State) : ∃ ports, s.returnAll = { s with ports } :=
  List.foldlRecOn (motive := fun t : State => ∃ ports, t = { s with ports }) _ _ ⟨s.ports, rfl⟩ fun t ht p _ => by
    obtain ⟨ports, rfl⟩ := ht
    exact ⟨_, rfl⟩

/-- A limit and a cap within their ranges are in force, and in the settings of the firmware that runs. -/
theorem State.powerPolicy_of_range {s : State} {sl : Slot} (se : Session) (empty : sl.len = 0) (limit : 800 ≤ sl.w 4 ∧ sl.w 4 ≤ 3200)
    (cap : 250 ≤ sl.w 5 ∧ sl.w 5 ≤ 2000) : ∃ flash ports power,
    State.powerPolicy sl se s = State.ok { s with flash, ports, power } se.id sl ∧ power.limitW = sl.w 4 ∧ power.capMhz = sl.w 5 ∧
      (s.boot.phase = .running → State.settings { s with flash } = { s.settings with limitW := sl.w 4, capMhz := sl.w 5 }) := by
  obtain ⟨flash, set⟩ := s.mapSettings_eq fun x => { x with limitW := sl.w 4, capMhz := sl.w 5 }
  have settings (running : s.boot.phase = .running) :
      State.settings { s with flash } = { s.settings with limitW := sl.w 4, capMhz := sl.w 5 } := by
    rw [← set, State.settings_mapSettings running]
  have within : ¬(sl.w 4 < 800 ∨ 3200 < sl.w 4 ∨ sl.w 5 < 250 ∨ 2000 < sl.w 5) := by omega
  unfold State.powerPolicy
  dsimp only
  rw [if_neg (not_not.mpr empty), if_neg within, set]
  split
  · obtain ⟨ports, returned⟩ := State.returnAll_eq { s with
      flash, power := { s.power with limitW := sl.w 4, capMhz := sl.w 5, sinceLow := 0 } }
    rw [returned]
    exact ⟨flash, ports, _, rfl, rfl, rfl, settings⟩
  · exact ⟨flash, s.ports, _, rfl, rfl, rfl, settings⟩

theorem State.powerPolicy_of_no_range {s : State} {sl : Slot} (se : Session) (empty : sl.len = 0)
    (outside : sl.w 4 < 800 ∨ 3200 < sl.w 4 ∨ sl.w 5 < 250 ∨ 2000 < sl.w 5) :
    State.powerPolicy sl se s = s.invalid se.id sl 3 := by
  unfold State.powerPolicy
  dsimp only
  rw [if_neg (not_not.mpr empty), if_pos outside]

section
variable {s : State} {sl : Slot} {se : Session} (accepted : Accepted s sl se) (code : sl.cmd = 0x81) (empty : sl.len = 0)
include accepted code empty

theorem exec_powerPolicy_of_range (limit : 800 ≤ sl.w 4 ∧ sl.w 4 ≤ 3200) (cap : 250 ≤ sl.w 5 ∧ sl.w 5 ≤ 2000) :
    ∃ t, exec (.powerPolicy sl) s = .next t ∧ t.power.limitW = sl.w 4 ∧ t.power.capMhz = sl.w 5 ∧
      (s.boot.phase = .running → t.settings = { s.settings with limitW := sl.w 4, capMhz := sl.w 5 }) ∧ t.boot = s.boot ∧
      t.responded se.id sl 0 ∧ t.ctxs = s.ctxs ∧ t.mem = s.mem ∧ t.sed = s.sed := by
  have row := exec_of_accepted accepted (i := .powerPolicy sl) rfl (beq_iff_eq.mpr code)
  obtain ⟨flash, ports, power, effect, limitW, capMhz, settings⟩ :=
    State.powerPolicy_of_range (s := s.advanceSeq se.id sl) se empty limit cap
  rw [effect] at row
  have same := SameButAnswer.answer { s.advanceSeq se.id sl with flash, ports, power } se.id sl 0 0 [] []
  obtain ⟨ibi, powered⟩ := State.answer_power { s.advanceSeq se.id sl with flash, ports, power } se.id sl 0 0 [] []
  refine ⟨_, row, ?_, ?_, fun running => ?_, same.boot, ?_, same.ctxs, same.mem, State.answer_sed ..⟩
  · exact (congrArg Power.limitW powered).trans limitW
  · exact (congrArg Power.capMhz powered).trans capMhz
  · rw [State.settings, State.ok, same.boot, same.flash]
    exact settings running
  · exact State.responded_answer _ _ _ _ _ (State.session?_advanceSeq accepted)

theorem exec_powerPolicy_of_no_range (outside : sl.w 4 < 800 ∨ 3200 < sl.w 4 ∨ sl.w 5 < 250 ∨ 2000 < sl.w 5) :
    ∃ t, exec (.powerPolicy sl) s = .next t ∧ t.power.limitW = s.power.limitW ∧ t.power.capMhz = s.power.capMhz ∧
      t.flash = s.flash ∧ t.responded se.id sl 0x4401 ∧ t.ctxs = s.ctxs ∧ t.mem = s.mem := by
  have row := exec_of_accepted accepted (i := .powerPolicy sl) rfl (beq_iff_eq.mpr code)
  rw [State.powerPolicy_of_no_range se empty outside] at row
  have same := SameButAnswer.refuse (s.advanceSeq se.id sl) se.id sl 0x4401 3
  obtain ⟨ibi, powered⟩ := State.answer_power ((s.advanceSeq se.id sl).raise 0x4401 3 pkgPath
    ((sl.named.map fun c => c % 256).getD noCtx)) se.id sl 0x4401 3 [] []
  exact ⟨_, row, (congrArg Power.limitW powered :), (congrArg Power.capMhz powered :), same.flash,
    State.responded_answer _ _ _ _ _ (State.session?_advanceSeq accepted), same.ctxs, same.mem⟩

end

/-! ## Ports OFF (R465) -/

/-- A port whose return from OFF has ended. -/
def Port.returned (q : Port) : Port := { q with phase := .probe, returning := false }

section
variable {s : State} {p : Nat} {q : Port} (port : s.port? p = some q)
include port

theorem exec_portPowerOff (unused : (s.ctxs.any fun c => c.bindings.any fun b => b.port == p) = false)
    (limit : s.power.limitW < 1600) (on : q.phase = .probe ∨ q.phase = .train ∨ q.phase = .auth ∨ q.phase = .up) :
    exec (.portPowerOff p) s = .next (s.portLeave p .off) := by
  change execPortPowerOff p s = _
  simp only [execPortPowerOff, port, unused]
  exact if_pos ⟨rfl, limit, on⟩

theorem exec_portOffReturnDone (off : q.phase = .off) (returning : q.returning = true) : exec (.portOffReturnDone p) s =
    .next (s.mapPort p Port.returned).answerReserves := by
  change execPortOffReturnDone p s = _
  simp only [execPortOffReturnDone, port]
  exact if_pos ⟨off, returning⟩

end

/-- Settles O45: the command's effect is one update of limit and cap, and a port's way OFF and back is one update of the
port. -/
theorem powerPolicyActsOnLimitsAndPorts : Obligations.PowerPolicyActsOnLimitsAndPorts := by
  unfold Obligations.PowerPolicyActsOnLimitsAndPorts
  refine ⟨fun s sl se accepted code empty => ⟨fun low high slow fast => ?_, fun outside => ?_⟩, fun s p q port => ⟨?_, ?_⟩⟩
  · obtain ⟨t, row, limitW, capMhz, settings, boot, rest⟩ :=
      exec_powerPolicy_of_range accepted code empty ⟨low, high⟩ ⟨slow, fast⟩
    refine ⟨t, row, limitW, capMhz, fun running => ?_, rest⟩
    have kept := settings running
    rw [State.settings, boot] at kept
    rw [kept]
    exact ⟨rfl, rfl⟩
  · exact exec_powerPolicy_of_no_range accepted code empty outside
  · intro unused limit on
    have left : OnPort p s (s.portLeave p .off) := .portLeave s .off
    refine ⟨_, q.left .off, exec_portPowerOff port unused limit on, ?_, rfl, rfl, left.others, left.mem⟩
    rw [State.port?_portLeave, if_pos rfl, port, Option.map_some]
  · intro off returning
    have row := exec_portOffReturnDone port off returning
    obtain ⟨ligil, power, answered⟩ : SameButSessions (s.mapPort p Port.returned) (s.mapPort p Port.returned).answerReserves :=
      State.answerBusy_eq ..
    rw [answered] at row
    exact ⟨_, q.returned, row, State.port?_mapPort_self port Port.returned, rfl, rfl, rfl, .mapPort s p Port.returned, rfl, rfl⟩

end Sys2Proof.Machine
end


section
/-! PROOFS. The package's inputs: which levels are recognised (R456, R461), and what a chip reset keeps of them (R456, R471). -/

namespace Sys2Proof.Machine

/-! ## Levels (R456, R461) -/

section
variable (s : State) {ns lo : Nat}

theorem State.pulse_of_long (long : lo + 20 ≤ ns) : s.pulse ns lo = (true, s) := if_pos long

theorem State.pulse_of_short (short : ns ≤ lo) : s.pulse ns lo = (false, s) := by
  rw [State.pulse, if_neg (by omega), if_pos short]

/-- Between the two bounds a free value takes a level to one of them. -/
theorem State.pulse_between (above : lo < ns) (below : ns < lo + 20) :
    s.pulse ns lo = State.pulse { s with free := s.free + 1 } (if Config.freeBool s.free then lo + 20 else lo) lo := by
  rw [State.pulse, if_neg (by omega), if_neg (by omega)]
  cases free : Config.freeBool s.free with
  | true =>
    rw [State.pulse_of_long _ (le_of_eq (if_pos rfl).symm)]
    exact congrArg (·, _) free
  | false =>
    rw [State.pulse_of_short _ (le_of_eq (if_neg Bool.false_ne_true))]
    exact congrArg (·, _) free

end

/-! ## What a chip reset keeps of the package's inputs -/

/-- The heat that holds ROM start and the levels of the package's inputs. -/
def Boot.pins (b : Boot) : Bool × Bool × Bool := (b.thermHold, b.pkgResetN, b.pwrGood)

/-- The block keeps what holds ROM start, and THERM_N shows it (R471). -/
structure KeepsPins (s t : State) : Prop where
  pins : t.boot.pins = s.boot.pins
  thermN : t.power.thermN = !s.boot.thermHold

theorem KeepsPins.restart {s t : State} (boot : t.boot.pins = s.boot.pins) (cause : Nat) (phase : BootPhase) :
    KeepsPins s (t.restart cause phase) := ⟨boot, congrArg (fun p : Bool × Bool × Bool => !p.1) boot⟩

theorem KeepsPins.withholdRecurring {s t : State} (h : KeepsPins s t) : KeepsPins s t.withholdRecurring := ⟨h.pins, h.thermN⟩

theorem State.withChipTimes_boot (s : State) (l : List Nat) : (s.withChipTimes l).boot = s.boot := rfl

theorem KeepsPins.chipRestarted (s : State) (cause : Nat) : KeepsPins s (s.chipRestarted cause) := by
  have stopped : (s.chipStopped cause).boot = s.boot := (KeepsBoot.chipStopped s cause).boot
  refine (KeepsPins.restart ?_ cause .romStart).withholdRecurring
  rw [State.withChipTimes_boot, stopped]

theorem KeepsPins.chipReset (s : State) (cause : Nat) : KeepsPins s (s.chipReset cause) := by
  have first := KeepsPins.chipRestarted s cause
  rw [State.chipReset_eq]
  split
  · obtain ⟨resets, sed, saved, -⟩ := (s.chipRestarted cause).powerSaved_frame
    have restarted := KeepsPins.restart (t := { s.chipRestarted cause with resets, sed }) first.pins
      (s.chipRestarted cause).boot.resetCause .held
    rw [State.powerCycle_eq, saved]
    exact ⟨restarted.pins, restarted.thermN⟩
  · exact first

/-- The reset input changes the phase of a boot alone (R456). -/
theorem State.holdReset_eq (s : State) : ∃ phase, s.holdReset = { s with boot := { s.boot with phase } } := by
  unfold State.holdReset
  split
  · exact ⟨s.boot.phase, rfl⟩
  · exact ⟨_, rfl⟩

theorem Restarted.holdReset {cause : Nat} {t : State} (h : Restarted cause t) : Restarted cause t.holdReset := by
  obtain ⟨phase, held⟩ := t.holdReset_eq
  rw [held]
  exact ⟨h.ctxs, h.sessions, h.conns, h.lockOpen, h.resetCause, h.lastChip, h.parts, h.silent⟩

theorem KeepsPins.holdReset {s t : State} (h : KeepsPins s t) : KeepsPins s t.holdReset := by
  obtain ⟨phase, held⟩ := t.holdReset_eq
  rw [held]
  exact ⟨h.pins, h.thermN⟩

/-- A chip reset that the reset input may hold. -/
theorem State.heldReset_restarts (s : State) (cause : Nat) : Restarted cause (s.chipReset cause).holdReset ∧
    KeepsPins s (s.chipReset cause).holdReset := ⟨(Restarted.chipReset s cause).holdReset, (KeepsPins.chipReset s cause).holdReset⟩

end Sys2Proof.Machine
end


section
/-! PROOFS. The power brake, the reference clocks and the trim of an island's clock (R27, R452, R457, R458, R461). -/

namespace Sys2Proof.Machine

/-! ## The power brake (R461) -/

section
variable {s : State} {ns : Nat}

theorem exec_powerBrakeApply_of_short (short : ns ≤ 90) : exec (.powerBrakeApply ns) s = .next s := by
  change execPowerBrakeApply ns s = _
  simp only [execPowerBrakeApply, State.pulse_of_short s short]
  rfl

theorem exec_powerBrakeRelease_of_short (short : ns ≤ 90) : exec (.powerBrakeRelease ns) s = .next s := by
  change execPowerBrakeRelease ns s = _
  simp only [execPowerBrakeRelease, State.pulse_of_short s short]
  rfl

theorem exec_powerBrakeApply_of_between (above : 90 < ns) (below : ns < 110) : exec (.powerBrakeApply ns) s =
    exec (.powerBrakeApply (if Config.freeBool s.free then 110 else 90)) { s with free := s.free + 1 } := by
  change execPowerBrakeApply ns s = execPowerBrakeApply _ _
  simp only [execPowerBrakeApply, State.pulse_between s above below]

theorem exec_powerBrakeRelease_of_between (above : 90 < ns) (below : ns < 110) : exec (.powerBrakeRelease ns) s =
    exec (.powerBrakeRelease (if Config.freeBool s.free then 110 else 90)) { s with free := s.free + 1 } := by
  change execPowerBrakeRelease ns s = execPowerBrakeRelease _ _
  simp only [execPowerBrakeRelease, State.pulse_between s above below]

/-- The brake, logged, with the voltages that follow from it. -/
def State.setBrake (s : State) (on : Bool) (brakeAt detail : Nat) : State :=
  (State.raise { s with power := { s.power with brake := on, brakeAt } } 0x7003 detail pkgPath noCtx).setVoltages

theorem exec_powerBrakeApply_of_long (long : 110 ≤ ns) (off : s.power.brake = false) :
    exec (.powerBrakeApply ns) s = .next (s.setBrake true s.now 1) := by
  change execPowerBrakeApply ns s = _
  simp only [execPowerBrakeApply, State.pulse_of_long s long, off]
  rfl

theorem exec_powerBrakeRelease_of_long (long : 110 ≤ ns) (on : s.power.brake = true) :
    exec (.powerBrakeRelease ns) s =
      .next ((s.advanceTo (s.power.brakeAt + 1)).setBrake false (s.advanceTo (s.power.brakeAt + 1)).power.brakeAt 0) := by
  change execPowerBrakeRelease ns s = _
  simp only [execPowerBrakeRelease, State.pulse_of_long s long, on]
  rfl

end

/-- Time does not run backwards. -/
theorem State.now_le_advanceTo (s : State) (t : Nat) : s.now ≤ (s.advanceTo t).now := by
  unfold State.advanceTo
  split
  · exact le_rfl
  · next later => exact (Nat.lt_of_not_le later).le

/-! ## The reference clocks (R457, R458) -/

section
variable {s : State}

/-- REFCLK_SYS is lost or there again, logged with a detail. -/
def State.setSysLost (s : State) (lost : Bool) (detail : Nat) : State :=
  State.raise { s with power := { s.power with sysLost := lost } } 0x7004 detail pkgPath noCtx

/-- The reference clock of a die's ports is lost or there again, logged with a detail. -/
def State.setSdsLost (s : State) (d : Nat) (lost : Bool) (detail : Nat) : State :=
  State.raise { s with power := { s.power with sdsLost := s.power.sdsLost.set d lost } } 0x7004 detail pkgPath noCtx

theorem exec_refclkLost_sys (there : s.power.sysLost = false) : exec (.refclkLost 0) s = .next (s.setSysLost true 0) :=
  if_neg (by rw [there]; exact Bool.false_ne_true)

theorem exec_refclkReturn_sys (lost : s.power.sysLost = true) :
    exec (.refclkReturn 0) s = .next (s.setSysLost false 0x8000) := if_pos lost

theorem exec_refclkLost_port {d : Nat} (hd : d < 4) (there : s.power.sdsLost.getD d false = false) :
    exec (.refclkLost (d + 1)) s = .next ((diePorts d).foldl State.loseClock (s.setSdsLost d true (d + 1))) := by
  have there : (!(s.power.sdsLost.getD (d + 1 - 1) false)) = true := by rw [Nat.add_sub_cancel, there]; rfl
  change execRefclkLost (d + 1) s = _
  rw [execRefclkLost, if_neg (Nat.succ_ne_zero d), if_pos ⟨hd, there⟩]
  rfl

theorem exec_refclkReturn_port {d : Nat} (hd : d < 4) (lost : s.power.sdsLost.getD d false = true) :
    exec (.refclkReturn (d + 1)) s = .next (s.setSdsLost d false (0x8000 + (d + 1))) := by
  change execRefclkReturn (d + 1) s = _
  rw [execRefclkReturn, if_neg (Nat.succ_ne_zero d), if_pos ⟨hd, lost⟩]
  rfl

end

theorem getD_set_self {α : Type} {l : List α} {i : Nat} (h : i < l.length) (a d : α) : (l.set i a).getD i d = a := by
  simp [h]

/-- A port without its reference clock: it goes down when it was linked or on its way there (R302, R458). -/
def Port.clockless (q : Port) : Port := if q.phase = .train ∨ q.phase = .auth ∨ q.phase = .up then q.left .probe else q

theorem Port.clockless_epoch (q : Port) : q.clockless.epoch = q.epoch := by
  unfold Port.clockless
  split <;> rfl

theorem Port.clockless_phase (q : Port) :
    q.clockless.phase = if q.phase = .train ∨ q.phase = .auth ∨ q.phase = .up then .probe else q.phase := by
  unfold Port.clockless
  split <;> rfl

theorem OnPort.loseClock (s : State) (p : Nat) : OnPort p s (s.loseClock p) := by
  unfold State.loseClock
  split
  · split
    · exact .portDown s
    · exact .refl s
  · exact .refl s

theorem State.port?_loseClock (s : State) (p q : Nat) :
    (s.loseClock p).port? q = if q = p then (s.port? q).map Port.clockless else s.port? q := by
  unfold State.loseClock
  split
  · next x port =>
    split
    · next linked =>
      rw [State.port?_portDown]
      split
      · next same => rw [same, port, Option.map_some, Option.map_some, Port.clockless, if_pos linked]
      · rfl
    · next unlinked =>
      split
      · next same => rw [same, port, Option.map_some, Port.clockless, if_neg unlinked]
      · rfl
  · next none_ =>
    split
    · next same => rw [same, none_]; rfl
    · rfl

/-- The ports of a die lose their clock, and nothing but ports, contexts and the log changes by that. -/
theorem State.loseClocks (s : State) (d : Nat) :
    (∀ p, ((diePorts d).foldl State.loseClock s).port? p =
      if p / 8 = d then (s.port? p).map Port.clockless else s.port? p) ∧
    ((diePorts d).foldl State.loseClock s).mem = s.mem ∧ SameBase s ((diePorts d).foldl State.loseClock s) := by
  refine ⟨fun p => ?_, ?_⟩
  · simpa only [mem_diePorts] using port?_foldl (g := fun _ => Port.clockless) State.port?_loseClock (nodup_diePorts d) s p
  · exact List.foldlRecOn (motive := fun t : State => t.mem = s.mem ∧ SameBase s t) _ _ ⟨rfl, .refl s⟩ fun t ⟨mem, base⟩ p _ =>
      have step := OnPort.loseClock t p
      ⟨step.mem.trans mem, base.trans step.base⟩

/-! ## The trim of an island's clock (R27, R452) -/

section
variable {s : State} {path : Nat}

theorem exec_islandClockTrim_of_kept (kept : followsClock path = false ∨ pathKnown path = false ∨ s.power.sysLost = true) :
    exec (.islandClockTrim path) s = .next s := by
  refine if_neg fun ⟨known, follows, there⟩ => ?_
  rcases kept with other | unknown | lost
  · exact Bool.false_ne_true (other.symm.trans follows)
  · exact Bool.false_ne_true (unknown.symm.trans known)
  · rw [lost] at there
    exact Bool.false_ne_true there

theorem exec_islandClockTrim (known : pathKnown path = true) (follows : followsClock path = true)
    (there : s.power.sysLost = false) : exec (.islandClockTrim path) s = .next { s with
      power := { s.power with trims := setKey s.power.trims path (s.clock (pathDie path)) } } :=
  if_pos ⟨known, follows, by rw [there]; rfl⟩

end

/-- Settles O46: each row changes the power record, and a lost port clock takes the die's ports down one by one. -/
theorem brakeAndClocksAct : Obligations.BrakeAndClocksAct := by
  unfold Obligations.BrakeAndClocksAct
  intro s
  refine ⟨?_, ?_, ?_, ?_, ?_, ?_, ?_, ?_, ?_, ?_⟩
  · exact fun ns short => ⟨exec_powerBrakeApply_of_short short, exec_powerBrakeRelease_of_short short⟩
  · exact fun ns above below => ⟨exec_powerBrakeApply_of_between above below, exec_powerBrakeRelease_of_between above below⟩
  · exact fun ns long off => ⟨_, exec_powerBrakeApply_of_long long off, rfl, rfl, rfl, rfl, rfl, rfl⟩
  · intro ns long on
    have row := exec_powerBrakeRelease_of_long long on
    have forward := s.now_le_advanceTo (s.power.brakeAt + 1)
    obtain ⟨ctxs, now, passed, due⟩ := s.advanceTo_eq (s.power.brakeAt + 1)
    rw [passed] at row forward
    exact ⟨_, row, rfl, due, forward, rfl, rfl, rfl⟩
  · exact fun there => ⟨_, exec_refclkLost_sys there, rfl, rfl, rfl, rfl⟩
  · exact fun lost => ⟨_, exec_refclkReturn_sys lost, rfl, rfl, rfl, rfl⟩
  · intro d hd four there
    obtain ⟨ports, mem, base⟩ := (s.setSdsLost d true (d + 1)).loseClocks d
    refine ⟨_, exec_refclkLost_port hd there, ?_, ?_, ?_, mem⟩
    · rw [base.power]
      exact getD_set_self (four ▸ hd) ..
    · intro p q own port
      refine ⟨q.clockless, ?_, q.clockless_epoch, q.clockless_phase⟩
      rw [ports, if_pos own]
      exact congrArg (Option.map Port.clockless) port
    · exact fun p other => (ports p).trans (if_neg other)
  · exact fun d hd four lost => ⟨_, exec_refclkReturn_port hd lost, getD_set_self (four ▸ hd) .., rfl, rfl, rfl⟩
  · exact fun path kept => exec_islandClockTrim_of_kept kept
  · exact fun path known follows there => ⟨_, exec_islandClockTrim known follows there, getKey_setKey_self .., rfl, rfl, rfl⟩

end Sys2Proof.Machine
end


section
/-! PROOFS. Thermal samples and cap steps (R469 to R471), and the power limit loop (R460). -/

namespace Sys2Proof.Machine

/-! ## Readings (R469) -/

/-- The readings of what has a sensor. -/
def seenReadings (readings : List Reading) : List (Nat × Int) :=
  (readings.filter fun r => isSensor r.sensor).map fun r => (r.sensor, r.temp)

/-- A sample's readings are kept, and each die's throttled time grows by a sample's when it throttles. -/
def State.tempsRead (s : State) (seen : List (Nat × Int)) : State :=
  { s with power := { s.power with
    temps := seen.foldl (fun l r => setKey l r.1 r.2) s.power.temps
    throttleUs := (List.range 4).map fun d =>
      s.power.throttleUs.getD d 0 + (if s.power.throttle.getD d false then 100 else 0) } }

/-- The refresh of every stack that is read follows its temperature. -/
def State.refreshed (s : State) (seen : List (Nat × Int)) : State :=
  seen.foldl (fun s r => if r.1 / 256 = 7 then s.refresh (r.1 % 256) r.2 else s) s

theorem State.refreshed_eq (s : State) (seen : List (Nat × Int)) : ∃ doubled sed,
    s.refreshed seen = { s with power := { s.power with doubled }, sed } := by
  refine List.foldlRecOn (motive := fun t : State => ∃ doubled sed, t = { s with power := { s.power with doubled }, sed }) _ _
    ⟨s.power.doubled, s.sed, rfl⟩ fun t ⟨doubled, sed, same⟩ r _ => ?_
  subst same
  split
  · unfold State.refresh
    dsimp only
    split
    · exact ⟨_, _, rfl⟩
    · split
      · exact ⟨_, _, rfl⟩
      · exact ⟨_, _, rfl⟩
  · exact ⟨_, _, rfl⟩

/-! ## Throttling begins (R470) -/

/-- The throttling flags with the thermal caps, the log and the sessions alone differ. -/
def SameButThrottle (s t : State) : Prop :=
  ∃ ligil sed throttle thermalCap, t = { s with ligil, sed, power := { s.power with throttle, thermalCap } }

theorem SameButThrottle.trans {s t u : State} (h : SameButThrottle s t) (k : SameButThrottle t u) : SameButThrottle s u := by
  obtain ⟨_, _, _, _, rfl⟩ := h
  obtain ⟨_, _, _, _, rfl⟩ := k
  exact ⟨_, _, _, _, rfl⟩

theorem SameButThrottle.sensorsOf {s t : State} (h : SameButThrottle s t) (d : Nat) : t.sensorsOf d = s.sensorsOf d := by
  obtain ⟨_, _, _, _, rfl⟩ := h
  rfl

theorem SameButThrottle.boot {s t : State} (h : SameButThrottle s t) : t.boot = s.boot := by
  obtain ⟨_, _, _, _, rfl⟩ := h
  rfl

theorem getD_set_of_lt {α : Type} {l : List α} {i : Nat} (h : i < l.length) (a d : α) (k : Nat) :
    (l.set i a).getD k d = if k = i then a else l.getD k d := by
  by_cases same : k = i
  · simp [same, h]
  · simp [same, Ne.symm same]

section
variable {s : State} (running : s.boot.phase = .running)
include running

/-- A die with a hot sensor throttles from then on, and the other dies as they did. -/
theorem State.beginThrottle_throttle {d : Nat} (hd : d < s.power.throttle.length) : SameButThrottle s (s.beginThrottle d) ∧
    (s.beginThrottle d).power.throttle.length = s.power.throttle.length ∧
    ∀ k, (s.beginThrottle d).power.throttle.getD k false =
      (s.power.throttle.getD k false || decide (k = d) && (s.sensorsOf d).any isHot) := by
  have quiet : (((s.sensorsOf d).filter isHot).isEmpty = true) ↔ (s.sensorsOf d).any isHot = false := by
    rw [List.isEmpty_iff, List.filter_eq_nil_iff, List.any_eq_false]
  unfold State.beginThrottle
  dsimp only
  rw [running]
  split
  · next off =>
    refine ⟨⟨s.ligil, s.sed, _, _, rfl⟩, rfl, fun k => ?_⟩
    have off : ((s.sensorsOf d).filter isHot).isEmpty = true ∨ s.power.throttle.getD d false = true := by simpa using off
    by_cases same : k = d
    · subst same
      rcases off with cold | throttles
      · simp [quiet.mp cold]
      · simp only [throttles, Bool.true_or]
    · simp [same]
  · next on =>
    have hot : (s.sensorsOf d).any isHot = true := by
      by_contra cold
      exact on (by rw [quiet.mpr (Bool.eq_false_of_not_eq_true cold)]; rfl)
    have told (t : State) (code detail : Nat) : SameButThrottle t (t.notifyOps code detail) := by
      obtain ⟨ligil, h⟩ := t.notifyOps_eq code detail
      exact ⟨ligil, t.sed, _, _, h⟩
    have power (t : State) (code detail : Nat) : (t.notifyOps code detail).power = t.power := by
      obtain ⟨ligil, h⟩ := t.notifyOps_eq code detail
      rw [h]
    rw [power]
    refine ⟨SameButThrottle.trans ⟨s.ligil, _, _, _, rfl⟩ (told ..), List.length_set, fun k => ?_⟩
    rw [hot, Bool.and_true, State.raise_power, getD_set_of_lt hd]
    by_cases same : k = d
    · simp [same]
    · simp [same]

theorem State.beginThrottles_throttle {l : List Nat} (hl : ∀ d ∈ l, d < s.power.throttle.length) :
    SameButThrottle s (l.foldl State.beginThrottle s) ∧ ∀ k, (l.foldl State.beginThrottle s).power.throttle.getD k false =
      (s.power.throttle.getD k false || decide (k ∈ l) && (s.sensorsOf k).any isHot) := by
  induction l generalizing s with
  | nil => exact ⟨⟨s.ligil, s.sed, _, _, rfl⟩, fun k => by simp⟩
  | cons d l ih =>
    obtain ⟨hd, hl⟩ := List.forall_mem_cons.mp hl
    obtain ⟨same, length, first⟩ := State.beginThrottle_throttle running hd
    obtain ⟨rest, throttle⟩ := ih (s := s.beginThrottle d) (same.boot ▸ running) (fun x hx => length ▸ hl x hx)
    refine ⟨same.trans rest, fun k => ?_⟩
    rw [List.foldl_cons, throttle, first, same.sensorsOf]
    by_cases it : k = d
    · subst it
      cases (s.power.throttle.getD k false) <;> cases (s.sensorsOf k).any isHot <;> simp
    · simp [it]

end

/-! ## THERMAL_SAMPLE (R469 to R471) -/

/-- What follows the readings of a sample: a trip, or the heat that held ROM start is gone or not, and dies begin to throttle. -/
def State.afterReadings (s : State) : Option (Nat × Int) → Bool → Out
  | some r, false => .next (s.trip r.1)
  | _, hold =>
    let cool := s.power.temps.all fun r => decide (r.2 < 16 * 90)
    let t : State := { s with boot := { s.boot with thermHold := hold && !cool } }
    .next ((List.range 4).foldl State.beginThrottle (if hold && cool then t.chipRuns else t)).setTherm

/-- The block with a sample's readings, and the refresh that follows them. -/
def State.readIn (s : State) (readings : List Reading) : State :=
  (s.tempsRead (seenReadings readings)).refreshed (seenReadings readings)

theorem State.readIn_eq (s : State) (readings : List Reading) : ∃ throttleUs doubled sed, s.readIn readings =
    { s with sed, power := { s.power with
        temps := (seenReadings readings).foldl (fun l r => setKey l r.1 r.2) s.power.temps, throttleUs, doubled } } := by
  obtain ⟨doubled, sed, refreshed⟩ := (s.tempsRead (seenReadings readings)).refreshed_eq (seenReadings readings)
  exact ⟨_, doubled, sed, refreshed⟩

section
variable {s : State} (powered : s.powered = true) (cool : s.boot.thermHold = false) (readings : List Reading)
include powered

theorem exec_thermalSample : exec (.thermalSample readings) s =
    (s.readIn readings).afterReadings ((seenReadings readings).find? isTrip) (s.readIn readings).boot.thermHold := by
  have on : (!(s.tempsRead (seenReadings readings)).powered) = false := congrArg (! ·) powered
  obtain ⟨throttleUs, doubled, sed, read⟩ := s.readIn_eq readings
  have temps : (s.readIn readings).power.temps = (s.tempsRead (seenReadings readings)).power.temps := by rw [read]; rfl
  change execThermalSample readings s = _
  unfold State.afterReadings
  rw [temps]
  refine (if_neg (Bool.eq_false_iff.mp on)).trans ?_
  rfl

include cool

theorem exec_thermalSample_quiet (quiet : (seenReadings readings).find? isTrip = none) : exec (.thermalSample readings) s =
    .next ((List.range 4).foldl State.beginThrottle (s.readIn readings)).setTherm := by
  obtain ⟨throttleUs, doubled, sed, read⟩ := s.readIn_eq readings
  have unheld : (s.readIn readings).boot.thermHold = false := by rw [read]; exact cool
  have same (t : State) (h : t.boot.thermHold = false) : { t with boot := { t.boot with thermHold := false } } = t := by rw [← h]
  rw [exec_thermalSample powered, quiet, unheld]
  exact congrArg (fun t : State => Host.Outcome.next ((List.range 4).foldl State.beginThrottle t).setTherm) (same _ unheld)

theorem exec_thermalSample_trip (trips : ((seenReadings readings).find? isTrip).isSome = true) :
    ∃ sensor, exec (.thermalSample readings) s = .next ((s.readIn readings).trip sensor) := by
  obtain ⟨throttleUs, doubled, sed, read⟩ := s.readIn_eq readings
  have unheld : (s.readIn readings).boot.thermHold = false := by rw [read]; exact cool
  obtain ⟨r, found⟩ := Option.isSome_iff_exists.mp trips
  exact ⟨r.1, by rw [exec_thermalSample powered, found, unheld]; rfl⟩

/-- Without a trip the dies with a hot sensor throttle, and the boot goes on as it did. -/
theorem exec_thermalSample_throttles (running : s.boot.phase = .running) (four : s.power.throttle.length = 4)
    (quiet : (seenReadings readings).find? isTrip = none) : ∃ t, exec (.thermalSample readings) s = .next t ∧
      t.power.temps = (seenReadings readings).foldl (fun l r => setKey l r.1 r.2) s.power.temps ∧
      (∀ d, d < 4 → t.power.throttle.getD d false = (s.power.throttle.getD d false || (t.sensorsOf d).any isHot)) ∧
      t.boot = s.boot ∧ t.ctxs = s.ctxs ∧ t.mem = s.mem ∧ t.ports = s.ports := by
  have row := exec_thermalSample_quiet powered cool readings quiet
  obtain ⟨throttleUs, doubled, sed, read⟩ := s.readIn_eq readings
  rw [read] at row
  obtain ⟨⟨ligil, sed, throttle, thermalCap, same⟩, flags⟩ := State.beginThrottles_throttle (s := { s with sed, power :=
      { s.power with temps := (seenReadings readings).foldl (fun l r => setKey l r.1 r.2) s.power.temps, throttleUs, doubled } })
    running (l := List.range 4) fun d hd => four ▸ List.mem_range.mp hd
  rw [same] at row flags
  refine ⟨_, row, rfl, fun d hd => (flags d).trans ?_, rfl, rfl, rfl, rfl⟩
  rw [decide_eq_true (List.mem_range.mpr hd), Bool.true_and]
  rfl

theorem exec_thermalSample_resets (trips : ((seenReadings readings).find? isTrip).isSome = true) :
    ∃ t, exec (.thermalSample readings) s = .next t ∧ t.boot.thermHold = true ∧ t.ctxs = [] ∧
      t.resets.lastChip = some 0xA ∧ t.power.thermN = false := by
  obtain ⟨sensor, row⟩ := exec_thermalSample_trip powered cool readings trips
  obtain ⟨restarted, kept⟩ := State.heldReset_restarts { ((s.readIn readings).writeNow 0x7002 sensor sensor noCtx).notifyOps 0x7002
    sensor with boot := { (((s.readIn readings).writeNow 0x7002 sensor sensor noCtx).notifyOps 0x7002 sensor).boot with
      thermHold := true } } 0xA
  exact ⟨_, row, congrArg Prod.fst kept.pins, restarted.ctxs, restarted.lastChip, kept.thermN⟩

end

/-! ## THERMAL_CAP_STEP (R470) -/

section
variable {s : State} {d : Nat} (throttles : s.power.throttle.getD d false = true)

/-- No reading is both below its release value and at its throttle value. -/
theorem not_isHot_of_isCool {r : Nat × Int} (cool : isCool r = true) : isHot r = false := by
  have limits : (sensorLimits r.1).2.1 ≤ (sensorLimits r.1).1 := by
    unfold sensorLimits
    split <;> decide
  have below : r.2 < 16 * (sensorLimits r.1).2.1 := of_decide_eq_true cool
  exact decide_eq_false (by omega)

/-- The thermal cap of a die, with whether it throttles on. -/
def State.setThermalCap (s : State) (d cap : Nat) (on : Bool) : State :=
  { s with power := { s.power with
    thermalCap := s.power.thermalCap.set d cap, throttle := if on then s.power.throttle else s.power.throttle.set d false } }

include throttles

theorem exec_thermalCapStep_hot (hot : (s.sensorsOf d).any isHot = true) : exec (.thermalCapStep d) s =
    .next (s.setThermalCap d (max 16 (s.power.thermalCap.getD d 128 - 1)) true).setVoltages := by
  change execThermalCapStep d s = _
  simp only [execThermalCapStep, throttles, hot]
  rfl

/-- The cap rises by a step, and the episode ends once it would limit no longer. -/
theorem exec_thermalCapStep_cool (cool : (s.sensorsOf d).all isCool = true) : exec (.thermalCapStep d) s =
    .next (if mhzSteps s.power.capMhz ≤ s.power.thermalCap.getD d 128 + 1 then s.setThermalCap d 128 false
      else s.setThermalCap d (s.power.thermalCap.getD d 128 + 1) true).setTherm.setVoltages := by
  have cold : (s.sensorsOf d).any isHot = false := List.any_eq_false.mpr fun r hr => by
    rw [not_isHot_of_isCool (List.all_eq_true.mp cool r hr)]
    exact Bool.false_ne_true
  change execThermalCapStep d s = _
  by_cases done : mhzSteps s.power.capMhz ≤ s.power.thermalCap.getD d 128 + 1
  · simp only [execThermalCapStep, throttles, cold, cool, decide_eq_true done, if_pos done]
    rfl
  · simp only [execThermalCapStep, throttles, cold, cool, decide_eq_false done, if_neg done]
    rfl

end

/-! ## POWER_LIMIT_LOOP (R460) -/

section
variable {s : State} {h : List Nat}

/-- The power that the samples may add up to. -/
def State.powerBudget (s : State) (h : List Nat) : Nat := s.power.limitW * 1000 * h.length

/-- For how many samples the mean has been low. -/
def State.lowFor (s : State) (h : List Nat) : Nat := if 100 * sumNat h < 98 * s.powerBudget h then s.power.sinceLow + 1 else 0

/-- The loop's cap after a sample. -/
def State.loopCapAfter (s : State) (h : List Nat) : Nat :=
  if s.powerBudget h < sumNat h then max 16 (s.power.loopCap - 1)
  else if 10 ≤ s.lowFor h then min 128 (s.power.loopCap + 1) else s.power.loopCap

/-- An event raised under a condition changes the log alone. -/
theorem State.raise_if_sed (p : Prop) [Decidable p] (s : State) (code detail path ctx : Nat) :
    ∃ sed, (if p then s.raise code detail path ctx else s) = { s with sed } := by
  split
  · exact ⟨_, rfl⟩
  · exact ⟨s.sed, rfl⟩

theorem exec_powerLimitLoop {mw : Nat} (running : s.boot.phase = .running)
    (samples : h = (s.power.history ++ [mw]).drop (s.power.history.length + 1 - 10)) : ∃ limited voltage sed,
    exec (.powerLimitLoop mw) s = .next { s with sed, power := { s.power with
      history := h, sinceLow := s.lowFor h, loopCap := s.loopCapAfter h, limited, voltage } } := by
  change ∃ limited voltage sed, execPowerLimitLoop mw s = _
  rw [execPowerLimitLoop, if_neg (not_not.mpr running), ← samples]
  dsimp only
  obtain ⟨sed, raised⟩ := State.raise_if_sed
    (s.loopCapAfter h < mhzSteps s.power.capMhz ∧ mhzSteps s.power.capMhz ≤ s.power.loopCap) { s with power := { s.power with
    history := h, sinceLow := s.lowFor h, loopCap := s.loopCapAfter h,
    limited := decide (s.loopCapAfter h < mhzSteps s.power.capMhz) } } 0x7005 (stepsMhz (s.loopCapAfter h)) pkgPath noCtx
  exact ⟨_, _, sed, congrArg (fun u => Host.Outcome.next u.setVoltages) raised⟩

theorem State.loopCapAfter_over (over_ : s.powerBudget h < sumNat h) : s.loopCapAfter h = max 16 (s.power.loopCap - 1) :=
  if_pos over_

theorem State.loopCapAfter_within (within : sumNat h ≤ s.powerBudget h) (near : 98 * s.powerBudget h ≤ 100 * sumNat h) :
    s.loopCapAfter h = s.power.loopCap ∧ s.lowFor h = 0 := by
  have low : s.lowFor h = 0 := if_neg (by omega)
  rw [State.loopCapAfter, if_neg (by omega), low]
  exact ⟨rfl, rfl⟩

theorem State.loopCapAfter_low (low : 100 * sumNat h < 98 * s.powerBudget h) : s.lowFor h = s.power.sinceLow + 1 ∧
    s.loopCapAfter h = if 10 ≤ s.power.sinceLow + 1 then min 128 (s.power.loopCap + 1) else s.power.loopCap := by
  have since : s.lowFor h = s.power.sinceLow + 1 := if_pos low
  rw [State.loopCapAfter, if_neg (by omega), since]
  exact ⟨rfl, rfl⟩

end

/-- Settles O47: a sample, a cap step and the loop each change the power record, and a trip ends in a chip reset. -/
theorem thermalAndPowerLoopsMoveTheCaps : Obligations.ThermalAndPowerLoopsMoveTheCaps := by
  unfold Obligations.ThermalAndPowerLoopsMoveTheCaps
  intro s four caps
  refine ⟨?_, fun d hd throttles => ⟨fun hot => ?_, fun cool => ?_⟩, fun mw h running samples => ?_⟩
  · rintro readings _ rfl powered cool
    exact ⟨fun quiet running => exec_thermalSample_throttles powered cool readings running four quiet,
      exec_thermalSample_resets powered cool readings⟩
  · exact ⟨_, exec_thermalCapStep_hot throttles hot, getD_set_self (caps ▸ hd) .., rfl, rfl, rfl, rfl⟩
  · have row := exec_thermalCapStep_cool throttles cool
    split at row
    · next done =>
      exact ⟨_, row, fun short => absurd done (by omega), fun _ => ⟨getD_set_self (caps ▸ hd) .., getD_set_self (four ▸ hd) ..⟩,
        rfl, rfl, rfl⟩
    · next short =>
      exact ⟨_, row, fun _ => ⟨getD_set_self (caps ▸ hd) .., rfl⟩, fun done => absurd done short, rfl, rfl, rfl⟩
  · obtain ⟨limited, voltage, sed, row⟩ := exec_powerLimitLoop running samples
    exact ⟨_, row, rfl, rfl, State.loopCapAfter_over, State.loopCapAfter_within, State.loopCapAfter_low, rfl, rfl, rfl⟩

end Sys2Proof.Machine
end


section
/-! PROOFS. The reset input, the supply and the dump's copy to flash (R443, R454 to R456). -/

namespace Sys2Proof.Machine

/-! ## The reset input (R456) -/

section
variable {s : State} {ns : Nat}

theorem exec_pkgResetAssert_of_short (short : ns ≤ 490) : exec (.pkgResetAssert ns) s = .next s := by
  change execPkgResetAssert ns s = _
  simp only [execPkgResetAssert, State.pulse_of_short s short]
  rfl

theorem exec_pkgResetRelease_of_short (short : ns ≤ 490) : exec (.pkgResetRelease ns) s = .next s := by
  change execPkgResetRelease ns s = _
  simp only [execPkgResetRelease, State.pulse_of_short s short]
  rfl

theorem exec_pkgResetAssert_of_between (above : 490 < ns) (below : ns < 510) : exec (.pkgResetAssert ns) s =
    exec (.pkgResetAssert (if Config.freeBool s.free then 510 else 490)) { s with free := s.free + 1 } := by
  change execPkgResetAssert ns s = execPkgResetAssert _ _
  simp only [execPkgResetAssert, State.pulse_between s above below]

theorem exec_pkgResetRelease_of_between (above : 490 < ns) (below : ns < 510) : exec (.pkgResetRelease ns) s =
    exec (.pkgResetRelease (if Config.freeBool s.free then 510 else 490)) { s with free := s.free + 1 } := by
  change execPkgResetRelease ns s = execPkgResetRelease _ _
  simp only [execPkgResetRelease, State.pulse_between s above below]

/-- The level of PKG_RESET_N. -/
def State.setPkgReset (s : State) (level : Bool) : State := { s with boot := { s.boot with pkgResetN := level } }

theorem exec_pkgResetAssert_of_long (long : 510 ≤ ns) (high : s.boot.pkgResetN = true) : exec (.pkgResetAssert ns) s =
    .next (if s.powered then ((s.setPkgReset false).chipReset 0xC).holdReset else s.setPkgReset false) := by
  change execPkgResetAssert ns s = _
  simp only [execPkgResetAssert, State.pulse_of_long s long, high]
  rfl

theorem exec_pkgResetRelease_of_long (long : 510 ≤ ns) (low : s.boot.pkgResetN = false) :
    exec (.pkgResetRelease ns) s = .next (s.setPkgReset true).startRom := by
  change execPkgResetRelease ns s = _
  simp only [execPkgResetRelease, State.pulse_of_long s long, low]
  rfl

/-- A chip reset under a low reset input is held before ROM start. -/
theorem State.holdReset_phase {t : State} (low : t.boot.pkgResetN = false)
    (restarted : t.boot.phase = .romStart ∨ t.boot.phase = .held) : t.holdReset.boot.phase = .held := by
  unfold State.holdReset
  rcases restarted with rom | held
  · rw [if_neg (by simp [low, rom])]
  · rw [if_pos (.inr (by simp [held]))]
    exact held

theorem exec_pkgResetAssert_resets (long : 510 ≤ ns) (high : s.boot.pkgResetN = true) (powered : s.powered = true) :
    ∃ t, exec (.pkgResetAssert ns) s = .next t ∧ t.boot.pkgResetN = false ∧ t.boot.phase = .held ∧
      Restarted 0xC t := by
  obtain ⟨restarted, kept⟩ := (s.setPkgReset false).heldReset_restarts 0xC
  have row := exec_pkgResetAssert_of_long long high
  rw [if_pos powered] at row
  have low : ((s.setPkgReset false).chipReset 0xC).boot.pkgResetN = false :=
    congrArg (fun p => p.2.1) (KeepsPins.chipReset (s.setPkgReset false) 0xC).pins
  exact ⟨_, row, congrArg (fun p => p.2.1) kept.pins, State.holdReset_phase low (State.chipReset_phase_cases ..), restarted⟩

end

/-! ## ROM start (R403, R454, R456) -/

/-- ROM start changes the phase, FAULT_N and when the limit of the chip reset runs. -/
theorem State.startRom_frame (s : State) : ∃ phase power resets,
    s.startRom = { s with boot := { s.boot with phase }, power, resets } ∧
    phase = if s.boot.phase = .held ∧ s.boot.pwrGood = true ∧ s.boot.pkgResetN = true ∧ s.resets.powerHold = false
      then .romStart else s.boot.phase := by
  simp only [State.startRom, Bool.not_eq_true']
  split
  · exact ⟨_, _, _, rfl, rfl⟩
  · exact ⟨_, s.power, s.resets, rfl, rfl⟩

/-- The block waits for its supply and its power cycle where the reset input is high. -/
theorem exec_pkgResetRelease_starts {s : State} {ns : Nat} (long : 510 ≤ ns) (low : s.boot.pkgResetN = false) :
    ∃ phase power resets, exec (.pkgResetRelease ns) s = .next { s with
      boot := { s.boot with pkgResetN := true, phase }, power, resets } ∧
    phase = if s.boot.phase = .held ∧ s.boot.pwrGood = true ∧ s.resets.powerHold = false
      then .romStart else s.boot.phase := by
  obtain ⟨phase, power, resets, frame, starts⟩ := (s.setPkgReset true).startRom_frame
  simp only [State.setPkgReset, true_and] at starts
  exact ⟨phase, power, resets, (exec_pkgResetRelease_of_long long low).trans (congrArg Host.Outcome.next frame), starts⟩

/-! ## The supply (R454, R455) -/

/-- Every port comes up at epoch 0 (R303). -/
theorem State.powerUp_ports {s : State} {p : Nat} {q : Port} (h : s.powerUp.port? p = some q) : q.epoch = 0 := by
  have zeroed : s.powerUp.port? p = ((s.restart 0 .held).port? p).map fun q => { q with epoch := 0 } := List.getElem?_map ..
  rw [zeroed, Option.map_eq_some_iff] at h
  obtain ⟨x, -, rfl⟩ := h
  rfl

theorem State.restart_records (s : State) (cause : Nat) (phase : BootPhase) :
    (s.restart cause phase).flash.records = s.flash.records := by
  obtain ⟨stagingA, stagingB, flash⟩ := s.restart_flash cause phase
  rw [flash]
  rfl

theorem exec_pwrGoodRise {s : State} (off : s.boot.pwrGood = false) : exec .pwrGoodRise s = .next s.powerUp.startRom :=
  if_neg (by simp [off])

/-- The block as the supply falls: restarted, with FAULT_N as it was and no limit of a chip reset running (R330, R455). -/
def State.powerFall (s : State) : State :=
  let t := s.restart s.boot.resetCause .stopping
  { t with
    boot := { t.boot with pwrGood := false }, resets := { t.resets with chip := none }
    power := { t.power with faultN := s.power.faultN } }

theorem exec_pwrGoodFall {s : State} (on : s.boot.pwrGood = true) : exec .pwrGoodFall s = .next s.powerFall := if_pos on

theorem State.flushLog_frame (s : State) : ∃ flash, s.flushLog = { s with sed := { s.sed with
    flash, flushed := s.sed.nextSeq, openRec := false, savedMs := s.opMs } } := ⟨_, rfl⟩

/-- The log and the dump are in flash once the stop phase of a power down is done (R439, R443). -/
theorem exec_powerDownStopDone {s : State} (stopping : s.boot.phase = .stopping) : ∃ sed,
    exec .powerDownStopDone s = .next { s with
      boot := { s.boot with phase := .off }, sed, power := { s.power with ibi := s.power.ibi ++ [0xA7] } } ∧
    sed.flushed = s.sed.nextSeq := by
  obtain ⟨flash, flushed⟩ := s.flushLog_frame
  have row : exec .powerDownStopDone s = _ := if_pos stopping
  rw [flushed] at row
  exact ⟨_, row, rfl⟩

/-- Settles O44: a recognised level is a restart or ROM start, and the supply's edges restart the block in place. -/
theorem pinsStartAndStopTheBlock : Obligations.PinsStartAndStopTheBlock := by
  unfold Obligations.PinsStartAndStopTheBlock
  intro s
  refine ⟨fun ns short => ⟨exec_pkgResetAssert_of_short short, exec_pkgResetRelease_of_short short⟩,
    fun ns above below => ⟨exec_pkgResetAssert_of_between above below, exec_pkgResetRelease_of_between above below⟩,
    fun ns long high => ⟨fun powered => ?_, fun unpowered => ?_⟩, fun ns long low => ?_, fun off => ?_, fun on => ?_,
    fun stopping => ?_, fun copying => if_pos copying⟩
  · obtain ⟨t, row, low, held, restarted⟩ := exec_pkgResetAssert_resets long high powered
    exact ⟨t, row, low, held, restarted.lockOpen, restarted.ctxs, restarted.sessions, restarted.lastChip⟩
  · rw [exec_pkgResetAssert_of_long long high, if_neg (by simp [unpowered])]
    rfl
  · obtain ⟨phase, power, resets, row, starts⟩ := exec_pkgResetRelease_starts long low
    exact ⟨_, row, rfl, starts, rfl, rfl, rfl, rfl⟩
  · obtain ⟨phase, power, resets, frame, starts⟩ := s.powerUp.startRom_frame
    refine ⟨_, (exec_pwrGoodRise off).trans (congrArg Host.Outcome.next frame), rfl, rfl, ?_, rfl, rfl, rfl,
      fun p q h => State.powerUp_ports h, s.restart_records 0 .held⟩
    simp only [State.powerUp, State.restart, true_and, and_true] at starts
    exact starts
  · exact ⟨_, exec_pwrGoodFall on, rfl, rfl, rfl, rfl, rfl, s.restart_records s.boot.resetCause .stopping⟩
  · obtain ⟨sed, row, flushed⟩ := exec_powerDownStopDone stopping
    exact ⟨_, row, rfl, flushed, rfl, rfl⟩

end Sys2Proof.Machine
end


section
/-! PROOFS. What answers a command: every row goes on, but a debug instruction of the test port (R408, R477). -/

namespace Sys2Proof.Machine

/-- The machine goes on: what answers a command is neither a refusal nor a fault. -/
def Answers (o : Out) : Prop := ∃ t, o = .next t

namespace Answers

variable {x y : Out} {t u : State} {p : Prop} {_ : Decidable p}

theorem next : Answers (.next t) := ⟨t, rfl⟩

theorem ite (hx : Answers x) (hy : Answers y) : Answers (if p then x else y) := by
  split
  · exact hx
  · exact hy

theorem when : Answers (if p then .next t else .next u) := .ite .next .next

end Answers

/-! ## Instructions of a plan -/

theorem execPromote_answers (r : InstrRef) (s : State) : Answers (execPromote r s) := by
  unfold execPromote
  split
  · exact .when
  · exact .next

theorem execCopyComplete_answers (r : InstrRef) (s : State) : Answers (execCopyComplete r s) := by
  unfold execCopyComplete
  split
  · exact .when
  · exact .next

theorem execEvict_answers (r : InstrRef) (s : State) : Answers (execEvict r s) := by
  unfold execEvict
  split
  · exact .ite .when .next
  · exact .next

theorem execSealObject_answers (r : InstrRef) (s : State) : Answers (execSealObject r s) := by
  unfold execSealObject
  split
  · refine .ite ?_ .next
    dsimp only
    split
    · exact .next
    · exact .ite .next .when
  · exact .next

theorem execLaneIssue_answers (r : InstrRef) (s : State) : Answers (execLaneIssue r s) := by
  unfold execLaneIssue
  dsimp only
  split
  · exact .next
  · split
    · exact .next
    · exact .ite .when .next

theorem execInstructionComplete_answers (r : InstrRef) (s : State) : Answers (execInstructionComplete r s) := by
  unfold execInstructionComplete
  dsimp only
  split
  · exact .next
  · split
    · exact .when
    · exact .when
    · exact .when
    · exact .when
    · exact .next

theorem execWaitTimeout_answers (r : InstrRef) (s : State) : Answers (execWaitTimeout r s) := by
  unfold execWaitTimeout
  split
  · exact .next
  · split
    · split
      · exact .next
      · exact .next
    · exact .when

theorem execUpdateStall_answers (r : InstrRef) (s : State) : Answers (execUpdateStall r s) := by
  unfold execUpdateStall
  split
  · exact .next
  · split
    · refine .ite ?_ .next
      dsimp only
      split
      · exact .next
      · split
        · exact .next
        · exact .next
    · exact .next

theorem execStepEnd_answers (r : InstrRef) (s : State) : Answers (execStepEnd r s) := by
  unfold execStepEnd
  split
  · exact .next
  · exact .ite .when .next

theorem execLoopEnd_answers (r : InstrRef) (s : State) : Answers (execLoopEnd r s) := by
  unfold execLoopEnd
  split
  · exact .next
  · exact .ite (.ite .when .next) .next

theorem execInstructionAccept_answers (g : Nat) (r : InstrRef) (sameCycle : Bool) (s : State) :
    Answers (execInstructionAccept g r sameCycle s) := by
  unfold execInstructionAccept
  dsimp only
  split
  · exact .next
  · exact .ite .when .next

theorem execItemEnterWindow_answers (g : Nat) (backward : Bool) (s : State) : Answers (execItemEnterWindow g backward s) := by
  unfold execItemEnterWindow
  split
  · exact .next
  · split
    · exact .next
    · dsimp only
      split
      · exact .when
      · split
        · exact .next
        · exact .next
        · exact .when

theorem execItemIssue_answers (g a : Nat) (s : State) : Answers (execItemIssue g a s) := by
  unfold execItemIssue
  refine .ite .next ?_
  split
  · exact .next
  · exact .when

theorem execOptimise_answers (r : InstrRef) (s : State) : Answers (execOptimise r s) := by
  unfold execOptimise
  split
  · exact .next
  · refine .ite ?_ .next
    split
    · refine .ite ?_ .next
      split
      · exact .next
      · exact .next
    · exact .next
    · exact .next

theorem execCopyPort_answers (r : InstrRef) (s : State) : Answers (execCopyPort r s) := by
  unfold execCopyPort
  split
  · exact .next
  · refine .ite .next (.ite .next ?_)
    split
    · exact .next
    · refine .ite .next ?_
      split
      · exact .next
      · exact .next

theorem execPortCopyCompletion_answers (r : InstrRef) (how : CopyEnd) (s : State) :
    Answers (execPortCopyCompletion r how s) := by
  unfold execPortCopyCompletion
  split
  · exact .next
  · refine .ite ?_ .next
    split
    · exact .next
    · exact .next
    · exact .next

theorem execCollMessageReceive_answers (p num : Nat) (m : CollMsg) (s : State) :
    Answers (execCollMessageReceive p num m s) := by
  unfold execCollMessageReceive
  split
  · exact .next
  · exact .when

theorem execCollTimeout_answers (r : InstrRef) (s : State) : Answers (execCollTimeout r s) := by
  unfold execCollTimeout
  split
  · exact .next
  · split
    · exact .when
    · exact .next

/-! ## Links -/

theorem execFlitSend_answers (p : Nat) (s : State) : Answers (execFlitSend p s) := by
  unfold execFlitSend
  dsimp only
  split
  · exact .next
  · refine .ite .next ?_
    split
    · exact .next
    · refine .ite .next (.ite .next ?_)
      split
      · exact .next
      · split
        · exact .next
        · exact .next

theorem execAckTimeout_answers (p : Nat) (s : State) : Answers (execAckTimeout p s) := by
  unfold execAckTimeout
  split
  · exact .next
  · split
    · exact .next
    · exact .next

theorem execFlitReceive_answers (p : Nat) (bytes : List Byte) (clean : Bool) (s : State) :
    Answers (execFlitReceive p bytes clean s) := by
  unfold execFlitReceive
  split
  · exact .next
  · exact .ite .next .when

theorem execLinkDown_answers (p : Nat) (s : State) : Answers (execLinkDown p s) := by
  unfold execLinkDown
  split
  · exact .when
  · exact .next

theorem execLaneLockLoss_answers (p lanes : Nat) (s : State) : Answers (execLaneLockLoss p lanes s) := by
  unfold execLaneLockLoss
  split
  · exact .when
  · exact .next

theorem execPeerSlow_answers (p vc : Nat) (s : State) : Answers (execPeerSlow p vc s) := by
  unfold execPeerSlow
  split
  · exact .when
  · exact .next

theorem execLaneErrorInterval_answers (p : Nat) (errs : List LaneErrors) (s : State) :
    Answers (execLaneErrorInterval p errs s) := by
  unfold execLaneErrorInterval
  split
  · exact .next
  · exact .ite .next .when

theorem execLaneWidthChangeDone_answers (w : WidthChange) (s : State) : Answers (execLaneWidthChangeDone w s) := by
  unfold execLaneWidthChangeDone
  split
  · exact .next
  · exact .ite .next .when

theorem execPortTrainDone_answers (p : Nat) (selfTest : Bool) (lanes : Nat) (s : State) :
    Answers (execPortTrainDone p selfTest lanes s) := by
  unfold execPortTrainDone
  split
  · exact .next
  · exact .ite .next (.ite .next .when)

theorem execPortAuthDone_answers (p : Nat) (h : LinkHello) (s : State) : Answers (execPortAuthDone p h s) := by
  unfold execPortAuthDone
  split
  · exact .next
  · refine .ite .next ?_
    dsimp only
    split
    · exact .next
    · exact .next

theorem execPeerAuthTimeout_answers (p : Nat) (s : State) : Answers (execPeerAuthTimeout p s) := by
  unfold execPeerAuthTimeout
  split
  · exact .when
  · exact .next

theorem execQuarantineExpiry_answers (p : Nat) (s : State) : Answers (execQuarantineExpiry p s) := by
  unfold execQuarantineExpiry
  split
  · exact .when
  · exact .next

theorem execLinkKeyUpdate_answers (x : PortHello) (s : State) : Answers (execLinkKeyUpdate x s) := by
  unfold execLinkKeyUpdate
  split
  · refine .ite ?_ .next
    dsimp only
    split
    · exact .next
    · split
      · exact .next
      · exact .next
  · exact .next

theorem execPortPowerOff_answers (p : Nat) (s : State) : Answers (execPortPowerOff p s) := by
  unfold execPortPowerOff
  split
  · exact .when
  · exact .next

theorem execPortOffReturnDone_answers (p : Nat) (s : State) : Answers (execPortOffReturnDone p s) := by
  unfold execPortOffReturnDone
  split
  · exact .when
  · exact .next

/-! ## Sessions and contexts -/

theorem execClientConnect_answers (conn front : Nat) (cert : CertVerdict) (s : State) :
    Answers (execClientConnect conn front cert s) := by
  unfold execClientConnect
  refine .ite .next ?_
  split
  · exact .next
  · exact .next

theorem execCommandSlotRelease_answers (conn : Nat) (head : FrameHead) (r : SlotRelease) (s : State) :
    Answers (execCommandSlotRelease conn head r s) := by
  unfold execCommandSlotRelease
  split
  · exact .next
  · exact .when

theorem execEventSlotRelease_answers (conn : Nat) (head : FrameHead) (r : SlotRelease) (s : State) :
    Answers (execEventSlotRelease conn head r s) := by
  unfold execEventSlotRelease
  split
  · exact .next
  · exact .when

theorem execEventDeliver_answers (session : Nat) (s : State) : Answers (execEventDeliver session s) := by
  unfold execEventDeliver
  split
  · exact .next
  · split
    · exact .when
    · exact .next

theorem execBulkFrame_answers (conn : Nat) (head : FrameHead) (b : BulkHead) (data : List Byte) (s : State) :
    Answers (execBulkFrame conn head b data s) := by
  unfold execBulkFrame
  refine .ite .next ?_
  split
  · exact .when
  · refine .ite .next (.ite .next ?_)
    split
    · exact .next
    · exact .next

theorem execHoldComplete_answers (id : Nat) (s : State) : Answers (execHoldComplete id s) := by
  unfold execHoldComplete
  split
  · exact .next
  · exact .ite .next .when

theorem execSnapshotFirstWrite_answers (id page : Nat) (s : State) : Answers (execSnapshotFirstWrite id page s) := by
  unfold execSnapshotFirstWrite
  refine .ite ?_ .next
  split
  · exact .next
  · exact .next

theorem execSnapshotDrainPage_answers (id : Nat) (s : State) : Answers (execSnapshotDrainPage id s) := by
  unfold execSnapshotDrainPage
  split
  · exact .next
  · split
    · refine .ite .next ?_
      split
      · exact .next
      · exact .next
    · exact .next

theorem execExportEnd_answers (id : Nat) (s : State) : Answers (execExportEnd id s) := by
  unfold execExportEnd
  dsimp only
  split
  · exact .next
  · split
    · exact .when
    · exact .next

theorem execContextResetStopDone_answers (id : Nat) (s : State) : Answers (execContextResetStopDone id s) := by
  unfold execContextResetStopDone
  split
  · exact .when
  · exact .next

theorem execContextResetRestoreDone_answers (id : Nat) (s : State) : Answers (execContextResetRestoreDone id s) := by
  unfold execContextResetRestoreDone
  split
  · exact .when
  · exact .next

/-! ## Memory, background and the log -/

theorem execCommonsDrainDone_answers (obj : Nat) (s : State) : Answers (execCommonsDrainDone obj s) := by
  unfold execCommonsDrainDone
  split
  · exact .when
  · exact .next

theorem execPatrolScrub_answers (p : Nat) (finding : Finding) (s : State) : Answers (execPatrolScrub p finding s) := by
  unfold execPatrolScrub
  refine .ite .next (.ite .next ?_)
  split
  · exact .next
  · exact .when
  · exact .when

theorem execTopsoilScrub_answers (p : Nat) (finding : Finding) (s : State) : Answers (execTopsoilScrub p finding s) := by
  unfold execTopsoilScrub
  refine .ite .next (.ite .next ?_)
  split
  · exact .next
  · exact .when
  · exact .when

theorem execEqualiserRecalibration_answers (p lane : Nat) (s : State) : Answers (execEqualiserRecalibration p lane s) := by
  unfold execEqualiserRecalibration
  split
  · exact .next
  · refine .ite .next ?_
    split
    · exact .next
    · exact .ite .next .when

theorem execSedRecordWrite_answers (s : State) : Answers (execSedRecordWrite s) := by
  unfold execSedRecordWrite
  split
  · exact .next
  · split
    · exact .next
    · exact .next

/-! ## Resets, boot and power -/

theorem execEngineResetDone_answers (e : Engine) (s : State) : Answers (execEngineResetDone e s) := by
  unfold execEngineResetDone
  split
  · exact .next
  · exact .next

theorem execItemRetry_answers (e : Engine) (r : InstrRef) (s : State) : Answers (execItemRetry e r s) := by
  unfold execItemRetry
  split
  · exact .next
  · exact .ite .next .when

theorem execEngineHang_answers (e : Engine) (s : State) : Answers (execEngineHang e s) := by
  unfold execEngineHang
  dsimp only
  split
  · exact .next
  · exact .next

theorem execResetEscalated_answers (level part : Nat) (s : State) : Answers (execResetEscalated level part s) := by
  unfold execResetEscalated
  split
  · split
    · split
      · exact .when
      · exact .next
    · exact .next
  · split
    · exact .next
    · exact .next
  · split
    · exact .next
    · exact .next
  · split
    · exact .next
    · exact .next
  · exact .next

theorem execBankLoadDone_answers (s : State) : Answers (execBankLoadDone s) := by
  unfold execBankLoadDone
  refine .ite .next ?_
  dsimp only
  split
  · exact .next
  · split
    · exact .next
    · exact .next

theorem execThermalSample_answers (readings : List Reading) (s : State) : Answers (execThermalSample readings s) := by
  unfold execThermalSample
  refine .ite .next ?_
  dsimp only
  split
  · exact .next
  · exact .next

theorem execPowerStateReached_answers (p : Nat) (s : State) : Answers (execPowerStateReached p s) := by
  unfold execPowerStateReached
  split
  · exact .next
  · exact .next

theorem execPowerWake_answers (p : Nat) (s : State) : Answers (execPowerWake p s) := by
  unfold execPowerWake
  split
  · exact .next
  · exact .next

/-! ## Every row -/

theorem exec_answers (s : State) : ∀ i : Instr, Answers (exec i s) ∨ ∃ v, i = .tapInstruction v
  | .mmFwd _ => .inl .next
  | .mmBwd _ => .inl .next
  | .vecElt _ => .inl .next
  | .vecRowred _ => .inl .next
  | .rowstatFwd _ => .inl .next
  | .rowstatBwd _ => .inl .next
  | .dropout _ => .inl .next
  | .initTensor _ => .inl .next
  | .sample _ => .inl .next
  | .clipSum _ => .inl .next
  | .clipFinish _ => .inl .next
  | .convert _ => .inl .next
  | .optimise _ => .inl (execOptimise_answers ..)
  | .copy _ => .inl .next
  | .copyComplete _ => .inl (execCopyComplete_answers ..)
  | .promote _ => .inl (execPromote_answers ..)
  | .evict _ => .inl (execEvict_answers ..)
  | .sealObject _ => .inl (execSealObject_answers ..)
  | .commonsFillDone _ => .inl .next
  | .commonsDrainDone _ => .inl (execCommonsDrainDone_answers ..)
  | .copyPort _ => .inl (execCopyPort_answers ..)
  | .portCopyCompletion _ _ => .inl (execPortCopyCompletion_answers ..)
  | .synWait _ => .inl .next
  | .synSignal _ => .inl .next
  | .allReduce _ => .inl .next
  | .reduceScatter _ => .inl .next
  | .allGather _ => .inl .next
  | .ringPass _ => .inl .next
  | .collMessageReceive _ _ _ => .inl (execCollMessageReceive_answers ..)
  | .nop _ => .inl .next
  | .regWrite _ => .inl .next
  | .grnFpcsrWrite _ => .inl .next
  | .pwrHintWrite _ => .inl .next
  | .lglBootLockClose => .inl .next
  | .sieveCommit _ => .inl .next
  | .stepEnd _ => .inl (execStepEnd_answers ..)
  | .loopEnd _ => .inl (execLoopEnd_answers ..)
  | .instructionAccept _ _ _ => .inl (execInstructionAccept_answers ..)
  | .itemEnterWindow _ _ => .inl (execItemEnterWindow_answers ..)
  | .itemIssue _ _ => .inl (execItemIssue_answers ..)
  | .itemComplete _ _ => .inl .when
  | .laneIssue _ => .inl (execLaneIssue_answers ..)
  | .instructionComplete _ => .inl (execInstructionComplete_answers ..)
  | .itemRetry _ _ => .inl (execItemRetry_answers ..)
  | .waitTimeout _ => .inl (execWaitTimeout_answers ..)
  | .engineHang _ => .inl (execEngineHang_answers ..)
  | .collTimeout _ => .inl (execCollTimeout_answers ..)
  | .updateStall _ => .inl (execUpdateStall_answers ..)
  | .snapshotFirstWrite _ _ => .inl (execSnapshotFirstWrite_answers ..)
  | .snapshotDrainPage _ => .inl (execSnapshotDrainPage_answers ..)
  | .hello _ => .inl .next
  | .attest _ => .inl .next
  | .admitCtx _ => .inl .next
  | .reserve _ => .inl .next
  | .release _ => .inl .next
  | .attachCommons _ => .inl .next
  | .attachCommonsGrant _ => .inl .next
  | .detachCommons _ => .inl .next
  | .detachCommonsRevoke _ => .inl .next
  | .loadPlan _ => .inl .next
  | .bindDataOpenIn _ => .inl .next
  | .bindDataOpenOut _ => .inl .next
  | .bindDataClose _ => .inl .next
  | .bulkFrame _ _ _ _ => .inl (execBulkFrame_answers ..)
  | .runStep _ => .inl .next
  | .hold _ => .inl .next
  | .holdComplete _ => .inl (execHoldComplete_answers ..)
  | .resume _ => .inl .next
  | .snapshot _ => .inl .next
  | .restore _ => .inl .next
  | .exportSnapshot _ => .inl .next
  | .queryStats _ => .inl .next
  | .queryCaps _ => .inl .next
  | .fwOffer _ => .inl .next
  | .fwChunk _ => .inl .next
  | .fwApplyDone => .inl (.ite .next (.ite .next (.ite .next .when)))
  | .fwActivate _ => .inl .next
  | .fwConfirm _ => .inl .next
  | .logReadRecords _ => .inl .next
  | .logReadConfig _ => .inl .next
  | .logWriteConfig _ => .inl .next
  | .logReadSet _ => .inl .next
  | .logWriteSet _ => .inl .next
  | .dumpRead _ => .inl .next
  | .resetReq _ => .inl .next
  | .powerPolicy _ => .inl .next
  | .clientConnect _ _ _ => .inl (execClientConnect_answers ..)
  | .sessionEnd _ => .inl .next
  | .eventSlotRelease _ _ _ => .inl (execEventSlotRelease_answers ..)
  | .eventDeliver _ => .inl (execEventDeliver_answers ..)
  | .flitSend _ => .inl (execFlitSend_answers ..)
  | .flitReceive _ _ _ => .inl (execFlitReceive_answers ..)
  | .retryRequest _ _ => .inl .next
  | .ackTimeout _ => .inl (execAckTimeout_answers ..)
  | .linkDown _ => .inl (execLinkDown_answers ..)
  | .laneLockLoss _ _ => .inl (execLaneLockLoss_answers ..)
  | .peerSlow _ _ => .inl (execPeerSlow_answers ..)
  | .laneErrorInterval _ _ => .inl (execLaneErrorInterval_answers ..)
  | .laneWidthChangeDone _ => .inl (execLaneWidthChangeDone_answers ..)
  | .probeBurst _ => .inl .next
  | .portBurstHeard _ => .inl .when
  | .portTrainDone _ _ _ => .inl (execPortTrainDone_answers ..)
  | .portAuthDone _ _ => .inl (execPortAuthDone_answers ..)
  | .peerAuthTimeout _ => .inl (execPeerAuthTimeout_answers ..)
  | .quarantineExpiry _ => .inl (execQuarantineExpiry_answers ..)
  | .linkKeyUpdate _ => .inl (execLinkKeyUpdate_answers ..)
  | .bindingTableExchange _ _ => .inl .next
  | .contextReset _ _ => .inl .next
  | .contextResetStopDone _ => .inl (execContextResetStopDone_answers ..)
  | .contextResetRestoreDone _ => .inl (execContextResetRestoreDone_answers ..)
  | .engineReset _ _ => .inl .next
  | .engineResetDone _ => .inl (execEngineResetDone_answers ..)
  | .partitionReset _ _ => .inl .next
  | .partitionStopDone _ => .inl .when
  | .partitionDumpDone _ => .inl .next
  | .partitionRetireDone _ => .inl .next
  | .partitionTrainDone _ => .inl .next
  | .partitionZeroDone _ => .inl .next
  | .chipReset _ => .inl .when
  | .resetEscalated _ _ => .inl (execResetEscalated_answers ..)
  | .powerCycleRequest => .inl .when
  | .controllerHeartbeatExpiry _ => .inl .when
  | .managementHeartbeatExpiry => .inl .when
  | .readyWatchdogExpiry => .inl .when
  | .romStartDone => .inl .when
  | .identityDone _ => .inl .when
  | .recordsDone => .inl .when
  | .bankLoadDone => .inl (execBankLoadDone_answers ..)
  | .handoverDone => .inl .when
  | .firmwareReady => .inl .when
  | .dumpFlashCopyDone => .inl .when
  | .pkgResetAssert _ => .inl .when
  | .pkgResetRelease _ => .inl .when
  | .pwrGoodRise => .inl .when
  | .pwrGoodFall => .inl .when
  | .powerDownStopDone => .inl .when
  | .powerBrakeApply _ => .inl .when
  | .powerBrakeRelease _ => .inl .when
  | .refclkLost _ => .inl (.ite .when .when)
  | .refclkReturn _ => .inl (.ite .when .when)
  | .islandClockTrim _ => .inl .when
  | .thermalSample _ => .inl (execThermalSample_answers ..)
  | .thermalCapStep _ => .inl (.ite .next (.ite .next .when))
  | .powerLimitLoop _ => .inl .when
  | .powerStateEnter _ => .inl (.ite .next .when)
  | .powerWake _ => .inl (execPowerWake_answers ..)
  | .powerEnable _ => .inl .when
  | .portPowerOff _ => .inl (execPortPowerOff_answers ..)
  | .patrolScrub _ _ => .inl (execPatrolScrub_answers ..)
  | .topsoilScrub _ _ => .inl (execTopsoilScrub_answers ..)
  | .equaliserRecalibration _ _ => .inl (execEqualiserRecalibration_answers ..)
  | .subsoilRetraining _ _ => .inl .when
  | .pageZeroDone _ => .inl .when
  | .flashWearLevelling _ => .inl .next
  | .bgDeadlineForced _ => .inl .when
  | .telemetrySample _ => .inl .when
  | .sedEventPost _ => .inl .next
  | .sedRecordWrite => .inl (execSedRecordWrite_answers ..)
  | .sedRecordClose => .inl .when
  | .sedTokenRefill _ => .inl .when
  | .sedFlush => .inl .next
  | .commandSlotRelease conn head slot => .inl (execCommandSlotRelease_answers conn head slot s)
  | .powerStateReached _ => .inl (execPowerStateReached_answers ..)
  | .powerWakeDone _ => .inl .when
  | .portOffReturnDone _ => .inl (execPortOffReturnDone_answers ..)
  | .exportEnd _ => .inl (execExportEnd_answers ..)
  | .controlStateUe _ => .inl (.ite .next (.ite .when .next))
  | .tapInstruction i => .inr ⟨i, rfl⟩
  | .tapReset => .inl .next

/-! ## The test port (R408, R477) -/

section
variable {s : State}

theorem exec_debug_of_open (k : Nat) (jtag : s.boot.prot.getLsbD 5 = true) :
    exec (.tapInstruction (.debug k)) s = .fault (.debugInstruction k) := if_pos jtag

theorem exec_debug_of_shut (k : Nat) (shut : s.boot.prot.getLsbD 5 = false) :
    exec (.tapInstruction (.debug k)) s = .next { s with tap := .bypass } := if_neg (by rw [shut]; exact Bool.false_ne_true)

theorem exec_tapInstruction_answers (v : TapInstr) : Answers (exec (.tapInstruction v) s) ∨
    ∃ k, v = .debug k ∧ s.boot.prot.getLsbD 5 = true := by
  cases v with
  | bypass | idcode | samplePreload | drive => exact .inl .next
  | debug k =>
    cases jtag : s.boot.prot.getLsbD 5 with
    | true => exact .inr ⟨k, rfl, rfl⟩
    | false => exact .inl ⟨_, exec_debug_of_shut k jtag⟩

end

/-- Settles O6: every row answers, and the test port's instructions are five cases. -/
theorem onlyADebugInstructionStopsTheBlock : Obligations.OnlyADebugInstructionStopsTheBlock := by
  unfold Obligations.OnlyADebugInstructionStopsTheBlock
  refine ⟨fun c s => ?_, fun s => ⟨rfl, fun idcode stepping => ?_, fun i plain => ?_, fun k => rfl,
    fun k shut => exec_debug_of_shut k shut⟩⟩
  · obtain answers | ⟨v, rfl⟩ := exec_answers s c
    · exact .inl answers
    · obtain answers | ⟨k, rfl, jtag⟩ := exec_tapInstruction_answers v
      · exact .inl answers
      · exact .inr ⟨k, rfl, jtag, exec_debug_of_open k jtag⟩
  · rw [State.tapIdcode, idcode, stepping]
    rfl
  · obtain rfl | rfl | rfl := plain
    · rfl
    · rfl
    · rfl

end Sys2Proof.Machine
end


section
/-! PROOFS. CONTEXT_RESET and the end of its stop phase (R373, R377): the context's items and its work go, and what it is stays. -/

namespace Sys2Proof.Machine

/-! ## The reset begins -/

/-- No item of a context waits at a grain, is in a window or runs. -/
def State.NoItems (s : State) (id : Nat) : Prop :=
  (∀ q ∈ s.scheds, ∀ i ∈ q.2.queue ++ q.2.fwd ++ q.2.bwd, i.ref.ctx ≠ id) ∧
  ∀ q ∈ s.scheds, ∀ y ∈ q.2.running, y.2.1.ref.ctx ≠ id

theorem State.noItems_dropItems (s : State) (id : Nat) : (s.dropItems id).NoItems id := by
  refine ⟨fun q hq i hi => ?_, fun q hq y hy => ?_⟩
  · obtain ⟨p, -, rfl⟩ := List.mem_map.mp hq
    simp only [List.mem_append, List.mem_filter, or_assoc, ← or_and_right] at hi
    exact bne_iff_ne.mp hi.2
  · obtain ⟨p, -, rfl⟩ := List.mem_map.mp hq
    exact bne_iff_ne.mp (List.mem_filter.mp hy).2

theorem State.beginCtxReset_scheds {s : State} {id : Nat} {c : Ctx} (hc : s.ctx? id = some c) (hp : c.phase ≠ .resetting)
    (cause : Nat) : (s.beginCtxReset id cause).scheds = (s.dropItems id).scheds := by
  simp only [State.beginCtxReset, hc, if_neg hp]
  obtain ⟨sed, logged⟩ := SameButLog.writeNow s 0x5002 cause pkgPath id
  rw [logged]
  rfl

theorem exec_contextReset (s : State) (id cause : Nat) : exec (.contextReset id cause) s = .next (s.beginCtxReset id cause) := rfl

/-! ## The stop phase ends -/

/-- What the end of the stop phase leaves of a context, its reset as it stands. -/
def Ctx.atStop (c : Ctx) : Option CtxReset × CtxPhase × List (Nat × Nat) × CtxPages × Option Snapshot :=
  (c.reset, c.phase, c.counters, c.pages, c.snap)

/-- What a context's traffic is dropped from is its ports alone. -/
structure DropsTraffic (id : Nat) (s t : State) : Prop extends SameBase s t, KeepsSeen Ctx.atStop s t where
  others : SameOthers id s t
  mem : t.mem = s.mem
  scheds : t.scheds = s.scheds

namespace DropsTraffic

variable {id : Nat}

theorem refl (s : State) : DropsTraffic id s s := ⟨.refl s, .refl s, .refl id s, rfl, rfl⟩

theorem trans {s t u : State} (h : DropsTraffic id s t) (k : DropsTraffic id t u) : DropsTraffic id s u :=
  ⟨h.toSameBase.trans k.toSameBase, h.toKeepsSeen.trans k.toKeepsSeen, h.others.trans k.others, k.mem.trans h.mem,
    k.scheds.trans h.scheds⟩

theorem foldl {α : Type} {g : State → α → State} (h : ∀ s a, DropsTraffic id s (g s a)) (l : List α) (s : State) :
    DropsTraffic id s (l.foldl g s) :=
  List.foldlRecOn (motive := DropsTraffic id s) l g (.refl s) fun t ht a _ => ht.trans (h t a)

theorem mapPort (s : State) (p : Nat) (f : Port → Port) : DropsTraffic id s (s.mapPort p f) :=
  ⟨⟨rfl, rfl, rfl, rfl, rfl, rfl⟩, .of_ctxs rfl, fun _ _ => rfl, rfl, rfl⟩

theorem countDrop (s : State) : DropsTraffic id s (s.countDrop id) := by
  refine ⟨⟨rfl, rfl, rfl, rfl, rfl, rfl⟩, .mapCtx s id ?_ ?_, .mapCtx s id ?_, rfl, rfl⟩
  all_goals exact fun _ => rfl

theorem unsend (s : State) (c : Ctx) : DropsTraffic id s (s.unsend c) := .foldl (fun _ _ => mapPort ..) _ s

theorem dropPart (s : State) (c : Ctx) (b : Binding) : DropsTraffic c.id s (s.dropPart c b) := by
  unfold State.dropPart
  split
  · exact .refl s
  · exact (countDrop s).trans (mapPort ..)

theorem dropParts (s : State) (c : Ctx) : DropsTraffic c.id s (s.dropParts c) := .foldl (fun s b => dropPart s c b) _ s

/-- A context without open bulk handles has none to cancel. -/
theorem cancelHandles {s : State} (shut : ∀ se ∈ s.ligil.sessions, ∀ h ∈ se.handles, h.ctx ≠ id) :
    DropsTraffic id s (s.cancelHandles id) := by
  have none_ : (s.ligil.sessions.flatMap Session.handles).filter (fun h => h.ctx == id) = [] := by
    refine List.filter_eq_nil_iff.mpr fun h hh => ?_
    obtain ⟨se, hse, hh⟩ := List.mem_flatMap.mp hh
    simpa using shut se hse h hh
  unfold State.cancelHandles State.cancelWhere
  rw [none_]
  exact ⟨⟨rfl, rfl, rfl, rfl, rfl, rfl⟩, .of_ctxs rfl, fun _ _ => rfl, rfl, rfl⟩

end DropsTraffic

/-- A context whose work is gone (R377). -/
def Ctx.stop (c : Ctx) : Ctx :=
  { c with
    steps := [], early := [], snapAsked := false, holdAsked := false, heldDegraded := false
    reset := c.reset.map fun r => { r with stopped := true } }

/-- The work of a context is discarded, and then its traffic. -/
theorem State.stopCtx_eq {s : State} {id : Nat} {c : Ctx} (hc : s.ctx? id = some c)
    (shut : ∀ se ∈ s.ligil.sessions, ∀ h ∈ se.handles, h.ctx ≠ id) :
    ∃ v, DropsTraffic id (s.discardWork id) v ∧ s.stopCtx id = v.mapCtx id Ctx.stop := by
  have own : c.id = id := State.ctx?_id hc
  refine ⟨_, ?_, by simp only [State.stopCtx, hc]; rfl⟩
  have dropped (t : State) : DropsTraffic id t (t.dropParts c) := own ▸ .dropParts t c
  exact ((DropsTraffic.cancelHandles (s := s.discardWork id) shut).trans (.unsend _ c)).trans (dropped _)

theorem exec_contextResetStopDone {s : State} {id : Nat} {c : Ctx} {x : CtxReset} (hc : s.ctx? id = some c)
    (hx : c.reset = some x) (running : x.stopped = false) : exec (.contextResetStopDone id) s = .next (s.stopCtx id) := by
  change execContextResetStopDone id s = _
  simp [execContextResetStopDone, hc, hx, running]

end Sys2Proof.Machine
end


section
/-! PROOFS. Residency that ends or is taken again, and the end of a grant (R134, R231, R234): what they leave of a context, of
memory and of the commons. -/

namespace Sys2Proof.Machine

/-! ## Residency -/

/-- The reading sees nothing of the commons that a context holds or is owed. -/
def Ctx.ResidencyUnseen {α : Type} (π : Ctx → α) : Prop := ∀ (c : Ctx) residency owed, π { c with residency, owed } = π c

theorem KeepsSeen.foldl {α β : Type} {π : Ctx → α} {f : State → β → State} (h : ∀ s b, KeepsSeen π s (f s b)) (l : List β)
    (s : State) : KeepsSeen π s (l.foldl f s) :=
  List.foldlRecOn (motive := KeepsSeen π s) l f (.refl s) fun t ht b _ => ht.trans (h t b)

namespace KeepsSeen

variable {α : Type} {π : Ctx → α} (unseen : Ctx.ResidencyUnseen π)
include unseen

theorem setResidency (s : State) (id obj : Nat) (held : Bool) : KeepsSeen π s (s.setResidency id obj held) :=
  mapCtx s id (fun _ => rfl) fun c => unseen c _ c.owed

theorem owe (s : State) (id obj : Nat) : KeepsSeen π s (s.owe id obj) := mapCtx s id (fun _ => rfl) fun c => unseen c c.residency _

theorem forget (s : State) (id obj : Nat) :
    KeepsSeen π s (s.mapCtx id fun c => { c with owed := c.owed.filter (· != obj) }) :=
  mapCtx s id (fun _ => rfl) fun c => unseen c c.residency _

theorem settle (s : State) (id obj : Nat) : KeepsSeen π s (s.settle id obj) :=
  (setResidency unseen s id obj true).trans (forget unseen _ id obj)

theorem dropResidency (s : State) (id obj : Nat) : KeepsSeen π s (s.dropResidency id obj) :=
  (of_ctxs rfl : KeepsSeen π s (s.mapObject obj _)).trans (setResidency unseen ..)

theorem takeResidency (s : State) (id obj : Nat) : KeepsSeen π s (s.takeResidency id obj) := by
  have settled (t : State) (f : CommonsObj → CommonsObj) (h : t.ctxs = s.ctxs) :
      KeepsSeen π s ((t.mapObject obj f).settle id obj) := (of_ctxs (t := t.mapObject obj f) h).trans (settle unseen ..)
  unfold State.takeResidency
  split
  · exact forget unseen ..
  · split
    · split
      · exact owe unseen ..
      · exact settle unseen ..
    · split
      · dsimp only
        split
        · split
          · next filled => exact settled _ _ (State.fill_ok filled).1.ctxs
          · exact (raise s ..).trans (owe unseen ..)
        · exact owe unseen ..
      · exact (of_ctxs rfl : KeepsSeen π s (s.mapObject obj _)).trans (owe unseen ..)
      · exact settled s _ rfl
      · exact settled s _ rfl

theorem bringResidency (s : State) (id : Nat) (want : List Nat) : KeepsSeen π s (s.bringResidency id want) := by
  unfold State.bringResidency
  split
  · exact .refl s
  · next c _ =>
    refine trans ?_ (foldl (fun t o => takeResidency unseen t id o) want _)
    refine trans ?_ (mapCtx _ id (fun _ => rfl) fun d => unseen d _ d.owed)
    refine trans ?_ (foldl (fun t o => dropResidency unseen t id o) _ _)
    exact mapCtx s id (fun _ => rfl) fun d => unseen d d.residency []

end KeepsSeen

/-- The counters of the commons objects that a context owns (R387). -/
def State.commonsCounters (s : State) (id : Nat) : List Nat :=
  (s.arbiter.objects.filter fun o => o.owner == id).map fun o => o.entry.counter

/-- Nothing is written, and the commons objects keep their owners and counters. -/
structure KeepsCommons (s t : State) : Prop where
  mem : t.mem = s.mem
  counters : ∀ id, t.commonsCounters id = s.commonsCounters id

namespace KeepsCommons

theorem trans {s t u : State} (h : KeepsCommons s t) (k : KeepsCommons t u) : KeepsCommons s u :=
  ⟨k.mem.trans h.mem, fun id => (k.counters id).trans (h.counters id)⟩

theorem of_eq {s t : State} (mem : t.mem = s.mem) (arbiter : t.arbiter = s.arbiter) : KeepsCommons s t :=
  ⟨mem, fun id => by rw [State.commonsCounters, arbiter, ← State.commonsCounters]⟩

theorem mapCtx (s : State) (id : Nat) (f : Ctx → Ctx) : KeepsCommons s (s.mapCtx id f) := of_eq rfl rfl

theorem mapObject (s : State) (obj : Nat) {f : CommonsObj → CommonsObj}
    (same : ∀ o, (f o).owner = o.owner ∧ (f o).entry = o.entry) : KeepsCommons s (s.mapObject obj f) := by
  refine ⟨rfl, fun id => ?_⟩
  have mapped (o : CommonsObj) : (if o.entry.id = obj then f o else o).owner = o.owner ∧
      (if o.entry.id = obj then f o else o).entry = o.entry := by
    split
    · exact same o
    · exact ⟨rfl, rfl⟩
  simp only [State.commonsCounters, State.mapObject, List.filter_map, List.map_map, Function.comp_def, mapped]

theorem dropResidency (s : State) (id obj : Nat) : KeepsCommons s (s.dropResidency id obj) := by
  refine trans (mapObject s obj ?_) (of_eq rfl rfl)
  exact fun _ => ⟨rfl, rfl⟩

/-- A context gives up every residency. -/
theorem bringNone (s : State) (id : Nat) : KeepsCommons s (s.bringResidency id []) := by
  unfold State.bringResidency
  split
  · exact of_eq rfl rfl
  · dsimp only [List.foldl_nil]
    refine trans ?_ (mapCtx ..)
    exact List.foldlRecOn (motive := KeepsCommons s) _ _ (mapCtx ..) fun t ht o _ => ht.trans (dropResidency t id o)

end KeepsCommons

/-! ## The end of a grant -/

theorem HoldsAcrossWrites.wrPages {R : State → State → Prop} (h : HoldsAcrossWrites R) {k : Nat} {s t : State} {id off : Nat}
    {bs : List Byte} (written : State.wrPages k s id off bs = .ok t) : R s t := by
  induction k generalizing s off bs with
  | zero =>
    cases written
    exact h.refl _
  | succ k ih =>
    unfold State.wrPages at written
    split at written
    · cases written
      exact h.refl _
    · dsimp only at written
      split at written
      · cases written
      · next first => exact h.trans (h.wrPage first) (ih written)

theorem holdsAcrossWrites_arbiter : HoldsAcrossWrites fun s t => t.arbiter = s.arbiter :=
  ⟨fun _ => rfl, fun h k => k.trans h, fun _ _ _ => rfl, fun _ _ _ => rfl, fun _ _ _ => rfl, fun _ => rfl⟩

/-- What the end of a grant writes beside the fall-back pages: records of tensors, through the context's window. -/
structure WritesRecords (id : Nat) (s t : State) : Prop extends Stores id s t where
  arbiter : t.arbiter = s.arbiter

theorem WritesRecords.refl (id : Nat) (s : State) : WritesRecords id s s := ⟨.refl s, rfl⟩

theorem WritesRecords.setRecFlags {id : Nat} {s t : State} {off : Nat} {mark wide hist : Bool}
    (h : s.setRecFlags id off mark wide hist = .ok t) : WritesRecords id s t :=
  ⟨(State.wrNat_stores ..).at_ok t h, holdsAcrossWrites_arbiter.wrPages h⟩

/-- A succession of steps that may fail, where none does. -/
theorem WritesRecords.foldlM {id : Nat} {α : Type} {g : State → α → Except Fail State}
    (h : ∀ s a t, g s a = .ok t → WritesRecords id s t) {l : List α} {s t : State} (ran : l.foldlM g s = .ok t) :
    WritesRecords id s t := by
  induction l generalizing s with
  | nil =>
    cases ran
    exact .refl ..
  | cons a l ih =>
    rw [List.foldlM_cons] at ran
    obtain ⟨u, first, others⟩ := ok_of_bind_eq_ok ran
    exact ⟨(h s a u first).toStores.trans (ih others).toStores, (ih others).arbiter.trans (h s a u first).arbiter⟩

section
variable {s : State} {id : Nat} {c : Ctx} (hc : s.ctx? id = some c)
include hc

/-- A grant ends in that the fall-back pages are dropped, and records are written. -/
theorem State.endGrant_writes {t : State} {p : Plan} (ended : s.endGrant id p = .ok t) : WritesRecords id (s.dropFallback id) t := by
  simp only [State.endGrant, hc] at ended
  simp only [State.dropFallback, hc]
  refine WritesRecords.foldlM (fun u x v ran => ?_) ended
  obtain ⟨rc, ran⟩ := exists_of_bind_eq_ok ran
  split at ran
  · exact .setRecFlags ran
  · cases ran
    exact .refl ..

/-- The registers of a context without a grant. -/
def Ctx.ungranted (c : Ctx) : Ctx :=
  { c with sieve := { c.sieve with granted := [], denied := 0, grantStep := none, lent := 0 } }

omit hc in
theorem State.dropGrant_eq (s : State) (id : Nat) : ∃ v, (v = s.dropFallback id ∨ ∃ p, s.endGrant id p = .ok v) ∧
    s.dropGrant id = v.mapCtx id Ctx.ungranted := by
  unfold State.dropGrant
  refine ⟨_, ?_, rfl⟩
  split
  · exact .inl rfl
  · next p _ =>
    split
    · next ended => exact .inr ⟨p, ended⟩
    · exact .inl rfl

theorem State.dropGrant_writes : ∃ v, WritesRecords id (s.dropFallback id) v ∧ s.dropGrant id = v.mapCtx id Ctx.ungranted := by
  obtain ⟨v, rfl | ⟨p, ended⟩, dropped⟩ := s.dropGrant_eq id
  · exact ⟨_, .refl .., dropped⟩
  · exact ⟨v, State.endGrant_writes hc ended, dropped⟩

theorem State.memRead_dropFallback {a : Nat} (out : c.outside a) : memRead (s.dropFallback id).mem a = memRead s.mem a := by
  simp only [State.dropFallback, hc]
  refine List.foldlRecOn (motive := fun m => memRead m a = memRead s.mem a) c.pages.fallback _ rfl fun m same q hq => ?_
  have apart := out q.dev (.inr (.inl (List.mem_map_of_mem hq)))
  rw [memRead_memZero, if_neg (by omega), same]

theorem State.outside_dropFallback {a : Nat} (out : c.outside a) : (s.dropFallback id).outside id a := by
  intro d hd
  have found : (s.dropFallback id).ctx? id = some { c with pages := { c.pages with fallback := [] } } := by
    simp only [State.dropFallback, hc]
    exact State.ctx?_mapCtx_self hc fun _ => rfl
  cases hd.symm.trans found
  rintro p (window | ⟨⟨⟩⟩ | area)
  · exact out p (.inl window)
  · exact out p (.inr (.inr area))

/-- The end of a grant writes nothing outside the pages of its context. -/
theorem State.memRead_dropGrant {a : Nat} (out : c.outside a) : memRead (s.dropGrant id).mem a = memRead s.mem a := by
  obtain ⟨v, written, dropped⟩ := State.dropGrant_writes hc
  rw [dropped]
  exact (written.unwritten a (State.outside_dropFallback hc out)).trans (State.memRead_dropFallback hc out)

theorem State.dropGrant_arbiter : (s.dropGrant id).arbiter = s.arbiter := by
  obtain ⟨v, written, dropped⟩ := State.dropGrant_writes hc
  have kept : (s.dropFallback id).arbiter = s.arbiter := by simp only [State.dropFallback, hc]; rfl
  rw [dropped]
  exact written.arbiter.trans kept

/-- A context keeps its course where its grant ends, and is granted nothing. -/
theorem State.ctx?_dropGrant : ∃ d, (s.dropGrant id).ctx? id = some d ∧ d.planCourse = c.planCourse ∧ d.sieve.granted = [] := by
  obtain ⟨d, hd, course⟩ := (KeepsCourse.dropGrant (id := id) s).exists_after hc
  refine ⟨d, hd, course, ?_⟩
  obtain ⟨v, -, dropped⟩ := s.dropGrant_eq id
  rw [dropped, State.ctx?_mapCtx v id id (f := Ctx.ungranted) fun _ => rfl, if_pos rfl] at hd
  obtain ⟨e, -, rfl⟩ := Option.map_eq_some_iff.mp hd
  rfl

end

end Sys2Proof.Machine
end


section
/-! PROOFS. The end of a context reset (R376, R377, R383, R387): the context is HELD, lost, or gone with its RELEASE. -/

namespace Sys2Proof.Machine

/-! ## The context is there after each operation of the restore phase -/

namespace KeepsSeen

variable {α : Type} {π : Ctx → α}

/-- Where contexts keep anything, they are there. -/
theorem ids {s t : State} (h : KeepsSeen π s t) : KeepsSeen Ctx.id s t := by
  refine ⟨fun id => ?_⟩
  have seen := h.seen id
  cases hc : s.ctx? id with
  | none =>
    rw [hc, Option.map_none, Option.map_eq_none_iff] at seen
    rw [seen]
  | some c =>
    obtain ⟨d, hd, -⟩ := h.exists_after hc
    rw [hd, Option.map_some, Option.map_some, State.ctx?_id hd, State.ctx?_id hc]

theorem ite {s t u : State} {p : Prop} [Decidable p] (h : KeepsSeen π s t) (k : KeepsSeen π s u) :
    KeepsSeen π s (if p then t else u) := by
  split
  · exact h
  · exact k

theorem undefAreaPages (n : Nat) (c : Ctx) (k : Nat) (s : State) (off i len : Nat) :
    KeepsSeen π s (State.undefAreaPages n c k s off i len) := by
  induction k generalizing s off i len with
  | zero => exact .refl s
  | succ k ih =>
    unfold State.undefAreaPages
    split
    · exact .refl s
    · dsimp only
      split
      · next a _ => exact (of_ctxs rfl : KeepsSeen π s (s.pokes a _)).trans (ih ..)
      · exact ih ..

theorem undefHandle (s : State) (h : Handle) : KeepsSeen Ctx.id s (s.undefHandle h) := by
  unfold State.undefHandle
  split
  · exact .refl s
  · split
    · split
      · exact (of_ctxs rfl : KeepsSeen Ctx.id s s.draw.2).trans (undefAreaPages ..)
      · exact .refl s
    · exact (State.undefRange_stores ..).toKeepsSeen.ids

theorem endExport (s : State) (h : Handle) :
    KeepsSeen Ctx.id s (if h.exporting then s.mapCtx h.ctx fun c => { c with exporting := false } else s) :=
  .ite (.mapCtx s h.ctx (fun _ => rfl) fun _ => rfl) (.refl s)

theorem cancelHandles (s : State) (id : Nat) : KeepsSeen Ctx.id s (s.cancelHandles id) := by
  have cancelled (l : List Handle) : KeepsSeen Ctx.id s (l.foldl (fun s h =>
      if h.exporting then s.mapCtx h.ctx fun c => { c with exporting := false } else s) (l.foldl (fun s h => s.undefHandle h) s)) :=
    (foldl (fun s h => undefHandle s h) l s).trans (foldl (fun s h => endExport s h) l _)
  exact (cancelled _).trans (of_ctxs rfl)

theorem restoreSlot (s : State) (c : Ctx) (j win : Nat) : KeepsSeen π s (s.restoreSlot c j win) := by
  unfold State.restoreSlot
  split
  · exact of_ctxs rfl
  · exact .refl s

theorem applyRecord (s : State) (id : Nat) (img : ImageRec) : KeepsSeen Ctx.id s (s.applyRecord id img) := by
  have brought (m : Ctx → Ctx) (hm : ∀ c, (m c).id = c.id) : KeepsSeen Ctx.id s ((s.mapCtx id m).bringResidency id img.residency) :=
    (mapCtx s id hm hm).trans (bringResidency (fun _ _ _ => rfl) ..)
  unfold State.applyRecord
  split
  · exact .refl s
  · dsimp only
    split
    · exact brought _ fun _ => rfl
    · split
      · next t granted =>
        refine (brought _ ?_).trans (.mapCtx _ id ?_ ?_) |>.trans ((State.grant_position ..).at_ok t granted).ids
        all_goals exact fun _ => rfl
      · refine (brought _ ?_).trans (.mapCtx _ id ?_ ?_)
        all_goals exact fun _ => rfl

end KeepsSeen

/-! ## A context is lost, or restored -/

section
variable {s : State} {id : Nat} {c : Ctx} (hc : s.ctx? id = some c)
include hc

/-- A lost context is RESERVED, without a plan (R376). -/
theorem State.ctx?_loseContext (detail : Nat) : ∃ d, (s.loseContext id detail).ctx? id = some d ∧
    d.phase = .reserved ∧ d.plan = none ∧ d.steps = [] := by
  have left : KeepsSeen Ctx.id s ((((s.discardWork id).cancelHandles id).bringResidency id []).notify id 0x5008 detail 0 []
      |>.raise 0x5008 detail pkgPath id) :=
    (KeepsSeen.of_ctxs rfl : KeepsSeen Ctx.id s (s.discardWork id)).trans (.cancelHandles ..)
      |>.trans (.bringResidency (fun _ _ _ => rfl) ..) |>.trans (.notify (fun _ _ _ _ _ _ => rfl) ..) |>.trans (.raise ..)
  obtain ⟨d, hd, -⟩ := left.exists_after hc
  exact ⟨_, State.ctx?_mapCtx_self hd fun _ => rfl, rfl, rfl, rfl⟩

/-- What the restore phase leaves of a context without a snapshot: the position of its plan is open, and nothing else of it
runs (R377, R387). -/
structure Ctx.RestoredBare (c : Ctx) (counters : List (Nat × Nat)) (cause : Nat) (d : Ctx) : Prop where
  phase : d.phase = .held
  steps : d.steps = []
  counters : d.counters = counters
  plan : d.plan = c.plan
  keys : d.spr.keys = true
  granted : d.sieve.granted = []
  heldCode : d.lgl.heldCode = 0x5002
  heldDetail : d.lgl.heldDetail = cause

omit hc in
/-- The counters that a context keeps are those of the commons objects it owns. -/
theorem State.keepCommons_nil (s : State) (c : Ctx) :
    s.keepCommons c [] = c.counters.filter fun p => (s.commonsCounters c.id).contains p.1 := rfl

omit hc in
theorem Ctx.residencyUnseen_planCourse : Ctx.ResidencyUnseen Ctx.planCourse := fun _ _ _ => rfl

/-- What a context without a snapshot is restored to, `v` having the commons it may own. -/
def State.bareRestored (v : State) (cause : Nat) (c : Ctx) : Ctx :=
  ({ c with counters := v.keepCommons c [], steps := [], snapAsked := false, heldDegraded := false, waits := [],
            sieve := { c.sieve with jit := [], replay := false }
            grains := c.grains.map fun (g : Nat × GrainRegs) => (g.1, { g.2 with skewValid := false })
            spr := { c.spr with step := 0, tag := 0, posWait := true, keys := true },
            lgl := { c.lgl with nextStep := (c.plan.map Plan.nFirst).getD 0 } }).holdWith 0x5002 cause

theorem State.restoreAfterReset_of_bare (bare : c.snap = none) (cause : Nat) : s.restoreAfterReset id cause =
    ((s.bringResidency id []).dropGrant id).mapCtx id (((s.bringResidency id []).dropGrant id).bareRestored cause) := by
  simp only [State.restoreAfterReset, hc, bare]
  rfl

/-- A context that gave up its residency and its grant has its course still, and its counters stand for the same commons. -/
theorem State.ctx?_released : ∃ d, ((s.bringResidency id []).dropGrant id).ctx? id = some d ∧
    d.planCourse = c.planCourse ∧ d.sieve.granted = [] ∧
    ((s.bringResidency id []).dropGrant id).keepCommons d [] = s.keepCommons c [] ∧
    ∀ a, c.outside a → memRead ((s.bringResidency id []).dropGrant id).mem a = memRead s.mem a := by
  have commons := KeepsCommons.bringNone s id
  obtain ⟨b, hb, course⟩ := (KeepsSeen.bringResidency Ctx.residencyUnseen_planCourse s id []).exists_after hc
  have pages : b.pages = c.pages := by
    obtain ⟨b', hb', pages⟩ := (KeepsSeen.bringResidency (π := Ctx.pages) (fun _ _ _ => rfl) s id []).exists_after hc
    cases hb.symm.trans hb'
    exact pages
  obtain ⟨d, hd, course', granted⟩ := State.ctx?_dropGrant hb
  have counters : d.counters = c.counters := congrArg (fun x => x.2.2.2.1) (course'.trans course)
  have same : ((s.bringResidency id []).dropGrant id).commonsCounters id = s.commonsCounters id := by
    rw [State.commonsCounters, State.dropGrant_arbiter hb]
    exact commons.counters id
  refine ⟨d, hd, course'.trans course, granted, ?_, fun a out => ?_⟩
  · rw [State.keepCommons_nil, State.keepCommons_nil, State.ctx?_id hd, State.ctx?_id hc, counters, same]
  · rw [State.memRead_dropGrant hb ((Ctx.outside_congr pages a).mpr out), commons.mem]

theorem State.restoreAfterReset_bare (bare : c.snap = none) (cause : Nat) :
    ∃ d, (s.restoreAfterReset id cause).ctx? id = some d ∧ c.RestoredBare (s.keepCommons c []) cause d ∧
      ∀ a, c.outside a → memRead (s.restoreAfterReset id cause).mem a = memRead s.mem a := by
  obtain ⟨d, hd, course, granted, counters, mem⟩ := State.ctx?_released hc
  have plan : d.plan = c.plan := congrArg Prod.fst course
  rw [State.restoreAfterReset_of_bare hc bare]
  exact ⟨_, State.ctx?_mapCtx_self hd fun _ => rfl, ⟨rfl, rfl, counters, plan, rfl, granted, rfl, rfl⟩, mem⟩

/-- A context that is there still is HELD. -/
theorem State.ctx?_held {v : State} (left : KeepsSeen Ctx.id s v) {f : Ctx → Ctx} (hf : ∀ c, (f c).id = c.id) (cause : Nat) :
    ∃ d, (v.mapCtx id fun c => (f c).holdWith 0x5002 cause).ctx? id = some d ∧ d.phase = .held := by
  obtain ⟨d, hd, -⟩ := left.exists_after hc
  exact ⟨_, State.ctx?_mapCtx_self hd hf, rfl⟩

/-- A context whose reset does not lose it is HELD, or lost with its snapshot (R376, R377). -/
theorem State.ctx?_restoreAfterReset (cause : Nat) : ∃ d, (s.restoreAfterReset id cause).ctx? id = some d ∧
    (d.phase = .held ∨ d.phase = .reserved) := by
  simp only [State.restoreAfterReset, hc]
  split
  · split
    · obtain ⟨d, hd, phase, -⟩ := State.ctx?_loseContext hc 2
      exact ⟨d, hd, .inr phase⟩
    · have slots (l : List (Nat × Nat)) : KeepsSeen Ctx.id s (State.mapCtx (l.foldl (fun s p => s.restoreSlot c p.2 p.1) s) id
          fun c => { c with snap := c.snap.map fun q => { q with dirty := [] } }) := by
        refine (KeepsSeen.foldl (fun t p => .restoreSlot t c p.2 p.1) l s).trans (.mapCtx _ id ?_ ?_)
        all_goals exact fun _ => rfl
      refine Exists.imp (fun d found => ⟨found.1, .inl found.2⟩)
        (State.ctx?_held hc (f := fun c => c) ((slots _).trans (.applyRecord ..)) (fun _ => rfl) cause)
  · obtain ⟨d, hd, -⟩ := State.ctx?_released hc
    exact ⟨_, State.ctx?_mapCtx_self hd fun _ => rfl, .inl rfl⟩

end

/-! ## The reset ends -/

/-- What the restore phase does with a context. -/
def State.restored (s : State) (id : Nat) (x : CtxReset) : State :=
  if x.lost then s.loseContext id 1 else s.restoreAfterReset id x.cause

/-- The end of a reset of a context is logged and announced, unless the context is lost or released (R360). -/
def State.announceEnd (s : State) (id : Nat) (x : CtxReset) : State :=
  match s.ctx? id with
  | some c =>
    if c.phase ≠ CtxPhase.held ∨ (x.release ∧ x.cause = 1) then s
    else (s.raise 0x5002 x.cause pkgPath id).notify id 0x5002 x.cause c.spr.step []
  | none => s

/-- A context out of its reset. -/
def Ctx.outOfReset (c : Ctx) : Ctx := { c with reset := none, holdAsked := false }

theorem State.announceEnd_mem (s : State) (id : Nat) (x : CtxReset) : (s.announceEnd id x).mem = s.mem := by
  unfold State.announceEnd
  split
  · split
    · rfl
    · rw [State.notify_mem]
      rfl
  · rfl

/-- An announcement changes at most the queue of events of its context. -/
theorem State.ctx?_announceEnd {s : State} {id : Nat} {c : Ctx} (hc : s.ctx? id = some c) (x : CtxReset) :
    ∃ events eventsLost, (s.announceEnd id x).ctx? id = some { c with events, eventsLost } := by
  simp only [State.announceEnd, hc]
  split
  · exact ⟨c.events, c.eventsLost, hc⟩
  · exact State.ctx?_notify (s := s.raise ..) hc ..

section
variable {s : State} {id : Nat} {c : Ctx} {x : CtxReset} (hc : s.ctx? id = some c) (hx : c.reset = some x)
include hc hx

theorem State.endCtxReset_eq : s.endCtxReset id =
    let t := (((s.restored id x).mapCtx id Ctx.outOfReset).announceEnd id x).answerReset id c.rst.code
    if x.release then t.finishRelease id else t := by
  simp only [State.endCtxReset, hc, hx]
  rfl

theorem State.endCtxReset_of_kept (kept : x.release = false) : s.endCtxReset id =
    (((s.restored id x).mapCtx id Ctx.outOfReset).announceEnd id x).answerReset id c.rst.code :=
  (State.endCtxReset_eq hc hx).trans (if_neg (by simp [kept]))

theorem State.endCtxReset_of_released (released : x.release = true) : (s.endCtxReset id).ctx? id = none := by
  rw [(State.endCtxReset_eq hc hx).trans (if_pos released)]
  exact State.ctx?_finishRelease ..

/-- The context as the restore phase left it, out of its reset. -/
theorem State.ctx?_endCtxReset (kept : x.release = false) {d : Ctx} (hd : (s.restored id x).ctx? id = some d) :
    ∃ events eventsLost, (s.endCtxReset id).ctx? id = some { d.outOfReset with events, eventsLost } := by
  obtain ⟨events, eventsLost, he⟩ := State.ctx?_announceEnd (State.ctx?_mapCtx_self (f := Ctx.outOfReset) hd fun _ => rfl) x
  rw [State.endCtxReset_of_kept hc hx kept]
  exact ⟨events, eventsLost, (congrArg (List.find? _) (State.answerBusy_frame ..).1).trans he⟩

theorem State.endCtxReset_mem (kept : x.release = false) : (s.endCtxReset id).mem = (s.restored id x).mem := by
  rw [State.endCtxReset_of_kept hc hx kept]
  exact (State.answerBusy_frame ..).2.trans (State.announceEnd_mem ..)

theorem exec_contextResetRestoreDone_waits (waits : x.stopped = false ∨ x.dies ≠ []) :
    exec (.contextResetRestoreDone id) s = .next s := by
  change execContextResetRestoreDone id s = _
  rcases waits with running | dies
  · simp [execContextResetRestoreDone, hc, hx, running]
  · simp [execContextResetRestoreDone, hc, hx, dies]

theorem exec_contextResetRestoreDone (stopped : x.stopped = true) (back : x.dies = []) :
    exec (.contextResetRestoreDone id) s = .next (s.endCtxReset id) := by
  change execContextResetRestoreDone id s = _
  simp [execContextResetRestoreDone, hc, hx, stopped, back]

/-- The end of a reset that no RELEASE waits for (R376, R377, R387). -/
theorem State.endCtxReset_keeps_ctx (kept : x.release = false) : ∃ d, (s.endCtxReset id).ctx? id = some d ∧
    d.reset = none ∧ d.holdAsked = false ∧ (d.phase = .held ∨ d.phase = .reserved) ∧
    (x.lost = true → d.phase = .reserved ∧ d.plan = none ∧ d.steps = []) ∧
    (x.lost = false → c.snap = none → c.RestoredBare (s.keepCommons c []) x.cause d ∧
      ∀ a, c.outside a → memRead (s.endCtxReset id).mem a = memRead s.mem a) := by
  have mem := State.endCtxReset_mem hc hx kept
  cases lost : x.lost with
  | true =>
    obtain ⟨d, hd, phase, plan, steps⟩ := State.ctx?_loseContext hc 1
    obtain ⟨events, eventsLost, he⟩ := State.ctx?_endCtxReset hc hx kept (by rwa [State.restored, if_pos lost])
    exact ⟨_, he, rfl, rfl, .inr phase, fun _ => ⟨phase, plan, steps⟩, nofun⟩
  | false =>
    have restored : s.restored id x = s.restoreAfterReset id x.cause := if_neg (by simp [lost])
    obtain ⟨d, hd, phase⟩ := State.ctx?_restoreAfterReset hc x.cause
    obtain ⟨events, eventsLost, he⟩ := State.ctx?_endCtxReset hc hx kept (by rwa [restored])
    refine ⟨_, he, rfl, rfl, phase, nofun, fun _ bare => ?_⟩
    obtain ⟨d', hd', ⟨held, steps, counters, plan, keys, granted, code, detail⟩, unwritten⟩ :=
      State.restoreAfterReset_bare hc bare x.cause
    cases hd.symm.trans hd'
    rw [mem, restored]
    exact ⟨⟨held, steps, counters, plan, keys, granted, code, detail⟩, unwritten⟩

end

/-- Settles O55: each row is one operation on its context, and the restore phase ends by which of three the reset calls for. -/
theorem contextResetsStopAndRestore : Obligations.ContextResetsStopAndRestore := by
  unfold Obligations.ContextResetsStopAndRestore
  refine fun s id c hc => ⟨fun cause stands => ?_, fun cause resetting => ?_, fun x hx running shut => ?_,
    fun x hx waits => exec_contextResetRestoreDone_waits hc hx waits, fun x hx stopped back => ⟨fun kept => ?_, fun released => ?_⟩⟩
  · have found := State.ctx?_beginCtxReset hc stands cause
    obtain ⟨items, runs⟩ := s.noItems_dropItems id
    have scheds := State.beginCtxReset_scheds hc stands cause
    rw [← scheds] at items runs
    exact ⟨_, _, _, exec_contextReset s id cause, found, rfl, rfl, rfl, rfl, rfl, rfl, rfl, rfl, rfl, rfl, items, runs,
      (KeepsStored.beginCtxReset ..).mem, .beginCtxReset s id cause, .beginCtxReset s id cause⟩
  · rw [exec_contextReset, State.beginCtxReset_of_resetting hc resetting]
  · obtain ⟨v, dropped, stopped⟩ := State.stopCtx_eq hc shut
    obtain ⟨d, hd, atStop⟩ := dropped.exists_after (s := s.discardWork id) hc
    obtain ⟨reset, phase, counters, pages, snap⟩ : d.reset = c.reset ∧ d.phase = c.phase ∧ d.counters = c.counters ∧
        d.pages = c.pages ∧ d.snap = c.snap := by simpa only [Ctx.atStop, Prod.mk.injEq] using atStop
    have row := exec_contextResetStopDone hc hx running
    have scheds : v.scheds = (s.dropItems id).scheds := dropped.scheds
    have items := (s.noItems_dropItems id).1
    rw [← scheds] at items
    rw [stopped] at row
    have others : SameOthers id s (v.mapCtx id Ctx.stop) :=
      SameOthers.trans (fun j other => dropped.others j other) (.mapCtx v id (f := Ctx.stop) fun _ => rfl)
    have discarded : SameBase s (s.discardWork id) := ⟨rfl, rfl, rfl, rfl, rfl, rfl⟩
    exact ⟨_, d.stop, row, State.ctx?_mapCtx_self (f := Ctx.stop) hd fun _ => rfl, rfl, by rw [Ctx.stop, reset, hx]; rfl, phase,
      counters, pages, snap, items, dropped.mem, others,
      (discarded.trans dropped.toSameBase).trans (SameDevice.mapCtx v id Ctx.stop).toSameBase⟩
  · obtain ⟨d, hd, reset, asked, phase, lost, bare⟩ := State.endCtxReset_keeps_ctx hc hx kept
    refine ⟨_, d, exec_contextResetRestoreDone hc hx stopped back, hd, reset, asked, phase, lost, fun saved none_ => ?_⟩
    obtain ⟨⟨held, steps, counters, plan, keys, granted, code, detail⟩, unwritten⟩ := bare saved none_
    exact ⟨held, steps, counters, plan, keys, granted, code, detail, unwritten⟩
  · exact ⟨_, exec_contextResetRestoreDone hc hx stopped back, State.endCtxReset_of_released hc hx released⟩

end Sys2Proof.Machine
end
